-- ==== Sys2Proof/Word.lean ====
section
/-! DEFINITION. The plain words and containers of the model: bytes, the local frame count, channel numbers, the two
sides A and B (feed ports, site ports, players, banks), and one-value-per-side and one-value-per-channel containers. -/

namespace Sys2Proof

/-- One byte of a GSL frame (R189). -/
abbrev Byte := BitVec 8

/-- A local frame number: the 32-bit count of R2, with arithmetic modulo 2^32. -/
abbrev LocalFrame := BitVec 32

/-- An event id (conventions: 32 bits, 0 means "none"). -/
abbrev EventId := BitVec 32

/-- A replication sequence number (16 bits, conventions). -/
abbrev SeqNo := BitVec 16

/-- A request tag (R164, R190). -/
abbrev Tag := BitVec 16

/-- A channel, 0 to 11. -/
abbrev Channel := Fin 12

/-- The channels in ascending order. -/
def channels : List Channel := [0, 1, 2, 3, 4, 5, 6, 7, 8, 9, 10, 11]

/-- One of two: feed port FA or FB, site port SA or SB, player A or B, bank 0 or 1. -/
inductive Side where
  | A
  | B
deriving DecidableEq, Repr

/-- A feed port, facing a main-site gateway. -/
abbrev FeedPort := Side

/-- A site port, facing an automation controller. -/
abbrev SitePort := Side

/-- A player of a channel (R139). -/
abbrev Player := Side

/-- A bank of the settings storage: bank 0 is A, bank 1 is B (R183). -/
abbrev BankId := Side

/-- The other one of two. -/
def Side.other : Side → Side
  | .A => .B
  | .B => .A

/-- One value for each of two sides. -/
structure PerSide (α : Type) where
  a : α
  b : α
deriving DecidableEq, Repr

/-- The value of one side. -/
def PerSide.get {α : Type} (v : PerSide α) : Side → α
  | .A => v.a
  | .B => v.b

/-- The container with one side replaced. -/
def PerSide.put {α : Type} (v : PerSide α) (p : Side) (x : α) : PerSide α :=
  match p with
  | .A => { v with a := x }
  | .B => { v with b := x }

/-- The same function on both sides. -/
def PerSide.map {α β : Type} (f : α → β) (v : PerSide α) : PerSide β := ⟨f v.a, f v.b⟩

/-- The same value on both sides. -/
def PerSide.same {α : Type} (x : α) : PerSide α := ⟨x, x⟩

/-- One value for each channel. -/
abbrev PerChannel (α : Type) := Vector α 12

/-- The same value for every channel. -/
def PerChannel.same {α : Type} (x : α) : PerChannel α := Vector.replicate 12 x

/-- The container with one channel's value replaced. -/
def PerChannel.put {α : Type} (v : PerChannel α) (c : Channel) (x : α) : PerChannel α :=
  Vector.set v c.val x c.isLt

/-- The same function on every channel. -/
def PerChannel.mapAll {α β : Type} (f : α → β) (v : PerChannel α) : PerChannel β :=
  Vector.mk (v.toArray.toList.map f).toArray (by simp)

/-- A value computed for every channel from its number. -/
def PerChannel.build {α : Type} (f : Channel → α) : PerChannel α :=
  Vector.mk (channels.map f).toArray (by simp [channels])

/-- The channels' values, in ascending channel order. -/
def PerChannel.list {α : Type} (v : PerChannel α) : List α := v.toArray.toList

end Sys2Proof
end

