-- ==== Sys2Proof/Config.lean ====
section
/-! DEFINITION. What is fixed for the part: its capacities (00_scope.md), the names its settings are made of, the
settings themselves, the settings image in the two storage banks, and the free values. -/

namespace Sys2Proof

/-! ## Capacities (00_scope.md, "Capacities") -/

/-- Slots of the event pool (R45). -/
def poolSize : Nat := 6144

/-- Events that one page may hold (R46). -/
def pageSize : Nat := 1024

/-- Complete frames a feed port's receive queue may hold (R70). -/
def feedQueueSize : Nat := 2

/-- Answers a site port's answer queue may hold (R165). -/
def answerQueueSize : Nat := 4

/-! ## Names of settings -/

/-- The three video formats (00_scope.md, "Video formats"); `f30d` is the drop-frame one. -/
inductive Format where
  | f25
  | f30d
  | f30n
deriving DecidableEq, Repr

/-- The takeover policy of a channel (R114). -/
inductive Policy where
  | auto
  | manual
  | never
deriving DecidableEq, Repr

/-- The active level of an output (R160, R161). -/
inductive Polarity where
  | activeHigh
  | activeLow
deriving DecidableEq, Repr

/-- How the presence scanner sweeps (5.2, R98, R99). -/
inductive ScanMode where
  | sequential
  | parallel
deriving DecidableEq, Repr

/-! ## The live settings (R180) -/

/-- One player of a channel: its ML address (1 to 31) and the router source of its output (7.1). -/
structure PlayerSetting where
  address : Nat
  source : Nat
deriving DecidableEq, Repr

/-- The settings of one channel (R180, R194). Values are plain numbers, so that a stored image can also hold one
outside its range, which R184 then finds not valid. -/
structure ChannelSettings where
  enabled : Bool
  policy : Policy
  destination : Nat
  mainSource : Nat
  filler : Option Nat
  players : PerSide PlayerSetting
  /-- K, in frames. -/
  cueLead : Nat
  /-- MIN_REMAIN, in frames. -/
  minRemain : Nat
  /-- T, the presence threshold. -/
  threshold : Nat
  /-- A, the absence count. -/
  absenceCount : Nat
  /-- CONFIRM, in frames. -/
  confirm : Nat
  tallyPolarity : Polarity
deriving DecidableEq, Repr

/-- The settings of a channel as the image stores them: in the order and the widths of the channel settings record (R194). A code
or a value out of its range can stand here, and R184 then finds the bank not valid. -/
structure StoredChannel where
  enable : Byte
  policy : Byte
  destination : Byte
  mainSource : BitVec 16
  filler : BitVec 16
  addressA : Byte
  sourceA : BitVec 16
  addressB : Byte
  sourceB : BitVec 16
  cueLead : Byte
  minRemain : Byte
  threshold : BitVec 16
  absenceCount : Byte
  confirm : BitVec 16
  tallyPolarity : Byte
deriving DecidableEq, Repr

/-- The settings that the settings image holds (R180), over what stands for one channel. -/
structure SettingsOf (α : Type) where
  format : Format
  swFirst : Nat
  swLast : Nat
  /-- Rs: a window is 2^Rs gated lines. -/
  scanResolution : Nat
  scanMode : ScanMode
  scanRepeat : Bool
  /-- Bit c for channel c. -/
  scanMask : BitVec 12
  hbTimeout : Nat
  feedDelay : Nat
  siteTimeout : Nat
  replyTimeout : Nat
  almPolarity : Polarity
  /-- Bit k for flag kind k (R178, 10.3). -/
  alarmMask : BitVec 32
  channel : PerChannel α
deriving DecidableEq, Repr

/-- The live settings (R180). -/
abbrev Settings := SettingsOf ChannelSettings

/-- A settings image as the storage holds it (R180, R194). -/
abbrev Image := SettingsOf StoredChannel

/-- A bank whose check agrees with its contents (R183): a generation number and a whole image. A bank that is blank, torn
or failing its check is `none` where a bank is optional. -/
structure Bank where
  generation : BitVec 16
  image : Image
deriving DecidableEq, Repr

/-! ## Free values -/

/-- DESIGN CHOICE (log 4). R183 says that a SAVE cut short leaves the bank being written "without a valid check or with its
older contents" and does not say which: this is the answer for the n-th such cut. It has no body, so nothing can be
proved of it: what is proved holds for either answer. -/
opaque Config.tornBankKeepsOld : Nat → Bool

end Sys2Proof
end

