-- ==== Sys2Proof/Syntax.lean ====
section
/-! DEFINITION. The commands: one constructor of `Instr` for each row of spec/opcode_table.json, with what the outside
hands over with it. Site requests carry the fields of their frame as 10.3 lays them out, in the wire's widths, so that a
value out of its range reaches the rule that refuses it. -/

namespace Sys2Proof

/-- The six receive sides that assemble GSL frames (R189): the feed ports, the site ports, ML and XL. -/
inductive LineId where
  | fa
  | fb
  | sa
  | sb
  | ml
  | xl
deriving DecidableEq, Repr

/-- The body of a site request whose frame passed its check: its fields under its tag, or a body that disagrees with its
form (R168 step 2, R190, R192; a body shorter than two bytes has tag 0). -/
inductive Request (α : Type) where
  | formed (tag : Tag) (fields : α)
  | malformed (tag : Tag)
deriving DecidableEq, Repr

/-- The tag that the answer repeats (R164). -/
def Request.tag {α : Type} : Request α → Tag
  | .formed t _ => t
  | .malformed t => t

/-- The five bytes of a time field (R190): station day, hh, mm, ss, ff. -/
structure TimeBytes where
  day : Byte
  hh : Byte
  mm : Byte
  ss : Byte
  ff : Byte
deriving DecidableEq, Repr

/-- EVENT (22h): channel, page, index. -/
structure EventReadFields where
  channel : Byte
  page : Byte
  index : BitVec 16
deriving DecidableEq, Repr

/-- RETURN (29h): channel, mode. -/
structure ReturnFields where
  channel : Byte
  mode : Byte
deriving DecidableEq, Repr

/-- ROUTE (2Ah): channel, source. -/
structure RouteFields where
  channel : Byte
  source : BitVec 16
deriving DecidableEq, Repr

/-- The items of a channel settings record (10.3), each present or not. -/
structure ChannelItems where
  enable : Option Byte
  policy : Option Byte
  destination : Option Byte
  mainSource : Option (BitVec 16)
  filler : Option (BitVec 16)
  addressA : Option Byte
  sourceA : Option (BitVec 16)
  addressB : Option Byte
  sourceB : Option (BitVec 16)
  cueLead : Option Byte
  minRemain : Option Byte
  threshold : Option (BitVec 16)
  absenceCount : Option Byte
  confirm : Option (BitVec 16)
  tallyPolarity : Option Byte
deriving DecidableEq, Repr

/-- CONFIGURE CHANNEL (2Ch): channel, channel settings record. -/
structure ConfigureChannelFields where
  channel : Byte
  items : ChannelItems
deriving DecidableEq, Repr

/-- CONFIGURE CADENCE (2Dh): each item optional. -/
structure CadenceItems where
  format : Option Byte
  swFirst : Option Byte
  swLast : Option Byte
  manualLock : Option Byte
deriving DecidableEq, Repr

/-- CONFIGURE PORTS (2Eh): each item optional. -/
structure PortItems where
  hbTimeout : Option (BitVec 16)
  feedDelay : Option Byte
  siteTimeout : Option (BitVec 16)
  replyTimeout : Option Byte
deriving DecidableEq, Repr

/-- CONFIGURE SCAN (2Fh): each item optional. -/
structure ScanItems where
  resolution : Option Byte
  mode : Option Byte
  sweepRepeat : Option Byte
  mask : Option (BitVec 16)
deriving DecidableEq, Repr

/-- FEED ENABLE (32h): port, setting. -/
structure FeedEnableFields where
  port : Byte
  setting : Byte
deriving DecidableEq, Repr

/-- One name of CLEAR FLAGS (34h): kind number and channel byte (FFh device kind, FEh ALL-CHANNELS). -/
structure FlagName where
  kind : Byte
  channel : Byte
deriving DecidableEq, Repr

/-- SET ALARM MASK (36h): mask, ALM polarity optional. -/
structure AlarmMaskFields where
  mask : BitVec 32
  polarity : Option Byte
deriving DecidableEq, Repr

/-- The commands of the part: the rows of spec/opcode_table.json, in the table's order. -/
inductive Instr where
  /-- POWER_ON_RESET (R186). -/
  | powerOnReset
  /-- NRST_ACCEPTED (R187). -/
  | nrstAccepted
  /-- RESET_END (R186, R187). -/
  | resetEnd
  /-- REF_LINE_PULSE (R1): a line pulse without a frame pulse. -/
  | refLinePulse
  /-- REF_FRAME_PULSE (R1, R3): a frame pulse with its line pulse. -/
  | refFramePulse
  /-- LINE_SILENCE (R1). -/
  | lineSilence
  /-- MISSING_FRAME_PULSE (R1). -/
  | missingFramePulse
  /-- RE_PHASING (R6) at the end of line L: the line periods from that instant to the next in-place frame pulse. -/
  | rePhasing (distance : Nat)
  /-- FRAME_START (R2), with the level of TKEY sampled at it (R111): true for asserted. -/
  | frameStart (tkey : Bool)
  /-- SWITCH_WINDOW_EVENT (R8). -/
  | switchWindowEvent
  /-- LOCAL_FRAME_WRAP (R15). -/
  | localFrameWrap
  /-- TURN_RECORD_EXPIRY (R14). -/
  | turnRecordExpiry
  /-- FEED_FRAME_COMPLETION (R68): the port, and the frame's type, body and check as received. -/
  | feedFrameCompletion (port : FeedPort) (frameType : Byte) (body : List Byte) (check : BitVec 16)
  /-- PARTIAL_FRAME_ABANDON (R189). -/
  | partialFrameAbandon (line : LineId)
  /-- LIST_BEGIN (R49): RPE takes the frame whose turn it is, a LIST BEGIN. -/
  | listBegin
  /-- EVENT (R50): RPE takes an EVENT frame. -/
  | event
  /-- LIST_END (R52): RPE takes a LIST END frame. -/
  | listEnd
  /-- LIST_ABORT (R51): RPE takes a LIST ABORT frame. -/
  | listAbort
  /-- INSERT_AFTER (R61): RPE takes an EDIT frame with operation INSERT AFTER. -/
  | insertAfter
  /-- REPLACE (R61): RPE takes an EDIT frame with operation REPLACE. -/
  | replace
  /-- DELETE (R61): RPE takes an EDIT frame with operation DELETE. -/
  | delete
  /-- FLIP (R57): RPE takes a FLIP frame. -/
  | flip
  /-- HEARTBEAT (R82): RPE takes a HEARTBEAT. -/
  | heartbeat
  /-- COMMIT_START (R53). -/
  | commitStart
  /-- COMMIT_END (R55, R56). -/
  | commitEnd
  /-- EDIT_COMPLETE (R64). -/
  | editComplete
  /-- FLIP_PERFORM (R58). -/
  | flipPerform (c : Channel)
  /-- REPORT_TIMER_EXPIRY (R86). -/
  | reportTimerExpiry
  /-- REPORT_TRANSMIT_END (R88). -/
  | reportTransmitEnd (port : FeedPort)
  /-- FEED_ENABLE (R74). -/
  | feedEnable (port : SitePort) (r : Request FeedEnableFields)
  /-- FEED_WATCH_EXPIRY (R91). -/
  | feedWatchExpiry (port : FeedPort)
  /-- PRESENCE_PULSE (R95): the channel's PR input, and the number of the line of the frame in which the pulse's leading
  edge falls. -/
  | presencePulse (c : Channel) (line : Nat)
  /-- WINDOW_END (R100). -/
  | windowEnd
  /-- SWEEP_START (R97). -/
  | sweepStart
  /-- CONFIRM_EXPIRY (R108). -/
  | confirmExpiry (c : Channel)
  /-- KEY_LEVEL_ACCEPTED (R111). -/
  | keyLevelAccepted
  /-- GO_TO_AIR (R123). -/
  | goToAir (c : Channel)
  /-- RETURN_COMPLETE (R135). -/
  | returnComplete (c : Channel)
  /-- SEGMENT_START (R147). -/
  | segmentStart (c : Channel)
  /-- CUE_TAKE (R151). -/
  | cueTake
  /-- CUE_SEND_END (R151). -/
  | cueSendEnd
  /-- CUE_REPLY (R152, R195): the address byte and the result byte of a reply whose check passed. -/
  | cueReply (address : Byte) (result : Byte)
  /-- CUE_REPLY_TIMEOUT (R152). -/
  | cueReplyTimeout
  /-- CROSSPOINT_ISSUE (R157). -/
  | crosspointIssue
  /-- CROSSPOINT_ACK (R158, R195): destination, source and result bytes of an acknowledgement whose check passed. -/
  | crosspointAck (destination : Byte) (source : Byte) (result : Byte)
  /-- CROSSPOINT_ACK_TIMEOUT (R158) on a router destination. -/
  | crosspointAckTimeout (destination : Fin 64)
  /-- SITE_FRAME_CHECK_FAIL (R164). -/
  | siteFrameCheckFail (port : SitePort)
  /-- SITE_SILENCE_EXPIRY (R166). -/
  | siteSilenceExpiry (port : SitePort)
  /-- ANSWER_TRANSMIT_BEGIN (R165). -/
  | answerTransmitBegin (port : SitePort)
  /-- NOTICE_TRANSMIT_BEGIN (R177). -/
  | noticeTransmitBegin (port : SitePort)
  /-- SITE_TRANSMIT_END (R165). -/
  | siteTransmitEnd (port : SitePort)
  /-- UNKNOWN_REQUEST (R168, R192): a valid frame whose code is not a request; a body shorter than two bytes has tag 0. -/
  | unknownRequest (port : SitePort) (code : Byte) (tag : Tag)
  /-- STATUS (20h, R169). -/
  | status (port : SitePort) (r : Request Unit)
  /-- CHANNEL (21h, R169). -/
  | channel (port : SitePort) (r : Request Byte)
  /-- EVENT_READ: the EVENT request (22h, R66). -/
  | eventRead (port : SitePort) (r : Request EventReadFields)
  /-- CLOCK (23h, R169). -/
  | clock (port : SitePort) (r : Request Unit)
  /-- FLAGS (24h, R169). -/
  | flags (port : SitePort) (r : Request Unit)
  /-- TAKE (25h, R119) for one channel. -/
  | take (port : SitePort) (r : Request Byte)
  /-- TAKE_ALL (R120): TAKE with channel byte FFh. -/
  | takeAll (port : SitePort) (tag : Tag)
  /-- CANCEL (26h, R125). -/
  | cancel (port : SitePort) (r : Request Byte)
  /-- HOLD (27h, R128). -/
  | hold (port : SitePort) (r : Request Byte)
  /-- RELEASE (28h, R131). -/
  | release (port : SitePort) (r : Request Byte)
  /-- RETURN (29h, R133). -/
  | returnToMain (port : SitePort) (r : Request ReturnFields)
  /-- ROUTE (2Ah, R130). -/
  | route (port : SitePort) (r : Request RouteFields)
  /-- SET_TIME (2Bh, R20). -/
  | setTime (port : SitePort) (r : Request TimeBytes)
  /-- CONFIGURE_CHANNEL (2Ch, R181). -/
  | configureChannel (port : SitePort) (r : Request ConfigureChannelFields)
  /-- CONFIGURE_CADENCE (2Dh, R10). -/
  | configureCadence (port : SitePort) (r : Request CadenceItems)
  /-- CONFIGURE_PORTS (2Eh, R170). -/
  | configurePorts (port : SitePort) (r : Request PortItems)
  /-- CONFIGURE_SCAN (2Fh, R96). -/
  | configureScan (port : SitePort) (r : Request ScanItems)
  /-- SCAN_START (30h, R97). -/
  | scanStart (port : SitePort) (r : Request Unit)
  /-- SCAN_STOP (31h, R103). -/
  | scanStop (port : SitePort) (r : Request Unit)
  /-- CLEAR_CHANNEL (33h, R138). -/
  | clearChannel (port : SitePort) (r : Request Byte)
  /-- CLEAR_FLAGS (34h, R173): the names; an empty list (count 0) names ALL. -/
  | clearFlags (port : SitePort) (r : Request (List FlagName))
  /-- SET_NOTICE_MASK (35h, R174). -/
  | setNoticeMask (port : SitePort) (r : Request (BitVec 32))
  /-- SET_ALARM_MASK (36h, R178). -/
  | setAlarmMask (port : SitePort) (r : Request AlarmMaskFields)
  /-- SAVE (37h, R182). -/
  | save (port : SitePort) (r : Request Unit)
  /-- SAVE_COMPLETE (R183), with what the written bank reads back as. -/
  | saveComplete (readBack : Option Bank)
  /-- KEEPALIVE (38h, R170). -/
  | keepalive (port : SitePort) (r : Request Unit)
deriving DecidableEq, Repr

end Sys2Proof
end

