-- ==== Sys2Proof/WellFormed.lean ====
section
/-! DEFINITION. Which commands are well formed: the operands that the part's lines and pins can hand over. The meanings are
total and do not ask for this; statements about encodings do. -/

namespace Sys2Proof

/-- A feed frame's body fits the envelope's length field (R189: 0 to 512). -/
def bodyFits (body : List Byte) : Bool := body.length ≤ 512

/-- A request code of 10.3: 20h to 38h (R192). -/
def isRequestCode (code : Byte) : Bool := 0x20#8 ≤ code && code ≤ 0x38#8

/-- The channel byte of a TAKE that is not TAKE ALL (10.3: FFh for ALL). -/
def takeNamesOne : Request Byte → Bool
  | .formed _ ch => ch != 0xFF#8
  | .malformed _ => true

/-- CLEAR FLAGS has a tag, a count and two bytes for each name in a body of at most 512 bytes (R189, R190, 10.3). -/
def namesFit : Request (List FlagName) → Bool
  | .formed _ names => names.length ≤ 254
  | .malformed _ => true

/-- A line number that a frame can have: 1 to L, or to L + ⌊L/2⌋ in a stretched frame, at most 937 (R6). -/
def lineExists (line : Nat) : Bool := 1 ≤ line && line ≤ 937

/-- The next in-place frame pulse comes less than one frame of lines after a frame end (R6): at most 624 periods. -/
def distanceExists (d : Nat) : Bool := d ≤ 624

/-- The commands that the part can receive. -/
def Instr.wellFormed : Instr → Bool
  | .rePhasing d => distanceExists d
  | .feedFrameCompletion _ _ body _ => bodyFits body
  | .presencePulse _ line => lineExists line
  | .unknownRequest _ code _ => !isRequestCode code
  | .take _ r => takeNamesOne r
  | .clearFlags _ r => namesFit r
  | .powerOnReset => true
  | .nrstAccepted => true
  | .resetEnd => true
  | .refLinePulse => true
  | .refFramePulse => true
  | .lineSilence => true
  | .missingFramePulse => true
  | .frameStart _ => true
  | .switchWindowEvent => true
  | .localFrameWrap => true
  | .turnRecordExpiry => true
  | .partialFrameAbandon _ => true
  | .listBegin => true
  | .event => true
  | .listEnd => true
  | .listAbort => true
  | .insertAfter => true
  | .replace => true
  | .delete => true
  | .flip => true
  | .heartbeat => true
  | .commitStart => true
  | .commitEnd => true
  | .editComplete => true
  | .flipPerform _ => true
  | .reportTimerExpiry => true
  | .reportTransmitEnd _ => true
  | .feedEnable _ _ => true
  | .feedWatchExpiry _ => true
  | .windowEnd => true
  | .sweepStart => true
  | .confirmExpiry _ => true
  | .keyLevelAccepted => true
  | .goToAir _ => true
  | .returnComplete _ => true
  | .segmentStart _ => true
  | .cueTake => true
  | .cueSendEnd => true
  | .cueReply _ _ => true
  | .cueReplyTimeout => true
  | .crosspointIssue => true
  | .crosspointAck _ _ _ => true
  | .crosspointAckTimeout _ => true
  | .siteFrameCheckFail _ => true
  | .siteSilenceExpiry _ => true
  | .answerTransmitBegin _ => true
  | .noticeTransmitBegin _ => true
  | .siteTransmitEnd _ => true
  | .status _ _ => true
  | .channel _ _ => true
  | .eventRead _ _ => true
  | .clock _ _ => true
  | .flags _ _ => true
  | .takeAll _ _ => true
  | .cancel _ _ => true
  | .hold _ _ => true
  | .release _ _ => true
  | .returnToMain _ _ => true
  | .route _ _ => true
  | .setTime _ _ => true
  | .configureChannel _ _ => true
  | .configureCadence _ _ => true
  | .configurePorts _ _ => true
  | .configureScan _ _ => true
  | .scanStart _ _ => true
  | .scanStop _ _ => true
  | .clearChannel _ _ => true
  | .setNoticeMask _ _ => true
  | .setAlarmMask _ _ => true
  | .save _ _ => true
  | .saveComplete _ => true
  | .keepalive _ _ => true

end Sys2Proof
end

