-- ==== Sys2Proof/Decode.lean ====
section
/-! DEFINITION. The words of the opcode table. The table gives no row any bits (98_reader.md: "n_rows_with_fixed": 0), so no
word spells a command. The byte formats of chapter 10, which do spell site requests and feed frames, are decoded in
Sys2Proof/Machine/Wire.lean. -/

namespace Sys2Proof

/-- The command that the table's bits of a word spell: none, since no row of the table gives bits. -/
def decodeTableWord (_nbits _w : Nat) : Option Instr := none

end Sys2Proof
end

