-- ==== Sys2Proof/Machine/Timecode.lean ====
section
/-! DEFINITION. The Timecode Arithmetic Unit without the join (chapter 2): the constants of the formats, timecode to station
frame (stage A), station frame to timecode (stage B), differences of frames (R30) and positions within a page (stage C). -/

namespace Sys2Proof.Machine

/-! ## Constants (00_scope.md "Video formats", 2.1) -/

/-- L, the lines per frame (1.1). -/
def lines : Format → Nat
  | .f25 => 625
  | .f30d => 525
  | .f30n => 525

/-- The timecode base. -/
def base : Format → Nat
  | .f25 => 25
  | .f30d => 30
  | .f30n => 30

/-- FPD, the frames per station day. -/
def fpd : Format → Nat
  | .f25 => 2160000
  | .f30d => 2589408
  | .f30n => 2592000

/-- WF, the frames per station week: 7 × FPD. -/
def wf (f : Format) : Nat := 7 * fpd f

/-- W = 2^32 mod WF (R15). -/
def wrapShift (f : Format) : Nat := 4294967296 % wf f

/-- The first line of the active gate (R9). -/
def gateFirst (linesPerFrame : Nat) : Nat := if linesPerFrame = 625 then 23 else 21

/-- The preset switch window of a format: SW_FIRST, SW_LAST (1.5). -/
def presetWindow : Format → Nat × Nat
  | .f25 => (7, 9)
  | .f30d => (10, 12)
  | .f30n => (10, 12)

/-- The format code of the settings and of heartbeats. -/
def formatCode : Format → Nat
  | .f25 => 0
  | .f30d => 1
  | .f30n => 2

/-- The format of a code, none outside 0 to 2. -/
def formatOf : Nat → Option Format
  | 0 => some .f25
  | 1 => some .f30d
  | 2 => some .f30n
  | _ => none

/-! ## Stage A: timecode to station frame (2.2) -/

/-- A station day and a timecode label hh:mm:ss:ff. -/
structure Label where
  day : Nat
  hh : Nat
  mm : Nat
  ss : Nat
  ff : Nat
deriving DecidableEq, Repr

/-- R23: each field in its range. -/
def labelInRange (f : Format) (t : Label) : Bool :=
  t.day ≤ 6 && t.hh ≤ 23 && t.mm ≤ 59 && t.ss ≤ 59 && t.ff < base f

/-- R26: in F30D a label with ss = 0 and ff 0 or 1 does not exist when mm mod 10 is not 0. -/
def labelAbsent (f : Format) (t : Label) : Bool :=
  f == .f30d && t.ss == 0 && t.ff < 2 && t.mm % 10 != 0

/-- R26: the label taken in place of one that does not exist, ff = 2 of the same second. -/
def adjustLabel (f : Format) (t : Label) : Label :=
  if labelAbsent f t then { t with ff := 2 } else t

/-- R25: the labels skipped before minute `m` of the day in F30D. -/
def skippedLabels (m : Nat) : Nat := 2 * (m - m / 10)

/-- The frame of the day of a label that exists (R24, R25). -/
def frameOfDay (f : Format) (t : Label) : Nat :=
  let count := (3600 * t.hh + 60 * t.mm + t.ss) * base f + t.ff
  match f with
  | .f30d => count - skippedLabels (60 * t.hh + t.mm)
  | .f25 => count
  | .f30n => count

/-- What stage A hands back: the station frame, the label it stands for, and the adjusted indication (R26). -/
structure StageA where
  frame : Nat
  label : Label
  adjusted : Bool
deriving DecidableEq, Repr

/-- Stage A (R23 to R27): none for BAD-TIME. -/
def stageA (f : Format) (t : Label) : Option StageA :=
  if labelInRange f t then
    let u := adjustLabel f t
    some { frame := u.day * fpd f + frameOfDay f u, label := u, adjusted := labelAbsent f t }
  else none

/-! ## Stage B: station frame to timecode (2.3) -/

/-- R29: the label count of a frame of the day in F30D, the skipped labels restored. -/
def labelCount (f : Format) (d : Nat) : Nat :=
  match f with
  | .f30d =>
    let block := d / 17982
    let r := d % 17982
    if r < 2 then d + 18 * block else d + 18 * block + 2 * ((r - 2) / 1798)
  | .f25 => d
  | .f30n => d

/-- Stage B (R28, R29). -/
def stageB (f : Format) (s : Nat) : Label :=
  let g := labelCount f (s % fpd f)
  let t := g / base f
  { day := s / fpd f, hh := t / 3600, mm := t / 60 % 60, ss := t % 60, ff := g % base f }

/-! ## Differences of frames (2.4) -/

/-- R30: the difference a − b of two station frames, 0 to WF − 1. -/
def stationDiff (f : Format) (a b : Nat) : Nat := (a % wf f + wf f - b % wf f) % wf f

/-- R30: the signed difference of two station frames, in −WF/2 + 1 … +WF/2. -/
def stationSigned (f : Format) (a b : Nat) : Int :=
  if stationDiff f a b ≤ wf f / 2 then (stationDiff f a b : Int) else (stationDiff f a b : Int) - (wf f : Int)

/-- R30: station frame a is at or after b. -/
def stationAtOrAfter (f : Format) (a b : Nat) : Bool := stationDiff f a b ≤ wf f / 2

/-- R30: the difference a − b of two local frames, modulo 2^32. -/
def frameDiff (a b : LocalFrame) : Nat := (a - b).toNat

/-- R30: local frame a is at or after b. -/
def atOrAfter (a b : LocalFrame) : Bool := frameDiff a b ≤ 2147483648

/-- R30: local frame a is before b. -/
def before (a b : LocalFrame) : Bool := !atOrAfter a b

/-! ## Stage C: positions within a page (2.5) -/

/-- R27: the page base of a base day. -/
def pageBase (f : Format) (baseDay : Nat) : Nat := baseDay * fpd f

/-- R31: the relative frame of a station frame in a page of base `b`. -/
def relativeFrame (f : Format) (x b : Nat) : Nat := stationDiff f x b

/-- R31: OUT-OF-SPAN. -/
def outOfSpan (f : Format) (rel : Nat) : Bool := 3 * fpd f ≤ rel

/-- R32: a duration is 1 … FPD frames. -/
def durationInRange (f : Format) (d : Nat) : Bool := 1 ≤ d && d ≤ fpd f

/-- The three ranges of a relative frame that is tested against a page (R33). -/
inductive Reach where
  | within
  | afterPage
  | beforeBase
deriving DecidableEq, Repr

/-- R33. -/
def reach (f : Format) (p : Nat) : Reach :=
  if p < 4 * fpd f then .within else if p < 6 * fpd f then .afterPage else .beforeBase

end Sys2Proof.Machine
end

