-- ==== Sys2Proof/Machine/Settings.lean ====
section
/-! DEFINITION. The ranges of the settings (R171, R180, R181, R194), their clamping, the factory defaults (R185), and which
stored bank is valid and newer (R184). -/

namespace Sys2Proof.Machine

/-- R171: a timing-type value is clamped to the nearer end of its range. -/
def clamp (lo hi x : Nat) : Nat := if x < lo then lo else if hi < x then hi else x

/-! ## Ranges -/

/-- Every setting of a channel within its range, and its players at two addresses (R181, R184). -/
def channelSettingsValid (c : ChannelSettings) : Bool :=
  c.destination ≤ 63 && c.mainSource ≤ 255 && (match c.filler with | none => true | some s => s ≤ 255)
    && 1 ≤ c.players.a.address && c.players.a.address ≤ 31 && c.players.a.source ≤ 255
    && 1 ≤ c.players.b.address && c.players.b.address ≤ 31 && c.players.b.source ≤ 255
    && c.players.a.address != c.players.b.address
    && 2 ≤ c.cueLead && c.cueLead ≤ 250 && c.minRemain ≤ 250 && c.threshold ≤ 65535
    && 1 ≤ c.absenceCount && c.absenceCount ≤ 8 && 25 ≤ c.confirm && c.confirm ≤ 3000

/-- Kind numbers run from 1 to 29: bits 0, 30 and 31 of a mask are clear (R178, R192). -/
def kindMaskValid (m : BitVec 32) : Bool := m &&& 0xC0000001#32 == 0#32

/-- Every setting of an image within its range, and the window in order (R184). -/
def settingsValid (s : Settings) : Bool :=
  2 ≤ s.swFirst && s.swLast ≤ 20 && s.swFirst ≤ s.swLast
    && 9 ≤ s.scanResolution && s.scanResolution ≤ 16
    && 10 ≤ s.hbTimeout && s.hbTimeout ≤ 1000 && s.feedDelay ≤ 15
    && 25 ≤ s.siteTimeout && s.siteTimeout ≤ 1500 && 1 ≤ s.replyTimeout && s.replyTimeout ≤ 8
    && kindMaskValid s.alarmMask
    && s.channel.list.all channelSettingsValid

/-! ## The stored image (R180, R194) -/

/-- Policies (10.3). -/
def Policy.code : Policy → Nat
  | .auto => 0
  | .manual => 1
  | .never => 2

/-- Polarities (10.3). -/
def Polarity.code : Polarity → Nat
  | .activeHigh => 0
  | .activeLow => 1

/-- The policy of a code (10.3). -/
def policyOf (b : Byte) : Policy := if b = 0 then .auto else if b = 1 then .manual else .never

/-- The polarity of a code (10.3). -/
def polarityOf (b : Byte) : Polarity := if b = 0 then .activeHigh else .activeLow

/-- The filler source of a field, FFFFh for none (10.3). -/
def fillerOf (w : BitVec 16) : Option Nat := if w = 0xFFFF then none else some w.toNat

/-- R194: a channel's settings in the widths of the channel settings record. -/
def storeChannel (k : ChannelSettings) : StoredChannel where
  enable := if k.enabled then 1 else 0
  policy := BitVec.ofNat 8 (Policy.code k.policy)
  destination := BitVec.ofNat 8 k.destination
  mainSource := BitVec.ofNat 16 k.mainSource
  filler := match k.filler with | some x => BitVec.ofNat 16 x | none => 0xFFFF
  addressA := BitVec.ofNat 8 k.players.a.address
  sourceA := BitVec.ofNat 16 k.players.a.source
  addressB := BitVec.ofNat 8 k.players.b.address
  sourceB := BitVec.ofNat 16 k.players.b.source
  cueLead := BitVec.ofNat 8 k.cueLead
  minRemain := BitVec.ofNat 8 k.minRemain
  threshold := BitVec.ofNat 16 k.threshold
  absenceCount := BitVec.ofNat 8 k.absenceCount
  confirm := BitVec.ofNat 16 k.confirm
  tallyPolarity := BitVec.ofNat 8 (Polarity.code k.tallyPolarity)

/-- A channel's settings from the stored record. -/
def loadChannel (r : StoredChannel) : ChannelSettings where
  enabled := r.enable == 1
  policy := policyOf r.policy
  destination := r.destination.toNat
  mainSource := r.mainSource.toNat
  filler := fillerOf r.filler
  players := ⟨⟨r.addressA.toNat, r.sourceA.toNat⟩, ⟨r.addressB.toNat, r.sourceB.toNat⟩⟩
  cueLead := r.cueLead.toNat
  minRemain := r.minRemain.toNat
  threshold := r.threshold.toNat
  absenceCount := r.absenceCount.toNat
  confirm := r.confirm.toNat
  tallyPolarity := polarityOf r.tallyPolarity

/-- Every code of a stored record is a value of its table (R194). -/
def storedCodesValid (r : StoredChannel) : Bool := r.enable ≤ 1 && r.policy ≤ 2 && r.tallyPolarity ≤ 1

/-- The settings over another kind of channel's settings. -/
def imageMap {α β : Type} (f : α → β) (s : SettingsOf α) : SettingsOf β :=
  ⟨s.format, s.swFirst, s.swLast, s.scanResolution, s.scanMode, s.scanRepeat, s.scanMask, s.hbTimeout, s.feedDelay, s.siteTimeout,
    s.replyTimeout, s.almPolarity, s.alarmMask, PerChannel.build fun c => f s.channel[c]⟩

/-- The image that a SAVE stores (R180, R194). -/
def storeImage (s : Settings) : Image := imageMap storeChannel s

/-- The settings that an image holds. -/
def loadImage (g : Image) : Settings := imageMap loadChannel g

/-- R184: every setting of a stored image lies within its range. -/
def imageValid (g : Image) : Bool := g.channel.list.all storedCodesValid && settingsValid (loadImage g)

/-! ## Factory defaults (R185) -/

/-- The factory defaults of channel c. -/
def factoryChannel (c : Channel) : ChannelSettings where
  enabled := false
  policy := .manual
  destination := c.val
  mainSource := c.val
  filler := none
  players := ⟨⟨c.val + 1, 64 + 2 * c.val⟩, ⟨c.val + 13, 65 + 2 * c.val⟩⟩
  cueLead := 10
  minRemain := 50
  threshold := 64
  absenceCount := 3
  confirm := 125
  tallyPolarity := .activeHigh

/-- The factory image. -/
def factorySettings : Settings where
  format := .f25
  swFirst := 7
  swLast := 9
  scanResolution := 12
  scanMode := .parallel
  scanRepeat := true
  scanMask := 0#12
  hbTimeout := 50
  feedDelay := 2
  siteTimeout := 250
  replyTimeout := 3
  almPolarity := .activeLow
  alarmMask := 0#32
  channel := PerChannel.build factoryChannel

/-! ## Banks (R184) -/

/-- R184: a bank is valid when its check agrees with its contents and every setting in it lies within its range. -/
def validBank (b : Option Bank) : Option Bank :=
  match b with
  | some k => if imageValid k.image then some k else none
  | none => none

/-- R184: bank x is newer than bank y when (x − y) mod 65536 lies in 1…32767. -/
def newer (x y : Bank) : Bool :=
  1 ≤ (x.generation - y.generation).toNat && (x.generation - y.generation).toNat ≤ 32767

/-- The bank that a reset loads, by number and with its contents; none when neither is valid (R184). -/
def chooseBank (banks : PerSide (Option Bank)) : Option (BankId × Bank) :=
  match validBank banks.a, validBank banks.b with
  | some x, some y => if newer y x then some (.B, y) else some (.A, x)
  | some x, none => some (.A, x)
  | none, some y => some (.B, y)
  | none, none => none

end Sys2Proof.Machine
end

