-- ==== Sys2Proof/Machine/State.lean ====
section
/-! DEFINITION. The state of the GJ1240, block by block (00_scope.md, "Block overview"), the reasons a step could stop, and the
state right after reset. Every field is plain data. A field that the spec does not name but the model needs (an instant
that is being taken, a due mark) says so. -/

namespace Sys2Proof.Machine

/-! ## Stops -/

/-- Why the part could stop. The spec names no way for the part to stop, and no meaning raises a fault. -/
inductive Fault where
  /-- Raised by no command. It stands so that the type is not empty. Safe. -/
  | neverRaised
deriving DecidableEq, Repr

/-- Why a command could have no meaning. -/
inductive Refusal where
  /-- Raised by no command: every row of the opcode table has its meaning. Safe. -/
  | notModelled (mnemonic : String)
deriving DecidableEq, Repr

/-! ## Cadence Unit (chapter 1) -/

/-- The reference state (1.2), in the manual's order. -/
inductive RefState where
  | acquiring
  | locked
  | freerun
deriving DecidableEq, Repr

/-- The phase state (R6). -/
inductive Phase where
  | aligned
  | pending
deriving DecidableEq, Repr

/-- The re-phasing that a frame is under (R6): it is being stretched, the next frame is to be cut, or it is being cut. -/
inductive Adjust where
  | none
  | stretching
  | cutNext
  | cutting
deriving DecidableEq, Repr

/-- The values a frame begins with and keeps (R10): the format in force, SW_FIRST, SW_LAST. -/
structure FrameTiming where
  format : Format
  swFirst : Nat
  swLast : Nat
deriving DecidableEq, Repr

/-- L of the frame (1.1). -/
def FrameTiming.lines (t : FrameTiming) : Nat := Machine.lines t.format

/-- The Cadence Unit's state (R1 to R13). -/
structure Cdu where
  /-- The local frame count (R2). -/
  now : LocalFrame
  /-- The line of the internal timing in progress, from 1 (R2). -/
  line : Nat
  /-- The values of the frame in progress (R10). -/
  frame : FrameTiming
  refState : RefState
  /-- The qualifying count, 0 to 25 (R3). -/
  qualifying : Nat
  /-- The reference line number; none while it is undefined and there is no previous frame pulse (R1). -/
  refLine : Option Nat
  /-- Nominal line periods without a line pulse (R1); 17 once the line silence has been taken. -/
  silentLines : Nat
  phase : Phase
  adjust : Adjust
  /-- R7: no channel was ARMED or RETURNING at the start of the frame in progress. -/
  quietStart : Bool
  /-- The manual cadence lock (1.5). -/
  manualLock : Bool
  /-- The switch-window event of the frame in progress has happened (R8). -/
  windowOpened : Bool
  /-- The model's: the switch-window event is being taken by the blocks, until the next line. -/
  windowEvent : Bool
  /-- The model's: the frame in progress has ended and the next frame start is due. -/
  frameDue : Bool
  /-- The model's: line L of the frame has ended and R6 is to decide. -/
  rephaseDue : Bool
  /-- The model's: the count has wrapped and R15 is due. -/
  wrapDue : Bool
deriving DecidableEq, Repr

/-! ## Station Clock (R14) -/

/-- The offset state, in R14's order. -/
inductive OffsetState where
  | unset
  | locked
  | holdover
  | set
deriving DecidableEq, Repr

/-- A slew direction (R14). -/
inductive SlewDir where
  | up
  | down
deriving DecidableEq, Repr

/-- The Station Clock's state (R14). -/
structure Stc where
  /-- O. -/
  offset : Nat
  state : OffsetState
  slew : Option SlewDir
  /-- The turn record. -/
  turn : Option LocalFrame
  /-- The step candidate count, 0 to 3. -/
  candidates : Nat
  /-- The measured offset of the last candidate. -/
  lastCandidate : Option Nat
deriving DecidableEq, Repr

/-! ## Schedule Store (chapter 3) -/

/-- How an event starts (3.1): at a stated time, kept as its label and its relative frame, or at the end of the one before. -/
inductive StartMode where
  | hard (label : Label) (rel : Nat)
  | follow
deriving DecidableEq, Repr

/-- What an event is (3.1). -/
inductive EventKind where
  | clip (clipId : List Byte) (trim : Nat)
  | live (source : Nat)
  | fill
deriving DecidableEq, Repr

/-- The join policy (3.1). -/
inductive JoinPolicy where
  | join
  | noJoin
deriving DecidableEq, Repr

/-- What a commit or an edit resolves for an event (R44): effective start (a relative frame), effective duration, TRUNCATED. -/
structure Resolution where
  start : Nat
  dur : Nat
  truncated : Bool
deriving DecidableEq, Repr

/-- An event record as the store keeps it (3.1, R44): the content of one pool slot. -/
structure Event where
  id : EventId
  start : StartMode
  duration : Nat
  kind : EventKind
  policy : JoinPolicy
  adjusted : Bool
  res : Option Resolution
deriving DecidableEq, Repr

/-- An ACTIVE active page (R46). -/
structure Page where
  baseDay : Nat
  serial : BitVec 16
  events : List Event
  dropped : Nat
  behind : Bool
  diverged : Bool
deriving DecidableEq, Repr

/-- A LOADING or COMMITTING next page (R47); `broken` is clear in COMMITTING. -/
structure LoadPage where
  baseDay : Nat
  serial : BitVec 16
  declared : Nat
  events : List Event
  broken : Bool
  /-- The pending flip, a station frame (R57). -/
  flip : Option Nat
deriving DecidableEq, Repr

/-- A READY next page (R47). -/
structure ReadyPage where
  baseDay : Nat
  serial : BitVec 16
  events : List Event
  dropped : Nat
  flip : Option Nat
deriving DecidableEq, Repr

/-- The next page of a channel (R47). -/
inductive NextPage where
  | empty
  | loading (p : LoadPage)
  | committing (p : LoadPage)
  | ready (p : ReadyPage)
deriving DecidableEq, Repr

/-- The pages of a channel: the active page, none for EMPTY (R46), and the next page (R47). -/
structure Pages where
  active : Option Page
  next : NextPage
deriving DecidableEq, Repr

/-- An event record as a feed frame carries it (10.2). -/
structure EventRecord where
  id : EventId
  startMode : Byte
  kind : Byte
  policy : Byte
  duration : BitVec 32
  start : Option TimeBytes
  trim : Option (BitVec 24)
  live : Option Byte
  clipId : List Byte
deriving DecidableEq, Repr

/-- An edit of the active page (3.7). -/
inductive EditOp where
  | insertAfter (ref : EventId) (r : EventRecord)
  | replace (id : EventId) (r : EventRecord)
  | delete (id : EventId)
deriving DecidableEq, Repr

/-- What occupies the commit engine (R53, R64), with the frame starts that remain. -/
inductive Engine where
  | idle
  | committing (c : Channel) (left : Nat)
  | editing (c : Channel) (op : EditOp) (left : Nat)
deriving DecidableEq, Repr

/-- The Schedule Store's state. The pool (R45) holds the events of these pages and nothing else. -/
structure Sst where
  pages : PerChannel Pages
  engine : Engine
  /-- The commit queue (3.5). -/
  queue : List Channel
  /-- The model's: this frame start found the commit queue not empty, and a commit may begin at it (R53). -/
  startDue : Bool
deriving DecidableEq, Repr

/-! ## Replication Engine (chapter 4) -/

/-- The main site's air report on a channel (4.5). -/
inductive AirReport where
  | ok
  | fault
  | off
deriving DecidableEq, Repr

/-- What a heartbeat says of one channel (4.5). -/
structure HeartbeatItem where
  air : AirReport
  resumeReady : Bool
  onAir : EventId
deriving DecidableEq, Repr

/-- A HEARTBEAT (4.5). -/
structure Heartbeat where
  stamp : BitVec 32
  format : Byte
  items : PerChannel HeartbeatItem
deriving DecidableEq, Repr

/-- What a replication frame carries after its channel and sequence number (10.2). -/
inductive FeedBody where
  | listBegin (serial : BitVec 16) (baseDay : Byte) (declared : BitVec 16)
  | event (r : EventRecord)
  | listEnd (serial : BitVec 16) (count : BitVec 16)
  | listAbort
  | edit (op : EditOp)
  | flip (time : TimeBytes)
deriving DecidableEq, Repr

/-- A frame that passed its check on a feed port (R69). -/
inductive FeedFrame where
  | replication (c : Channel) (seq : SeqNo) (body : FeedBody)
  | heartbeat (h : Heartbeat)
deriving DecidableEq, Repr

/-- A frame in a receive queue, with its arrival frame (R68). -/
structure QueuedFrame where
  arrival : LocalFrame
  frame : FeedFrame
deriving DecidableEq, Repr

/-- The five authorities (chapter 6), in the order of their codes (10.2). -/
inductive AuthorityName where
  | main
  | armed
  | standby
  | held
  | returning
deriving DecidableEq, Repr

/-- The next-page state of a STANDBY REPORT (R87). -/
inductive NextPageName where
  | empty
  | loading
  | loadingBroken
  | committing
  | ready
deriving DecidableEq, Repr

/-- What a STANDBY REPORT says of one channel (R87). -/
structure ReportItem where
  authority : AuthorityName
  onAir : EventId
  nextPage : NextPageName
  baseline : Option SeqNo
deriving DecidableEq, Repr

/-- A STANDBY REPORT (R87). -/
structure Report where
  commitBusy : Bool
  items : PerChannel ReportItem
deriving DecidableEq, Repr

/-- A feed port's transmit side (R88). -/
structure FeedTx where
  sending : Option Report
  waiting : Option Report
deriving DecidableEq, Repr

/-- A feed port: receive queue (R70), enable setting (R74), transmit side (R88). -/
structure FeedPortState where
  queue : List QueuedFrame
  enabled : Bool
  tx : FeedTx
deriving DecidableEq, Repr

/-- The Replication Engine's state (R90). -/
structure Rpe where
  port : PerSide FeedPortState
  turn : FeedPort
  baseline : PerChannel (Option SeqNo)
  /-- 25 down to 1; 0 when it has run out and its expiry is due (R86). -/
  reportTimer : Nat
deriving DecidableEq, Repr

/-! ## Supervision Unit (chapter 5) -/

/-- A feed watch timer and its port's state (R91). -/
structure Watch where
  live : Bool
  timer : Nat
deriving DecidableEq, Repr

/-- The presence state of a channel (R101). -/
inductive Presence where
  | unscanned
  | present
  | absent
deriving DecidableEq, Repr

/-- The health of a channel (5.3), in the order of its codes (10.3). -/
inductive Health where
  | unknown
  | good
  | suspect
  | isolated
  | off
  | failing
  | failed
deriving DecidableEq, Repr

/-- The run of agreeing samples (R101): none, or a value (true for PRESENT) and a count. -/
abbrev Run := Option (Bool × Nat)

/-- What SUP keeps of one channel (R94 to R110). -/
structure SupChannel where
  presence : Presence
  run : Run
  lastCount : Option Nat
  heard : Bool
  health : Health
  /-- The confirm timer's remaining count; it counts while the health is FAILING (R108). -/
  confirm : Nat
  latestAir : Option AirReport
  latestResume : Option Bool
deriving DecidableEq, Repr

/-- The presence scanner (5.2). -/
inductive Scan where
  | idle
  /-- SWEEPING, the first window to open at a frame start; `ready` is the model's: that frame start has come (R97, R102). -/
  | starting (ready : Bool)
  /-- SWEEPING in SEQUENTIAL mode with channel c's window open (R98): gated lines so far and the count. -/
  | sequential (c : Channel) (gated : Nat) (count : Nat)
  /-- SWEEPING in PARALLEL mode (R99): gated lines so far and the counts. -/
  | parallel (gated : Nat) (counts : PerChannel Nat)
deriving DecidableEq, Repr

/-- The takeover key filter (R111). -/
structure KeyFilter where
  asserted : Bool
  count : Nat
deriving DecidableEq, Repr

/-- The Supervision Unit's state. -/
structure Sup where
  watch : PerSide Watch
  scan : Scan
  channel : PerChannel SupChannel
  key : KeyFilter
deriving DecidableEq, Repr

/-! ## Authority Table (chapter 6) -/

/-- What a join or a plan puts on air (R43): a clip with its media point, a live source, or filler. -/
inductive SegContent where
  | clip (clipId : List Byte) (media : Nat)
  | live (source : Nat)
  | filler
deriving DecidableEq, Repr

/-- The cause of an arming (R113). -/
inductive Origin where
  | auto
  | site (p : SitePort)
  | key
  | lapse
deriving DecidableEq, Repr

/-- The join plan (R43, R113): the join result with the player of a clip segment. -/
structure JoinPlan where
  /-- jl. -/
  start : LocalFrame
  /-- js. -/
  station : Nat
  content : SegContent
  id : EventId
  /-- The first segment's end; none when the join is exhausted. -/
  stop : Option LocalFrame
  next : Option (EventId × LocalFrame)
  exhausted : Bool
  player : Option Player
deriving DecidableEq, Repr

/-- The kinds of an on-air segment (R113). -/
inductive AirKind where
  | clip
  | live
  | fill
  | gap
  | routed
deriving DecidableEq, Repr

/-- The on-air segment (R113). `start` is the model's: the frame at which it went on air. -/
structure OnAir where
  kind : AirKind
  id : EventId
  source : Option Nat
  player : Option Player
  stop : Option LocalFrame
  start : LocalFrame
deriving DecidableEq, Repr

/-- The return mode (R113). -/
inductive ReturnMode where
  | now
  | nextBoundary
deriving DecidableEq, Repr

/-- The prior state of a return, with the holder of a HELD one (R113, R133). -/
inductive Prior where
  | standby
  | held (holder : SitePort)
deriving DecidableEq, Repr

/-- An authority record (R113): each field is present only in the states that have it. -/
inductive Authority where
  | main
  | armed (origin : Origin) (plan : JoinPlan)
  | standby (air : OnAir)
  | held (holder : SitePort) (air : OnAir)
  | returning (prior : Prior) (mode : ReturnMode) (point : LocalFrame) (air : OnAir)
deriving DecidableEq, Repr

/-! ## Cue Scheduler (chapter 7) -/

/-- A player's state (R139). -/
inductive PlayerState where
  | idle
  | cued
  | onAir
deriving DecidableEq, Repr

/-- What a planned segment is (R144). -/
inductive PlannedContent where
  | clip (player : Player) (clipId : List Byte) (media : Nat)
  | live (source : Nat)
  | fill
  | gap
deriving DecidableEq, Repr

/-- A planned segment (R144). The state of its PLAY is where its entry stands: in the queue, in transaction, or ended. -/
structure Planned where
  content : PlannedContent
  id : EventId
  start : LocalFrame
  stop : Option LocalFrame
  /-- A crosspoint has been placed for it. -/
  placed : Bool
deriving DecidableEq, Repr

/-- What a cue entry asks (R141); `event` is the model's: the event of the PLAY's segment, for R63. -/
inductive CueAction where
  | play (clipId : List Byte) (media : Nat) (attempt : Nat) (event : EventId)
  | cancel
deriving DecidableEq, Repr

/-- A cue entry (R141). -/
structure CueEntry where
  channel : Channel
  player : Player
  address : Nat
  deadline : LocalFrame
  /-- jl. -/
  start : LocalFrame
  action : CueAction
deriving DecidableEq, Repr

/-- A message on ML (10.4). -/
inductive MlMessage where
  | play (address : Nat) (clipId : List Byte) (media : Nat) (startDelay : Nat)
  | cancel (address : Nat)
deriving DecidableEq, Repr

/-- How far an ML transaction is (R151, R152). -/
inductive TxnPhase where
  /-- Being sent; `ended` is the model's: the frame start at which the send ends has come. -/
  | sending (ended : Bool)
  /-- Awaiting a reply for so many more frame starts; 0 when the timeout is due. -/
  | awaiting (left : Nat)
deriving DecidableEq, Repr

/-- The ML transaction in progress (R151, R152). -/
structure Txn where
  entry : CueEntry
  withdrawn : Bool
  phase : TxnPhase
  /-- REPLY_TIMEOUT as it stood when the transaction began. -/
  replyTimeout : Nat
  /-- What is sent on ML. -/
  message : MlMessage
deriving DecidableEq, Repr

/-- What CUS keeps of one channel (R139, R144). -/
structure CueChannel where
  players : PerSide PlayerState
  lastClip : Option Player
  /-- The anchor: jl and rj of the channel's last join. -/
  anchor : Option (LocalFrame × Nat)
  planned : List Planned
  exhausted : Bool
  /-- The model's: a planned segment was started at the latest switch-window event, which is thus a segment boundary (R60). -/
  boundary : Bool
deriving DecidableEq, Repr

/-- The Cue Scheduler's state. The entry in transaction stands at the head, ahead of `queue` (R141). -/
structure Cus where
  queue : List CueEntry
  txn : Option Txn
  channel : PerChannel CueChannel
deriving DecidableEq, Repr

/-! ## Crosspoint Sequencer (7.5, 7.6) -/

/-- A pending crosspoint (R157). -/
structure Crosspoint where
  destination : Nat
  due : LocalFrame
  source : Nat
  channel : Channel
deriving DecidableEq, Repr

/-- An issued crosspoint awaiting its acknowledgement (R158), with the frame starts that remain. -/
structure Awaiting where
  destination : Nat
  source : Nat
  channel : Channel
  left : Nat
deriving DecidableEq, Repr

/-- The Crosspoint Sequencer's state (R163). -/
structure Xps where
  pending : List Crosspoint
  awaiting : List Awaiting
  /-- The last acknowledged source of each destination, none for unknown. -/
  lastAck : Vector (Option Nat) 64
  /-- TL0 to TL11 active (R160). -/
  tally : PerChannel Bool
  /-- ALM active (R161). -/
  alarm : Bool
  /-- XPS has taken the switch-window event of the frame in progress (R157). -/
  eventTaken : Bool
deriving DecidableEq, Repr

/-! ## Site Link Interface (chapter 8) -/

/-- The answers (8.4), in the order of their codes (10.3). -/
inductive AnswerCode where
  | done
  | clamped
  | busy
  | locked
  | notReady
  | heldElsewhere
  | conflict
  | noChannel
  | badValue
  | badTime
  | wrongState
  | unknownRequest
deriving DecidableEq, Repr

/-- An answer (10.3): tag, request code, answer code, and the bytes of the result, empty when refused. -/
structure Answer where
  tag : Tag
  request : Byte
  code : AnswerCode
  result : List Byte
deriving DecidableEq, Repr

/-- A notice (R177, 10.3). -/
structure Notice where
  kind : Nat
  channel : Option Channel
  value : Bool
  time : Option Label
  detail : Nat
deriving DecidableEq, Repr

/-- A frame that a site port sends (R165). -/
inductive SiteFrame where
  | answer (a : Answer)
  | notice (n : Notice)
deriving DecidableEq, Repr

/-- A pending pair (R175) with its class (R176). -/
structure PendingPair where
  kind : Nat
  channel : Option Channel
  urgent : Bool
deriving DecidableEq, Repr

/-- A site port's state (chapter 8). -/
structure SitePortState where
  live : Bool
  /-- The silence timer (R166). -/
  timer : Nat
  answers : List Answer
  sending : Option SiteFrame
  /-- The notice mask: bit k for kind k. -/
  mask : BitVec 32
  /-- The pending-notice set, in rising order of kind and channel. -/
  pairs : List PendingPair
deriving DecidableEq, Repr

/-- The fifteen device flags (8.5). -/
inductive DeviceFlag where
  | refLost
  | offsetStep
  | offsetWander
  | feedSilent (p : FeedPort)
  | feedOverrun (p : FeedPort)
  | feedCheck (p : FeedPort)
  | formatMismatch
  | poolFull
  | scanDone
  | keyTakeover
  | siteSilent (p : SitePort)
deriving DecidableEq, Repr

/-- The fourteen per-channel flags (8.5). -/
inductive ChannelFlag where
  | healthChange
  | authorityChange
  | takeoverBlocked
  | cueLate
  | cueFailed
  | routeUnconfirmed
  | replicaGap
  | diverged
  | editLocked
  | listRejected
  | flipMissed
  | listExhausted
  | returnAborted
  | holdLapsed
deriving DecidableEq, Repr

/-- The Site Link Interface's state (R179). -/
structure Sli where
  port : PerSide SitePortState
  /-- Device flags by kind number less 1. -/
  device : Vector Bool 15
  /-- Per-channel flags by kind number less 16. -/
  channel : PerChannel (Vector Bool 14)
deriving DecidableEq, Repr

/-! ## Settings Store (chapter 9) -/

/-- The outcome of the last SAVE since reset (R183). -/
inductive SaveOutcome where
  | none
  | complete
  | failed
deriving DecidableEq, Repr

/-- A SAVE that is running (R182, R183): the bank being written, what is written, the frame starts that remain. -/
structure SaveJob where
  bank : BankId
  content : Bank
  left : Nat
deriving DecidableEq, Repr

/-- The Settings Store's state. -/
structure Store where
  banks : PerSide (Option Bank)
  /-- The current bank; none while the part runs on factory defaults (R183). -/
  current : Option BankId
  defaulted : Bool
  save : Option SaveJob
  outcome : SaveOutcome
  /-- The NRST filter count, 0 to 16 (R187). -/
  nrstCount : Nat
deriving DecidableEq, Repr

/-! ## Lines and pins -/

/-- A receive stage (R189): waiting for an opening, or gathering the bytes after it. `fresh`: a byte has arrived since the
previous frame start. `stale` is the model's: a frame start has come without one, and the abandoning is due. -/
inductive RxStage where
  | waiting
  | gathering (bytes : List Byte) (fresh : Bool) (stale : Bool)
deriving DecidableEq, Repr

/-- The six receive stages. -/
structure RxStages where
  fa : RxStage
  fb : RxStage
  sa : RxStage
  sb : RxStage
  ml : RxStage
  xl : RxStage
deriving DecidableEq, Repr

/-- The input levels that the outside holds: TKEY and NRST asserted; and, the model's, the levels that NRST takes at the line starts to
come, the next first: past the last it stays as it is (log 2). -/
structure Pins where
  tkey : Bool
  nrst : Bool
  nrstLater : List Bool
deriving DecidableEq, Repr

/-- Whether the part runs or a reset holds it (R186). -/
inductive Power where
  | running
  | held
deriving DecidableEq, Repr

end Sys2Proof.Machine

namespace Sys2Proof.Machine

/-- The state of the part. -/
structure State where
  power : Power
  pins : Pins
  /-- The live settings (9.1). -/
  live : Settings
  cdu : Cdu
  stc : Stc
  sst : Sst
  rpe : Rpe
  sup : Sup
  aut : PerChannel Authority
  cus : Cus
  xps : Xps
  sli : Sli
  store : Store
  rx : RxStages
  /-- The model's: bytes still to arrive on the serial lines, the earliest first. -/
  incoming : List (LineId × Byte)
  /-- The model's: how many free values have been used. -/
  freeUsed : Nat
  /-- The commands that are waiting, first in, first out. -/
  pending : List Instr
deriving DecidableEq, Repr

/-! ## Reset values -/

/-- The values that a frame of the live settings begins with (R10). -/
def FrameTiming.ofSettings (s : Settings) : FrameTiming := ⟨s.format, s.swFirst, s.swLast⟩

/-- R13. -/
def Cdu.reset (s : Settings) : Cdu where
  now := 0
  line := 1
  frame := FrameTiming.ofSettings s
  refState := .acquiring
  qualifying := 0
  refLine := none
  silentLines := 0
  phase := .pending
  adjust := .none
  quietStart := true
  manualLock := false
  windowOpened := false
  windowEvent := false
  frameDue := false
  rephaseDue := false
  wrapDue := false

/-- R21. -/
def Stc.reset : Stc := ⟨0, .unset, none, none, 0, none⟩

/-- R67. -/
def Sst.reset : Sst := ⟨PerChannel.same ⟨none, .empty⟩, .idle, [], false⟩

/-- R90. -/
def Rpe.reset : Rpe := ⟨PerSide.same ⟨[], true, ⟨none, none⟩⟩, .A, PerChannel.same none, 25⟩

/-- R104, R110. -/
def SupChannel.reset : SupChannel := ⟨.unscanned, none, none, false, .unknown, 0, none, none⟩

/-- R94, R104, R110, R112. -/
def Sup.reset : Sup := ⟨PerSide.same ⟨false, 0⟩, .idle, PerChannel.same SupChannel.reset, ⟨false, 0⟩⟩

/-- R163. -/
def CueChannel.reset : CueChannel := ⟨PerSide.same .idle, none, none, [], false, false⟩

/-- R163. -/
def Cus.reset : Cus := ⟨[], none, PerChannel.same CueChannel.reset⟩

/-- R163. -/
def Xps.reset : Xps := ⟨[], [], Vector.replicate 64 none, PerChannel.same false, false, false⟩

/-- R179. -/
def SitePortState.reset : SitePortState := ⟨false, 0, [], none, 0, []⟩

/-- R179. -/
def Sli.reset : Sli := ⟨PerSide.same SitePortState.reset, Vector.replicate 15 false,
  PerChannel.same (Vector.replicate 14 false)⟩

/-- R90, R179: every receive stage waits for the opening of a frame. -/
def RxStages.reset : RxStages := ⟨.waiting, .waiting, .waiting, .waiting, .waiting, .waiting⟩

/-- R184: the live settings that a reset loads from the banks. -/
def loadedSettings (banks : PerSide (Option Bank)) : Settings :=
  match chooseBank banks with
  | some (_, b) => loadImage b.image
  | none => factorySettings

/-- R184, R183, R187: the Settings Store after a reset has loaded from the banks. -/
def Store.loaded (banks : PerSide (Option Bank)) : Store where
  banks := banks
  current := (chooseBank banks).map (fun k => k.1)
  defaulted := (chooseBank banks).isNone
  save := none
  outcome := .none
  nrstCount := 0

/-- Every block at its reset values over what the banks hold (R184, R186, R187). -/
def State.loaded (power : Power) (pins : Pins) (banks : PerSide (Option Bank)) : State where
  power := power
  pins := pins
  live := loadedSettings banks
  cdu := Cdu.reset (loadedSettings banks)
  stc := Stc.reset
  sst := Sst.reset
  rpe := Rpe.reset
  sup := Sup.reset
  aut := PerChannel.same .main
  cus := Cus.reset
  xps := Xps.reset
  sli := Sli.reset
  store := Store.loaded banks
  rx := RxStages.reset
  incoming := []
  freeUsed := 0
  pending := []

/-- The part right after a reset has ended. DESIGN CHOICE (log 5): neither bank holds anything valid, so the factory defaults
are loaded (R184, R185), and the input lines are released. -/
def State.reset : State := State.loaded .running ⟨false, false, []⟩ ⟨none, none⟩

end Sys2Proof.Machine
end

