-- ==== Sys2Proof/Machine/Ops.lean ====
section
/-! DEFINITION. Shared operations: reading and replacing one item of a block's state, the conditions that several chapters
name (Link, station now, the cadence lock, the switch window), and the STANDBY REPORT (4.6). -/

namespace Sys2Proof.Machine

/-! ## Running a command -/

/-- R186, R187: while a reset holds the part it assembles nothing and drives nothing, so a command changes nothing; otherwise
the command has its effect. -/
def whenRunning (s : State) (f : State → State) : Host.Outcome State Fault Refusal :=
  match s.power with
  | .running => .next (f s)
  | .held => .next s

/-! ## Reading -/

/-- The local frame in progress. -/
def State.now (s : State) : LocalFrame := s.cdu.now

/-- The format in force: the one that the frame in progress began with (R10, R22). A format that has been accepted stands in the live
settings, and is in force from the next frame start (log 6). -/
def State.format (s : State) : Format := s.cdu.frame.format

/-- The settings of a channel. -/
def State.cfg (s : State) (c : Channel) : ChannelSettings := s.live.channel[c]

/-- The authority record of a channel (R113). -/
def State.authority (s : State) (c : Channel) : Authority := s.aut[c]

/-- What CUS keeps of a channel (R139, R144). -/
def State.cue (s : State) (c : Channel) : CueChannel := s.cus.channel[c]

/-- What SUP keeps of a channel. -/
def State.watched (s : State) (c : Channel) : SupChannel := s.sup.channel[c]

/-- The pages of a channel (3.3). -/
def State.pages (s : State) (c : Channel) : Pages := s.sst.pages[c]

/-- A site port. -/
def State.site (s : State) (p : SitePort) : SitePortState := s.sli.port.get p

/-- A feed port. -/
def State.feed (s : State) (p : FeedPort) : FeedPortState := s.rpe.port.get p

/-- Station now: (local frame + O) mod WF (conventions, R14). -/
def State.stationNow (s : State) : Nat := (s.now.toNat + s.stc.offset) % wf s.format

/-- R93: Link is UP while either feed port is LIVE. -/
def State.linkUp (s : State) : Bool := s.sup.watch.a.live || s.sup.watch.b.live

/-- The name of an authority. -/
def Authority.name : Authority → AuthorityName
  | .main => .main
  | .armed _ _ => .armed
  | .standby _ => .standby
  | .held _ _ => .held
  | .returning _ _ _ _ => .returning

/-- The authority is MAIN. -/
def State.isMain (s : State) (c : Channel) : Bool := (s.authority c).name == .main

/-- The on-air segment of a record that has one (R113). -/
def Authority.air : Authority → Option OnAir
  | .main => none
  | .armed _ _ => none
  | .standby a => some a
  | .held _ a => some a
  | .returning _ _ _ a => some a

/-- The record with its on-air segment replaced, where it has one. -/
def Authority.withAir (r : Authority) (a : OnAir) : Authority :=
  match r with
  | .main => .main
  | .armed o p => .armed o p
  | .standby _ => .standby a
  | .held h _ => .held h a
  | .returning p m t _ => .returning p m t a

/-- R7: the channel is ARMED or RETURNING. -/
def Authority.busy (r : Authority) : Bool := r.name == .armed || r.name == .returning

/-- R7: no channel is ARMED or RETURNING. -/
def State.quiet (s : State) : Bool := channels.all fun c => !(s.authority c).busy

/-- R11: the cadence lock. -/
def State.cadenceLocked (s : State) : Bool := s.cdu.manualLock || !(channels.all fun c => s.isMain c)

/-- R8: the switch window of the frame in progress is open. -/
def State.windowOpen (s : State) : Bool := s.cdu.windowOpened && s.cdu.line ≤ s.cdu.frame.swLast

/-- The frame of the next switch-window event (R130, R155): this frame's when it has not happened, else the next frame's. -/
def State.nextWindowFrame (s : State) : LocalFrame := if s.cdu.windowOpened then s.now + 1 else s.now

/-- R53, R73: the commit engine is running. -/
def State.engineRunning (s : State) : Bool := s.sst.engine != .idle

/-- R182: a SAVE is running. -/
def State.saving (s : State) : Bool := s.store.save.isSome

/-- The events that a next page holds (R47). -/
def NextPage.events : NextPage → List Event
  | .empty => []
  | .loading p => p.events
  | .committing p => p.events
  | .ready p => p.events

/-- The events that an active page holds (R46). -/
def activeEvents : Option Page → List Event
  | none => []
  | some p => p.events

/-- Pool slots that a channel's pages use (R45). -/
def Pages.slots (p : Pages) : Nat := (activeEvents p.active).length + p.next.events.length

/-- R45: the pool slots in use, the events held in all pages of all channels. -/
def State.slotsUsed (s : State) : Nat := (s.sst.pages.list.map Pages.slots).sum

/-! ## Replacing -/

/-- A channel's authority record replaced, with nothing else. -/
def State.putAuthority (s : State) (c : Channel) (r : Authority) : State :=
  { s with aut := PerChannel.put s.aut c r }

/-- What CUS keeps of a channel replaced. -/
def State.putCue (s : State) (c : Channel) (k : CueChannel) : State :=
  { s with cus := { s.cus with channel := PerChannel.put s.cus.channel c k } }

/-- What SUP keeps of a channel replaced. -/
def State.putWatched (s : State) (c : Channel) (k : SupChannel) : State :=
  { s with sup := { s.sup with channel := PerChannel.put s.sup.channel c k } }

/-- A channel's pages replaced. -/
def State.putPages (s : State) (c : Channel) (p : Pages) : State :=
  { s with sst := { s.sst with pages := PerChannel.put s.sst.pages c p } }

/-- A channel's active page replaced. -/
def State.putActive (s : State) (c : Channel) (p : Option Page) : State :=
  s.putPages c { s.pages c with active := p }

/-- A channel's next page replaced. -/
def State.putNext (s : State) (c : Channel) (p : NextPage) : State :=
  s.putPages c { s.pages c with next := p }

/-- A site port replaced. -/
def State.putSite (s : State) (p : SitePort) (k : SitePortState) : State :=
  { s with sli := { s.sli with port := s.sli.port.put p k } }

/-- A feed port replaced. -/
def State.putFeed (s : State) (p : FeedPort) (k : FeedPortState) : State :=
  { s with rpe := { s.rpe with port := s.rpe.port.put p k } }

/-- A channel's settings replaced. -/
def State.putCfg (s : State) (c : Channel) (k : ChannelSettings) : State :=
  { s with live := { s.live with channel := PerChannel.put s.live.channel c k } }

/-- A step done for every channel in ascending order. -/
def State.eachChannel (s : State) (f : State → Channel → State) : State := channels.foldl f s

/-! ## Receive stages (R189) -/

/-- The receive stage of a line. -/
def RxStages.get (r : RxStages) : LineId → RxStage
  | .fa => r.fa
  | .fb => r.fb
  | .sa => r.sa
  | .sb => r.sb
  | .ml => r.ml
  | .xl => r.xl

/-- The receive stage of a line replaced. -/
def RxStages.put (r : RxStages) (l : LineId) (x : RxStage) : RxStages :=
  match l with
  | .fa => { r with fa := x }
  | .fb => { r with fb := x }
  | .sa => { r with sa := x }
  | .sb => { r with sb := x }
  | .ml => { r with ml := x }
  | .xl => { r with xl := x }

/-- The line of a feed port. -/
def feedLine : FeedPort → LineId
  | .A => .fa
  | .B => .fb

/-- The line of a site port. -/
def siteLine : SitePort → LineId
  | .A => .sa
  | .B => .sb

/-- A receive stage put back to waiting for an opening (R68, R164). -/
def State.rxWait (s : State) (l : LineId) : State := { s with rx := s.rx.put l .waiting }

/-! ## The STANDBY REPORT (4.6) -/

/-- R87: the on-air event id of a report, 0 in MAIN and ARMED. -/
def Authority.reportedEvent (r : Authority) : EventId :=
  match r.air with
  | some a => a.id
  | none => 0

/-- The next-page state of a report (R87). -/
def NextPage.name : NextPage → NextPageName
  | .empty => .empty
  | .loading p => if p.broken then .loadingBroken else .loading
  | .committing _ => .committing
  | .ready _ => .ready

/-- R87: a report formed from the state as it stands. -/
def State.formReport (s : State) : Report where
  commitBusy := s.engineRunning
  items := PerChannel.build fun c =>
    { authority := (s.authority c).name, onAir := (s.authority c).reportedEvent,
      nextPage := (s.pages c).next.name, baseline := s.rpe.baseline[c] }

/-- R88: a report placed on a port's transmit side. -/
def FeedTx.place (t : FeedTx) (r : Report) : FeedTx :=
  match t.sending with
  | none => { t with sending := some r }
  | some _ => { t with waiting := some r }

/-- R88: a report placed on a port, if it is enabled. -/
def FeedPortState.placeReport (p : FeedPortState) (r : Report) : FeedPortState :=
  if p.enabled then { p with tx := p.tx.place r } else p

/-- A STANDBY REPORT falls due: it is formed at once and placed on each enabled feed port (R86 to R88). -/
def State.reportDue (s : State) : State :=
  { s with rpe := { s.rpe with port := s.rpe.port.map fun p => p.placeReport s.formReport } }

/-- The commit engine changes between idle and running, and a report falls due (R86). -/
def State.setEngine (s : State) (e : Engine) : State :=
  State.reportDue { s with sst := { s.sst with engine := e } }

end Sys2Proof.Machine
end

