-- ==== Sys2Proof/Machine/Flags.lean ====
section
/-! DEFINITION. Flags, notices and the alarm evaluation (8.5, 8.6, R161): every setting and clearing of a flag. -/

namespace Sys2Proof.Machine

/-! ## Kinds and classes (8.5) -/

/-- The kind number of a device flag. -/
def DeviceFlag.kind : DeviceFlag → Nat
  | .refLost => 1
  | .offsetStep => 2
  | .offsetWander => 3
  | .feedSilent .A => 4
  | .feedSilent .B => 5
  | .feedOverrun .A => 6
  | .feedOverrun .B => 7
  | .feedCheck .A => 8
  | .feedCheck .B => 9
  | .formatMismatch => 10
  | .poolFull => 11
  | .scanDone => 12
  | .keyTakeover => 13
  | .siteSilent .A => 14
  | .siteSilent .B => 15

/-- The place of a device flag: its kind number less 1. -/
def DeviceFlag.place : DeviceFlag → Fin 15
  | .refLost => 0
  | .offsetStep => 1
  | .offsetWander => 2
  | .feedSilent .A => 3
  | .feedSilent .B => 4
  | .feedOverrun .A => 5
  | .feedOverrun .B => 6
  | .feedCheck .A => 7
  | .feedCheck .B => 8
  | .formatMismatch => 9
  | .poolFull => 10
  | .scanDone => 11
  | .keyTakeover => 12
  | .siteSilent .A => 13
  | .siteSilent .B => 14

/-- The device flags in kind order. -/
def deviceFlags : List DeviceFlag :=
  [.refLost, .offsetStep, .offsetWander, .feedSilent .A, .feedSilent .B, .feedOverrun .A, .feedOverrun .B, .feedCheck .A,
    .feedCheck .B, .formatMismatch, .poolFull, .scanDone, .keyTakeover, .siteSilent .A, .siteSilent .B]

/-- The class of a device flag: URGENT or not. -/
def DeviceFlag.urgent : DeviceFlag → Bool
  | .refLost => true
  | .feedSilent _ => true
  | .keyTakeover => true
  | .offsetStep => false
  | .offsetWander => false
  | .feedOverrun _ => false
  | .feedCheck _ => false
  | .formatMismatch => false
  | .poolFull => false
  | .scanDone => false
  | .siteSilent _ => false

/-- The place of a per-channel flag: its kind number less 16. -/
def ChannelFlag.place : ChannelFlag → Fin 14
  | .healthChange => 0
  | .authorityChange => 1
  | .takeoverBlocked => 2
  | .cueLate => 3
  | .cueFailed => 4
  | .routeUnconfirmed => 5
  | .replicaGap => 6
  | .diverged => 7
  | .editLocked => 8
  | .listRejected => 9
  | .flipMissed => 10
  | .listExhausted => 11
  | .returnAborted => 12
  | .holdLapsed => 13

/-- The kind number of a per-channel flag. -/
def ChannelFlag.kind (k : ChannelFlag) : Nat := k.place.val + 16

/-- The per-channel flags in kind order. -/
def channelFlags : List ChannelFlag :=
  [.healthChange, .authorityChange, .takeoverBlocked, .cueLate, .cueFailed, .routeUnconfirmed, .replicaGap, .diverged,
    .editLocked, .listRejected, .flipMissed, .listExhausted, .returnAborted, .holdLapsed]

/-- The class that the kind table gives a per-channel flag; HEALTH-CHANGE has its class at each setting (R176). -/
def ChannelFlag.urgent : ChannelFlag → Bool
  | .authorityChange => true
  | .takeoverBlocked => true
  | .cueFailed => true
  | .routeUnconfirmed => true
  | .returnAborted => true
  | .holdLapsed => true
  | .healthChange => false
  | .cueLate => false
  | .replicaGap => false
  | .diverged => false
  | .editLocked => false
  | .listRejected => false
  | .flipMissed => false
  | .listExhausted => false

/-- R109: a HEALTH-CHANGE setting is URGENT when the new state is FAILING or FAILED. -/
def Health.urgent (h : Health) : Bool := h == .failing || h == .failed

/-! ## Reading flags and masks -/

/-- A device flag is set. -/
def State.deviceFlag (s : State) (k : DeviceFlag) : Bool := s.sli.device[k.place]

/-- A per-channel flag of a channel is set. -/
def State.channelFlag (s : State) (k : ChannelFlag) (c : Channel) : Bool := (s.sli.channel[c])[k.place]

/-- A mask holds a kind number (R174, R178). -/
def kindIn (mask : BitVec 32) (kind : Nat) : Bool := mask.getLsbD kind

/-! ## The alarm (R161) -/

/-- Some flag of a masked kind is set; a per-channel kind counts on any channel (R178). -/
def State.maskedFlagSet (s : State) : Bool :=
  (deviceFlags.any fun k => kindIn s.live.alarmMask k.kind && s.deviceFlag k)
    || (channelFlags.any fun k => kindIn s.live.alarmMask k.kind && (channels.any fun c => s.channelFlag k c))

/-- Some channel's health is FAILED. -/
def State.anyFailed (s : State) : Bool := channels.any fun c => (s.watched c).health == .failed

/-- R161: what ALM is to be. -/
def State.alarmValue (s : State) : Bool := s.anyFailed || s.maskedFlagSet

/-- XPS re-evaluates ALM (R161). -/
def State.evalAlarm (s : State) : State := { s with xps := { s.xps with alarm := s.alarmValue } }

/-! ## Output levels (R160, R161, R186) -/

/-- The level of an output of a polarity, true for high; none while a reset holds the part and the output is undriven (R186). -/
def State.levelOf (s : State) (p : Polarity) (active : Bool) : Option Bool :=
  match s.power, p with
  | .held, _ => none
  | .running, .activeHigh => some active
  | .running, .activeLow => some (!active)

/-- The level of TLc (R160). -/
def State.tallyLevel (s : State) (c : Channel) : Option Bool := s.levelOf (s.cfg c).tallyPolarity s.xps.tally[c]

/-- The level of ALM (R161). -/
def State.alarmLevel (s : State) : Option Bool := s.levelOf s.live.almPolarity s.xps.alarm

/-! ## Notices (8.6) -/

/-- The rank of a pair among those of its class: kind number, then channel (R177). -/
def PendingPair.rank (p : PendingPair) : Nat :=
  p.kind * 16 + (match p.channel with | none => 0 | some c => c.val + 1)

/-- Two pairs name the same flag. -/
def PendingPair.sameFlag (p q : PendingPair) : Bool := p.kind == q.kind && p.channel == q.channel

/-- A pair joins the set at its rank. -/
def insertPair (p : PendingPair) : List PendingPair → List PendingPair
  | [] => [p]
  | q :: qs => if p.rank < q.rank then p :: q :: qs else q :: insertPair p qs

/-- One setting of a flag reaches one site port (R175, R176): a pending pair of the flag is promoted when the setting is
URGENT; otherwise a rising of a masked kind joins the set. -/
def SitePortState.offer (port : SitePortState) (p : PendingPair) (rising : Bool) : SitePortState :=
  if port.pairs.any p.sameFlag then
    if p.urgent then
      { port with pairs := port.pairs.map fun q => if p.sameFlag q then { q with urgent := true } else q }
    else port
  else if rising && kindIn port.mask p.kind then { port with pairs := insertPair p port.pairs }
  else port

/-- One setting of a flag reaches both site ports (R175). -/
def State.offerBoth (s : State) (p : PendingPair) (rising : Bool) : State :=
  { s with sli := { s.sli with port := s.sli.port.map fun k => k.offer p rising } }

/-! ## Setting (R172) -/

/-- A device flag is set. -/
def State.raiseDevice (s : State) (k : DeviceFlag) : State :=
  let t := s.offerBoth ⟨k.kind, none, k.urgent⟩ (!s.deviceFlag k)
  State.evalAlarm { t with sli := { t.sli with device := t.sli.device.set k.place.val true k.place.isLt } }

/-- The flags of a channel replaced. -/
def State.putChannelFlags (s : State) (c : Channel) (v : Vector Bool 14) : State :=
  { s with sli := { s.sli with channel := PerChannel.put s.sli.channel c v } }

/-- A per-channel flag of a channel is set, with the class of this setting. -/
def State.raiseClassed (s : State) (k : ChannelFlag) (c : Channel) (urgent : Bool) : State :=
  let t := s.offerBoth ⟨k.kind, some c, urgent⟩ (!s.channelFlag k c)
  State.evalAlarm (t.putChannelFlags c ((t.sli.channel[c]).set k.place.val true k.place.isLt))

/-- A per-channel flag of a channel is set, with the class of its kind. -/
def State.raise (s : State) (k : ChannelFlag) (c : Channel) : State := s.raiseClassed k c k.urgent

/-- HEALTH-CHANGE of a channel is set by a change into health `h` (R109, R176). -/
def State.raiseHealth (s : State) (c : Channel) (h : Health) : State := s.raiseClassed .healthChange c h.urgent

/-- A flag is set where a condition holds. -/
def State.raiseIf (s : State) (cond : Bool) (k : ChannelFlag) (c : Channel) : State :=
  if cond then s.raise k c else s

/-! ## Clearing (R173) -/

/-- A device flag is cleared. -/
def State.clearDevice (s : State) (k : DeviceFlag) : State :=
  State.evalAlarm { s with sli := { s.sli with device := s.sli.device.set k.place.val false k.place.isLt } }

/-- A per-channel flag of a channel is cleared. -/
def State.clearFlag (s : State) (k : ChannelFlag) (c : Channel) : State :=
  State.evalAlarm (s.putChannelFlags c ((s.sli.channel[c]).set k.place.val false k.place.isLt))

/-- Every flag is cleared. -/
def State.clearAllFlags (s : State) : State :=
  State.evalAlarm { s with sli := { s.sli with device := Vector.replicate 15 false,
                                               channel := PerChannel.same (Vector.replicate 14 false) } }

/-- The per-channel flag of a kind number 16 to 29. -/
def channelFlagOf (kind : Nat) : Option ChannelFlag := channelFlags.find? fun k => k.kind == kind

/-- The device flag of a kind number 1 to 15. -/
def deviceFlagOf (kind : Nat) : Option DeviceFlag := deviceFlags.find? fun k => k.kind == kind

end Sys2Proof.Machine
end

