-- ==== Sys2Proof/Machine/Crosspoint.lean ====
section
/-! DEFINITION. The Crosspoint Sequencer (7.5, 7.6): placing, withdrawing, issuing and acknowledging crosspoints, and the
tallies. -/

namespace Sys2Proof.Machine

/-! ## The tallies (R160) -/

/-- The last acknowledged source of a destination; none while unknown, and for a number that is no destination. -/
def State.lastAckOf (s : State) (dest : Nat) : Option Nat := (s.xps.lastAck[dest]?).join

/-- The authority shows standby material on the destination (R160). -/
def AuthorityName.standbyOnAir : AuthorityName → Bool
  | .main => false
  | .armed => false
  | .standby => true
  | .held => true
  | .returning => true

/-- R160: what TLc is to be. -/
def State.tallyValue (s : State) (c : Channel) : Bool :=
  (s.authority c).name.standbyOnAir &&
    (match s.lastAckOf (s.cfg c).destination with
     | some x => x != (s.cfg c).mainSource
     | none => false)

/-- XPS re-evaluates TLc (R160). -/
def State.evalTally (s : State) (c : Channel) : State :=
  { s with xps := { s.xps with tally := PerChannel.put s.xps.tally c (s.tallyValue c) } }

/-! ## Placing, withdrawing and issuing (R157) -/

/-- The pending crosspoints replaced. -/
def State.putPendingXp (s : State) (xs : List Crosspoint) : State := { s with xps := { s.xps with pending := xs } }

/-- A crosspoint goes out on XL and awaits its acknowledgement until the second frame start after its issue (R157, R158). -/
def State.sendXp (s : State) (x : Crosspoint) : State :=
  { s with xps := { s.xps with awaiting := s.xps.awaiting ++ [⟨x.destination, x.source, x.channel, 2⟩] } }

/-- The crosspoints pending elsewhere than at a destination's due frame. -/
def othersThan (dest : Nat) (due : LocalFrame) (xs : List Crosspoint) : List Crosspoint :=
  xs.filter fun x => !(x.destination == dest && x.due == due)

/-- R157: a crosspoint is issued at once when XPS has taken the switch-window event of its due frame and that window is open. -/
def State.issuesAtOnce (s : State) (due : LocalFrame) : Bool := due == s.now && s.windowOpen && s.xps.eventTaken

/-- R157: a crosspoint is placed. -/
def State.placeXp (s : State) (x : Crosspoint) : State :=
  let rest := othersThan x.destination x.due s.xps.pending
  if s.issuesAtOnce x.due then (s.putPendingXp rest).sendXp x else s.putPendingXp (rest ++ [x])

/-- A crosspoint to a source is placed on a channel's destination. -/
def State.placeOnAir (s : State) (c : Channel) (due : LocalFrame) (source : Nat) : State :=
  s.placeXp ⟨(s.cfg c).destination, due, source, c⟩

/-- R157: the pending crosspoint of a channel for a due frame is withdrawn. -/
def State.withdrawXp (s : State) (c : Channel) (due : LocalFrame) : State :=
  s.putPendingXp (s.xps.pending.filter fun x =>
    !(x.destination == (s.cfg c).destination && x.due == due && x.channel == c))

/-- The later of two crosspoints by due frame (R157). -/
def laterDue (x : Crosspoint) : Option Crosspoint → Option Crosspoint
  | none => some x
  | some y => if before y.due x.due then some x else some y

/-- R157: of the crosspoints pending on a destination and due by now, the one with the latest due frame. -/
def State.toIssue (s : State) (dest : Nat) : Option Crosspoint :=
  (s.xps.pending.filter fun x => x.destination == dest && atOrAfter s.now x.due).foldl (fun a x => laterDue x a) none

/-- R157: one destination at a switch-window event; what is due by now leaves the pending set, the latest of it is sent. -/
def State.issueOn (s : State) (dest : Nat) : State :=
  match s.toIssue dest with
  | none => s
  | some x =>
    (s.putPendingXp (s.xps.pending.filter fun y => !(y.destination == dest && atOrAfter s.now y.due))).sendXp x

/-- The 64 destinations in ascending order. -/
def destinations : List Nat := List.range 64

/-- XPS has taken the switch-window event of the frame in progress. -/
def State.takeEvent (s : State) : State := { s with xps := { s.xps with eventTaken := true } }

/-- CROSSPOINT_ISSUE (R157): XPS takes the switch-window event. -/
def execCrosspointIssue (s : State) : Host.Outcome State Fault Refusal :=
  whenRunning s fun s =>
    if s.cdu.windowEvent && !s.xps.eventTaken then (destinations.foldl State.issueOn s).takeEvent else s

/-! ## Acknowledgements (R158, R195) -/

/-- The oldest awaiting crosspoint that meets a test leaves the list. -/
def takeOldest (p : Awaiting → Bool) : List Awaiting → Option (Awaiting × List Awaiting)
  | [] => none
  | x :: xs =>
    if p x then some (x, xs)
    else match takeOldest p xs with
      | none => none
      | some (y, ys) => some (y, x :: ys)

/-- The awaiting crosspoints replaced. -/
def State.putAwaiting (s : State) (xs : List Awaiting) : State := { s with xps := { s.xps with awaiting := xs } }

/-- R158: a source becomes the last acknowledged source of a destination, and the tallies of the channels on it are
re-evaluated (R160). -/
def State.acknowledge (s : State) (dest : Nat) (source : Nat) : State :=
  let t := { s with xps := { s.xps with lastAck := s.xps.lastAck.setIfInBounds dest (some source) } }
  t.eachChannel fun t c => if (t.cfg c).destination == dest then t.evalTally c else t

/-- CROSSPOINT_ACK (R158, R195): result 0 is positive. -/
def execCrosspointAck (destination source result : Byte) (s : State) : Host.Outcome State Fault Refusal :=
  whenRunning s fun s =>
    match takeOldest (fun x => x.destination == destination.toNat && x.source == source.toNat) s.xps.awaiting with
    | none => s
    | some (x, rest) =>
      if result = 0 then (s.putAwaiting rest).acknowledge x.destination x.source
      else (s.putAwaiting rest).raise .routeUnconfirmed x.channel

/-- CROSSPOINT_ACK_TIMEOUT (R158): the oldest crosspoint of the destination whose wait has ended leaves with
ROUTE-UNCONFIRMED. -/
def execCrosspointAckTimeout (destination : Fin 64) (s : State) : Host.Outcome State Fault Refusal :=
  whenRunning s fun s =>
    match takeOldest (fun x => x.destination == destination.val && x.left == 0) s.xps.awaiting with
    | none => s
    | some (x, rest) => (s.putAwaiting rest).raise .routeUnconfirmed x.channel

end Sys2Proof.Machine
end

