-- ==== Sys2Proof/Machine/Join.lean ====
section
/-! DEFINITION. Stage D, the join (2.6): a relative frame classified against a page, and the join of a channel. -/

namespace Sys2Proof.Machine

/-! ## A position on a page (R36 to R41) -/

/-- What a position on a page gives: the segment that begins there, its length (none for exhausted filler) and the next
event with its distance from the position. -/
structure Placed where
  content : SegContent
  id : EventId
  length : Option Nat
  next : Option (EventId × Nat)
deriving DecidableEq, Repr

/-- The indication of R40: the segment has no end and no next event. -/
def Placed.exhausted (p : Placed) : Bool := p.length.isNone

/-- R40: filler with no end. -/
def exhaustedPlace : Placed := ⟨.filler, 0, none, none⟩

/-- The events of a page with what was resolved for them; every event of an active page is resolved (R46). -/
def resolvedEvents (evs : List Event) : List (Event × Resolution) := evs.filterMap fun e => e.res.map fun r => (e, r)

/-- R34: μ = max(MIN_REMAIN, 1). -/
def leastRemainder (minRemain : Nat) : Nat := max minRemain 1

/-- R41: an event taken from its start. -/
def startTest (mu : Nat) (e : Event) (dur : Nat) : SegContent :=
  match e.kind with
  | .clip clipId trim => if mu ≤ dur then .clip clipId trim else .filler
  | .live source => .live source
  | .fill => .filler

/-- R37, R38: an event joined past its start, at an offset of 1 or more. -/
def pastStart (mu : Nat) (e : Event) (offset remainder : Nat) : SegContent :=
  match e.policy with
  | .noJoin => .filler
  | .join =>
    match e.kind with
    | .clip clipId trim => if mu ≤ remainder then .clip clipId (trim + offset) else .filler
    | .live source => .live source
    | .fill => .filler

/-- R37, R38, R41: what a covered event gives at an offset. -/
def coveredContent (mu : Nat) (e : Event) (dur offset : Nat) : SegContent :=
  if offset = 0 then startTest mu e dur else pastStart mu e offset (dur - offset)

/-- R39: filler with id 0 up to the next event. -/
def gapPlace (f : Format) (p : Nat) (e : Event) (r : Resolution) : Placed :=
  ⟨.filler, 0, some (stationDiff f r.start p), some (e.id, stationDiff f r.start p)⟩

/-- R36: a relative frame classified against the events of a page. -/
def placeOn (f : Format) (mu : Nat) (evs : List Event) (p : Nat) : Placed :=
  let res := resolvedEvents evs
  match reach f p with
  | .afterPage => exhaustedPlace
  | .beforeBase =>
    match res.head? with
    | some (e, r) => gapPlace f p e r
    | none => exhaustedPlace
  | .within =>
    match res.find? fun x => x.2.start ≤ p && p < x.2.start + x.2.dur with
    | some (e, r) =>
      { content := coveredContent mu e r.dur (p - r.start), id := e.id, length := some (r.start + r.dur - p),
        next := (res.find? fun x => r.start < x.2.start).map fun x => (x.1.id, x.2.start - p) }
    | none =>
      match res.find? fun x => p < x.2.start with
      | some (e, r) => gapPlace f p e r
      | none => exhaustedPlace

/-! ## The join of a channel (R34, R35) -/

/-- R34, R141: the cue entries that CUS holds, the one in transaction included. -/
def State.cueEntries (s : State) : Nat := s.cus.queue.length + (if s.cus.txn.isSome then 1 else 0)

/-- R34: the send estimate c. -/
def State.sendEstimate (s : State) : LocalFrame :=
  s.now + BitVec.ofNat 32 (s.cueEntries * (1 + s.live.replyTimeout))

/-- R35: jl. -/
def State.joinFrame (s : State) (c : Channel) : LocalFrame := s.sendEstimate + BitVec.ofNat 32 (s.cfg c).cueLead

/-- R35: js, with the wrap of the count between n and jl. -/
def State.joinStation (s : State) (c : Channel) : Nat :=
  let jl := s.joinFrame c
  (jl.toNat + s.stc.offset + (if jl.toNat < s.now.toNat then wrapShift s.format else 0)) % wf s.format

/-- The join of a channel: its result (R43), with no player yet, and rj, which an EMPTY page does not give. -/
structure Join where
  plan : JoinPlan
  rel : Option Nat
deriving DecidableEq, Repr

/-- A join result from the segment that begins at its jl (R35, R43). -/
def Placed.plan (p : Placed) (jl : LocalFrame) (js : Nat) : JoinPlan where
  start := jl
  station := js
  content := p.content
  id := p.id
  stop := p.length.map fun n => jl + BitVec.ofNat 32 n
  next := p.next.map fun x => (x.1, jl + BitVec.ofNat 32 x.2)
  exhausted := p.exhausted
  player := none

/-- R34 to R41: the join of a channel at the frame in progress. -/
def State.join (s : State) (c : Channel) : Join :=
  let jl := s.joinFrame c
  let js := s.joinStation c
  match (s.pages c).active with
  | none => ⟨exhaustedPlace.plan jl js, none⟩
  | some page =>
    let rj := relativeFrame s.format js (pageBase s.format page.baseDay)
    ⟨(placeOn s.format (leastRemainder (s.cfg c).minRemain) page.events rj).plan jl js, some rj⟩

/-- The anchor that a join sets (R144); DEDUCED (log 18): a join on an EMPTY page has no rj, and the anchor is none. -/
def Join.anchor (j : Join) : Option (LocalFrame × Nat) := j.rel.map fun rj => (j.plan.start, rj)

/-! ## The position of a boundary lookup (R145) -/

/-- R145, R30: x_e = rj + (e − jl), the relative frame of a local frame through the anchor, at or after its jl or before it. -/
def anchorRel (f : Format) (anchor : LocalFrame × Nat) (e : LocalFrame) : Nat :=
  if atOrAfter e anchor.1 then (anchor.2 + frameDiff e anchor.1) % wf f
  else stationDiff f anchor.2 (frameDiff anchor.1 e)

/-- R145: a local frame classified against the active page through the anchor; none with no anchor. -/
def State.lookupPlace (s : State) (c : Channel) (e : LocalFrame) : Option Placed :=
  match (s.cue c).anchor, (s.pages c).active with
  | some a, some page =>
    some (placeOn s.format (leastRemainder (s.cfg c).minRemain) page.events (anchorRel s.format a e))
  | some _, none => some exhaustedPlace
  | none, _ => none

end Sys2Proof.Machine
end

