-- ==== Sys2Proof/Machine/Cue.lean ====
section
/-! DEFINITION. The Cue Scheduler (chapter 7): players, the cue queue, withdrawal, the playback plan, fresh joins, the starts
of segments, and the ML transactions. -/

namespace Sys2Proof.Machine

/-! ## Players (R139) -/

/-- What CUS keeps of a channel, with a player's state replaced. -/
def CueChannel.withPlayer (k : CueChannel) (p : Player) (x : PlayerState) : CueChannel :=
  { k with players := k.players.put p x }

/-- A player's state is set. -/
def State.setPlayer (s : State) (c : Channel) (p : Player) (x : PlayerState) : State :=
  s.putCue c ((s.cue c).withPlayer p x)

/-- A player's state. -/
def State.playerState (s : State) (c : Channel) (p : Player) : PlayerState := (s.cue c).players.get p

/-- R139: a player is free unless it is ON-AIR. -/
def State.playerFree (s : State) (c : Channel) (p : Player) : Bool := s.playerState c p != .onAir

/-- A CUED player becomes IDLE. -/
def State.uncue (s : State) (c : Channel) (p : Player) : State :=
  if s.playerState c p = .cued then s.setPlayer c p .idle else s

/-- R139: the players when a segment goes on air: the one it uses is ON-AIR, any other that was ON-AIR is IDLE. -/
def playersOnAir (uses : Option Player) (v : PerSide PlayerState) : PerSide PlayerState :=
  let one (p : Player) : PlayerState :=
    if uses = some p then .onAir else if v.get p = .onAir then .idle else v.get p
  ⟨one .A, one .B⟩

/-! ## Segments -/

/-- The source that a player's output carries. -/
def State.playerSource (s : State) (c : Channel) (p : Player) : Nat := ((s.cfg c).players.get p).source

/-- R159: the source that a planned segment routes, none for filler of a channel with no filler source. -/
def State.routes (s : State) (c : Channel) : PlannedContent → Option Nat
  | .clip p _ _ => some (s.playerSource c p)
  | .live x => some x
  | .fill => (s.cfg c).filler
  | .gap => (s.cfg c).filler

/-- R144: a joined or looked-up segment as a planned one; filler is FILL when it carries an event id, else GAP. -/
def plannedContent (content : SegContent) (id : EventId) (p : Player) : PlannedContent :=
  match content with
  | .clip clipId media => .clip p clipId media
  | .live x => .live x
  | .filler => if id = 0 then .gap else .fill

/-- The player of a clip segment. -/
def PlannedContent.player : PlannedContent → Option Player
  | .clip p _ _ => some p
  | .live _ => none
  | .fill => none
  | .gap => none

/-- R113: the kind of on-air segment that a planned one becomes. -/
def PlannedContent.airKind : PlannedContent → AirKind
  | .clip _ _ _ => .clip
  | .live _ => .live
  | .fill => .fill
  | .gap => .gap

/-- The on-air segment of a channel, where its record has one. -/
def State.airOf (s : State) (c : Channel) : Option OnAir := (s.authority c).air

/-- The source in use of the segment that stands last, on air or planned (R159). -/
def State.sourceBefore (s : State) (c : Channel) : Option Nat :=
  match (s.cue c).planned.getLast? with
  | some seg => s.routes c seg.content
  | none => (s.airOf c).bind fun a => a.source

/-- The on-air segment's record amended (R146, R155). -/
def State.amendAir (s : State) (c : Channel) (f : OnAir → OnAir) : State :=
  match s.airOf c with
  | some a => s.putAuthority c ((s.authority c).withAir (f a))
  | none => s

/-- The end frame of the on-air segment amended (R146). -/
def State.endAirAt (s : State) (c : Channel) (e : LocalFrame) : State :=
  s.amendAir c fun a => { a with stop := some e }

/-! ## The cue queue (R141, R142) -/

/-- A PLAY entry. -/
def CueAction.isPlay : CueAction → Bool
  | .play _ _ _ _ => true
  | .cancel => false

/-- R142: entry x stands ahead of entry y. -/
def CueEntry.ahead (x y : CueEntry) : Bool :=
  if x.deadline = y.deadline then
    if x.channel = y.channel then !x.action.isPlay && y.action.isPlay else x.channel < y.channel
  else before x.deadline y.deadline

/-- An entry joins the queue at the place its deadline gives it (R142). -/
def insertEntry (x : CueEntry) : List CueEntry → List CueEntry
  | [] => [x]
  | y :: ys => if x.ahead y then x :: y :: ys else y :: insertEntry x ys

/-- The queue replaced. -/
def State.putQueue (s : State) (q : List CueEntry) : State := { s with cus := { s.cus with queue := q } }

/-- The transaction replaced. -/
def State.putTxn (s : State) (t : Option Txn) : State := { s with cus := { s.cus with txn := t } }

/-- An entry for a player of a channel, with the ML address that the player has now (R141). -/
def State.entryFor (s : State) (c : Channel) (p : Player) (deadline start : LocalFrame) (a : CueAction) : CueEntry :=
  ⟨c, p, ((s.cfg c).players.get p).address, deadline, start, a⟩

/-- An entry is queued. -/
def State.enqueue (s : State) (x : CueEntry) : State := s.putQueue (insertEntry x s.cus.queue)

/-- A PLAY is queued, with jl and the deadline jl − K (R141, R145). -/
def State.queuePlay (s : State) (c : Channel) (p : Player) (clipId : List Byte) (media : Nat) (start : LocalFrame)
    (attempt : Nat) (id : EventId) : State :=
  s.enqueue (s.entryFor c p (start - BitVec.ofNat 32 (s.cfg c).cueLead) start (.play clipId media attempt id))

/-- A CANCEL is queued, with deadline and jl at the frame in progress (R141). -/
def State.queueCancel (s : State) (c : Channel) (p : Player) : State := s.enqueue (s.entryFor c p s.now s.now .cancel)

/-- The entry is the PLAY of a channel's segment that starts at a frame. -/
def CueEntry.isPlayOf (x : CueEntry) (c : Channel) (start : LocalFrame) : Bool :=
  x.action.isPlay && x.channel == c && x.start == start

/-- The transaction is that of the PLAY of a channel's segment, not marked withdrawn. -/
def Txn.isPlayOf (t : Txn) (c : Channel) (start : LocalFrame) : Bool := !t.withdrawn && t.entry.isPlayOf c start

/-- The message of the transaction is still being sent (R151). -/
def Txn.isSending (t : Txn) : Bool :=
  match t.phase with
  | .sending _ => true
  | .awaiting _ => false

/-- The PLAY of a segment is queued and not in transaction. -/
def State.playQueued (s : State) (c : Channel) (start : LocalFrame) : Bool :=
  s.cus.queue.any fun x => x.isPlayOf c start

/-- The PLAY of a segment is in transaction. -/
def State.playInTxn (s : State) (c : Channel) (start : LocalFrame) : Bool :=
  match s.cus.txn with
  | some t => t.isPlayOf c start
  | none => false

/-- R147: the PLAY of a segment has not been sent. -/
def State.playUnsent (s : State) (c : Channel) (start : LocalFrame) : Bool :=
  s.playQueued c start || (s.playInTxn c start && (s.cus.txn.map Txn.isSending).getD false)

/-! ## Withdrawal (R143) -/

/-- The transaction is marked withdrawn. -/
def State.markWithdrawn (s : State) : State := s.putTxn (s.cus.txn.map fun t => { t with withdrawn := true })

/-- R143: the PLAY of a segment is taken back, according to where it stands. -/
def State.withdrawPlay (s : State) (c : Channel) (p : Player) (start : LocalFrame) : State :=
  if s.playQueued c start then s.putQueue (s.cus.queue.filter fun x => !x.isPlayOf c start)
  else if s.playInTxn c start then s.markWithdrawn.uncue c p
  else if s.playerState c p = .cued then (s.queueCancel c p).setPlayer c p .idle
  else s

/-- R143: a segment is withdrawn, with the crosspoint placed for it. -/
def State.withdrawSegment (s : State) (c : Channel) (player : Option Player) (start : LocalFrame) : State :=
  match player with
  | some p => (s.withdrawPlay c p start).withdrawXp c start
  | none => s.withdrawXp c start

/-- The plan of a channel replaced. -/
def State.putPlanned (s : State) (c : Channel) (xs : List Planned) : State :=
  s.putCue c { s.cue c with planned := xs }

/-- The planned segments that meet a test are withdrawn. -/
def State.withdrawPlanned (s : State) (c : Channel) (p : Planned → Bool) : State :=
  ((s.cue c).planned.filter p).foldl (fun s seg => s.withdrawSegment c seg.content.player seg.start)
    (s.putPlanned c ((s.cue c).planned.filter fun x => !p x))

/-- Every planned segment is withdrawn. -/
def State.withdrawPlan (s : State) (c : Channel) : State := s.withdrawPlanned c fun _ => true

/-- R139, R144, R148: what CUS keeps of a channel that is MAIN again. -/
def State.cueToMain (s : State) (c : Channel) : State :=
  let k := s.cue c
  s.putCue c { k with anchor := none, exhausted := false, planned := [], players := playersOnAir none k.players }

/-! ## Planning (R140, R144, R145) -/

/-- R140: the player of the first segment of an arming. -/
def State.armingPlayer (s : State) (c : Channel) : Player := if s.playerFree c .A then .A else .B

/-- R140: the player of a clip planned while the channel is STANDBY. -/
def State.nextPlayer (s : State) (c : Channel) : Player :=
  let segment := ((s.cue c).planned.getLast?.bind fun x => x.content.player).or ((s.airOf c).bind fun a => a.player)
  match segment with
  | some p => p.other
  | none =>
    match (s.cue c).lastClip with
    | some p => p.other
    | none => .A

/-- R145, R159: a segment is appended to the plan; a clip's PLAY is queued, any other's crosspoint is placed where its source is
not that of the segment before it. -/
def State.appendSegment (s : State) (c : Channel) (content : PlannedContent) (id : EventId) (start : LocalFrame)
    (stop : Option LocalFrame) (attempt : Nat) : State :=
  let route := if s.routes c content = s.sourceBefore c then none else s.routes c content
  match content with
  | .clip p clipId media =>
    State.queuePlay (s.putPlanned c ((s.cue c).planned ++ [⟨content, id, start, stop, false⟩]))
      c p clipId media start attempt id
  | .live _ | .fill | .gap =>
    let t := s.putPlanned c ((s.cue c).planned ++ [⟨content, id, start, stop, route.isSome⟩])
    match route with
    | some x => t.placeOnAir c start x
    | none => t

/-- R40, R144, R145: the exhausted indication after a join or a lookup, and the LIST-EXHAUSTED flag. -/
def State.noteExhausted (s : State) (c : Channel) (exhausted : Bool) : State :=
  (s.putCue c { s.cue c with exhausted := exhausted }).raiseIf exhausted .listExhausted c

/-- R145: the segment that a boundary lookup at a frame gives is planned, on a player; with no anchor nothing is planned. -/
def State.planAt (s : State) (c : Channel) (e : LocalFrame) (p : Player) (attempt : Nat) : State :=
  match s.lookupPlace c e with
  | none => s
  | some x =>
    (s.noteExhausted c x.exhausted).appendSegment c (plannedContent x.content x.id p) x.id e
      (x.length.map fun n => e + BitVec.ofNat 32 n) attempt

/-- R145: a boundary lookup that follows a segment of known end. -/
def State.planNext (s : State) (c : Channel) (e : LocalFrame) : State := s.planAt c e (s.nextPlayer c) 1

/-! ## Fresh joins (R146) -/

/-- R40, R144: what CUS notes of a join. -/
def State.noteJoin (s : State) (c : Channel) (j : Join) : State :=
  State.noteExhausted (s.putCue c { s.cue c with anchor := j.anchor }) c j.plan.exhausted

/-- R146, R150: how the time up to a fresh join's jl is filled: a replaced segment due earlier leaves a bridge from its start,
an on-air segment that ends earlier is followed by a bridge, and otherwise the segment on air ends at jl. -/
def State.bridgeTo (s : State) (c : Channel) (started : Bool) (replaced : Option Planned) (jl : LocalFrame) : State :=
  let bridge (id : EventId) (b : LocalFrame) : State :=
    s.appendSegment c (if id = 0 then .gap else .fill) id b (some jl) 1
  if started then s.endAirAt c jl
  else
    match replaced with
    | some seg => if before seg.start jl then bridge seg.id seg.start else s.endAirAt c jl
    | none =>
      match (s.airOf c).bind fun a => a.stop with
      | some e => if before e jl then bridge 0 e else s.endAirAt c jl
      | none => s.endAirAt c jl

/-- R146: the first segment of a fresh join enters the plan behind what fills the time up to it. -/
def State.planJoin (s : State) (c : Channel) (started : Bool) (replaced : Option Planned) (j : Join) : State :=
  let t := (s.noteJoin c j).bridgeTo c started replaced j.plan.start
  t.appendSegment c (plannedContent j.plan.content j.plan.id (t.nextPlayer c)) j.plan.id j.plan.start j.plan.stop 1

/-- R146: a fresh join replaces every planned segment; `started`: the segment it replaces has already started, and is on
air. DESIGN CHOICE (log 29): the segments are withdrawn first, and the join counts the cue entries that are then held (R34). -/
def State.freshJoin (s : State) (c : Channel) (started : Bool) : State :=
  let t := s.withdrawPlan c
  t.planJoin c started (s.cue c).planned.head? (t.join c)

/-! ## The plan of an ARMED channel (R117, R122) -/

/-- R117 step 3: the first segment of a join plan is handed on. -/
def State.handOn (s : State) (c : Channel) (p : JoinPlan) (attempt : Nat) : State :=
  match p.content, p.player with
  | .clip clipId media, some q => s.queuePlay c q clipId media p.start attempt p.id
  | .clip _ _, none => s
  | .live x, _ => s.placeOnAir c p.start x
  | .filler, _ =>
    match (s.cfg c).filler with
    | some x => s.placeOnAir c p.start x
    | none => s

/-- A segment that is a clip. -/
def SegContent.isClip : SegContent → Bool
  | .clip _ _ => true
  | .live _ => false
  | .filler => false

/-- R117 steps 1 to 3, R122: a join of the channel becomes its join plan, with a player for a clip. -/
def State.armPlan (s : State) (c : Channel) (o : Origin) (p : Player) (attempt : Nat) : State :=
  let j := s.join c
  let plan := { j.plan with player := if j.plan.content.isClip then some p else none }
  ((s.putAuthority c (.armed o plan)).noteJoin c j).handOn c plan attempt

/-- R122, R153, R154: the join plan is replaced by a fresh join's. -/
def State.rearmPlan (s : State) (c : Channel) (o : Origin) (old : JoinPlan) (p : Player) (attempt : Nat) : State :=
  (s.withdrawXp c old.start).armPlan c o p attempt

/-! ## The start of a segment (R147) -/

/-- The on-air segment that a planned one becomes. -/
def State.airFrom (s : State) (c : Channel) (seg : Planned) : OnAir :=
  ⟨seg.content.airKind, seg.id, s.routes c seg.content, seg.content.player, seg.stop, seg.start⟩

/-- R147: the filler that starts in the place of a clip that is late at start. -/
def State.lateAir (s : State) (c : Channel) (seg : Planned) : OnAir :=
  ⟨.fill, seg.id, (s.cfg c).filler, none, seg.stop, seg.start⟩

/-- R147: a clip segment whose PLAY has not been sent is late at start. -/
def State.lateAtStart (s : State) (c : Channel) (seg : Planned) : Bool :=
  seg.content.player.isSome && s.playUnsent c seg.start

/-- R147: the segment that goes on air when a planned one starts. -/
def State.startsAs (s : State) (c : Channel) (seg : Planned) : OnAir :=
  if s.lateAtStart c seg then s.lateAir c seg else s.airFrom c seg

/-- R147, R159: the PLAY of a clip that is late at start is removed, CUE-LATE is set, and the filler crosspoint is placed due at
once, where the filler is not already the source of the segment before. -/
def State.removeLate (s : State) (c : Channel) (seg : Planned) : State :=
  match seg.content.player with
  | none => s
  | some p =>
    let t := (s.withdrawPlay c p seg.start).raise .cueLate c
    match (s.cfg c).filler with
    | some x => if (s.airOf c).bind (fun a => a.source) = some x then t else t.placeOnAir c s.now x
    | none => t

/-- R139: the players and the last clip player when a segment goes on air; `boundary`: it follows another segment. -/
def State.playersFor (s : State) (c : Channel) (a : OnAir) (boundary : Bool) : State :=
  let k := s.cue c
  s.putCue c { k with players := playersOnAir a.player k.players, lastClip := a.player.or k.lastClip, boundary := boundary }

/-- R147, R148: what is planned once a segment has started: a fresh join after a late start in STANDBY, otherwise the segment
after it, where none is planned; in RETURNING only one that starts before the return point. -/
def State.planAfterStart (s : State) (c : Channel) (late : Bool) : State :=
  match s.authority c with
  | .standby a =>
    if late then s.freshJoin c true
    else
      match a.stop, (s.cue c).planned with
      | some e, [] => s.planNext c e
      | _, _ => s
  | .returning _ _ point a =>
    match a.stop, (s.cue c).planned with
    | some e, [] => if before e point then s.planNext c e else s
    | _, _ => s
  | .main => s
  | .armed _ _ => s
  | .held _ _ => s

/-- R147: the planned segment at the head goes on air, with nothing planned after it yet. -/
def State.startHead (s : State) (c : Channel) (seg : Planned) : State :=
  let air := s.startsAs c seg
  let t := if s.lateAtStart c seg then s.removeLate c seg else s
  State.playersFor ((t.putPlanned c ((t.cue c).planned.drop 1)).amendAir c fun _ => air) c air true

/-- The planned segment that is to start at this switch-window event (R147); a RETURNING channel starts none at or after its return
point (R134). -/
def State.dueSegment (s : State) (c : Channel) : Option Planned :=
  match s.authority c with
  | .standby _ => (s.cue c).planned.head?.filter fun seg => atOrAfter s.now seg.start
  | .returning _ _ point _ => (s.cue c).planned.head?.filter fun seg => atOrAfter s.now seg.start && before s.now point
  | .main => none
  | .armed _ _ => none
  | .held _ _ => none

/-- SEGMENT_START (R147). -/
def execSegmentStart (c : Channel) (s : State) : Host.Outcome State Fault Refusal :=
  whenRunning s fun s =>
    match s.dueSegment c with
    | some seg => if s.cdu.windowEvent then (s.startHead c seg).planAfterStart c (s.lateAtStart c seg) else s
    | none => s

/-! ## A page change and an edit (R149, R150) -/

/-- The anchor becomes none. -/
def State.dropAnchor (s : State) (c : Channel) : State := s.putCue c { s.cue c with anchor := none }

/-- R150: a page-change indication. A segment due at this event is first started; a STANDBY channel then makes a fresh join on the
new page, with a bridge of kind GAP when one is needed. Filler in the place of a segment that is late at its start (R147) is itself the
bridge, and ends at the join's frame. -/
def State.pageChange (s : State) (c : Channel) : State :=
  match s.authority c with
  | .standby _ =>
    let t := match s.dueSegment c with
      | some seg => s.startHead c seg
      | none => s
    let u := (t.withdrawPlan c).dropAnchor c
    u.planJoin c ((s.dueSegment c).any fun seg => s.lateAtStart c seg) none (u.join c)
  | .main => s.dropAnchor c
  | .armed _ _ => s.dropAnchor c
  | .held _ _ => s.dropAnchor c
  | .returning _ _ _ _ => s.dropAnchor c

/-- The end of the segment before the last planned one: of the bridge, or of the segment on air. -/
def State.endBeforeLast (s : State) (c : Channel) : Option LocalFrame :=
  match (s.cue c).planned.dropLast.getLast? with
  | some seg => seg.stop
  | none => (s.airOf c).bind fun a => a.stop

/-- R149: the last planned segment is withdrawn and planned again, where it has no PLAY. -/
def State.replanLast (s : State) (c : Channel) (seg : Planned) : State :=
  match seg.content.player, s.endBeforeLast c with
  | none, some e =>
    let t := State.withdrawXp (s.putPlanned c (s.cue c).planned.dropLast) c seg.start
    t.planNext c e
  | _, _ => s

/-- R149: exhausted filler on air with no end. -/
def State.exhaustedOnAir (s : State) (c : Channel) : Bool :=
  (s.cue c).exhausted &&
    (match s.airOf c with
     | some a => a.stop.isNone && (a.kind == .gap || a.kind == .fill)
     | none => false)

/-- R149: a fresh join that is exhausted again sets LIST-EXHAUSTED and leaves the filler on air. -/
def State.rejoinExhausted (s : State) (c : Channel) : State :=
  let t := s.withdrawPlan c
  let j := t.join c
  if j.plan.exhausted then t.noteJoin c j else t.planJoin c true none j

/-- R149: the review of a STANDBY channel's plan after an edit. -/
def State.reviewPlan (s : State) (c : Channel) : State :=
  match s.authority c with
  | .standby _ =>
    if s.exhaustedOnAir c then s.rejoinExhausted c
    else
      match (s.cue c).planned.getLast? with
      | some seg => s.replanLast c seg
      | none => s
  | .main => s
  | .armed _ _ => s
  | .held _ _ => s
  | .returning _ _ _ _ => s

/-! ## Late and failed PLAYs (R153 to R156) -/

/-- R153, R154: a planned clip is replaced by filler standing in for its event, from its start to its end. -/
def State.fillInstead (s : State) (c : Channel) (seg : Planned) : State :=
  State.appendSegment (s.putPlanned c ((s.cue c).planned.filter fun x => x.start != seg.start)) c .fill seg.id seg.start
    seg.stop 1

/-- The planned clip that a PLAY entry is for. -/
def State.plannedFor (s : State) (x : CueEntry) : Option Planned :=
  (s.cue x.channel).planned.find? fun seg => seg.start == x.start && seg.content.player == some x.player

/-- R153: a late PLAY, its entry already removed. -/
def State.latePlay (s : State) (x : CueEntry) : State :=
  let c := x.channel
  let t := s.raise .cueLate c
  match t.authority c with
  | .armed o plan => if plan.start = x.start then t.rearmPlan c o plan (t.armingPlayer c) 1 else t
  | .standby _ => if (t.plannedFor x).isSome then t.freshJoin c false else t
  | .returning _ _ _ _ =>
    match t.plannedFor x with
    | some seg => t.fillInstead c seg
    | none => t
  | .main => t
  | .held _ _ => t

/-- R154: a failed PLAY may be retried: it was attempt 1 and the other player is free. -/
def State.mayRetry (s : State) (x : CueEntry) : Bool :=
  (match x.action with
   | .play _ _ attempt _ => attempt == 1
   | .cancel => false) && s.playerFree x.channel x.player.other

/-- R154 in ARMED. -/
def State.failArmed (s : State) (x : CueEntry) (o : Origin) (plan : JoinPlan) : State :=
  let c := x.channel
  let t := s.uncue c x.player
  if t.mayRetry x then t.rearmPlan c o plan x.player.other 2
  else
    let u := (t.withdrawXp c plan.start).raise .cueFailed c
    let filler := { plan with content := .filler, player := none }
    (u.putAuthority c (.armed o filler)).handOn c filler 1

/-- R154 in STANDBY and RETURNING. -/
def State.failPlanned (s : State) (x : CueEntry) (seg : Planned) : State :=
  let c := x.channel
  let t := (s.uncue c x.player).withdrawXp c seg.start
  if t.mayRetry x && (t.lookupPlace c seg.start).isSome then
    State.planAt (t.putPlanned c ((t.cue c).planned.filter fun y => y.start != seg.start)) c seg.start x.player.other 2
  else (t.raise .cueFailed c).fillInstead c seg

/-- R155, R134: at the frame at which filler would be switched in, the next planned segment has its start, or the return point has
come. -/
def State.switchTakenAt (s : State) (c : Channel) (f : LocalFrame) : Bool :=
  ((s.cue c).planned.head?.any fun seg => atOrAfter f seg.start) ||
    (match s.authority c with
     | .returning _ _ point _ => atOrAfter f point
     | .main => false
     | .armed _ _ => false
     | .standby _ => false
     | .held _ _ => false)

/-- R155: the clip on air becomes filler standing in for its event. -/
def State.failOnAir (s : State) (x : CueEntry) (a : OnAir) : State :=
  let c := x.channel
  let t := s.setPlayer c x.player .idle
  let u := t.amendAir c fun _ => { a with kind := .fill, source := (t.cfg c).filler, player := none }
  match (t.cfg c).filler with
  | some y => if s.switchTakenAt c s.nextWindowFrame then u else u.placeOnAir c s.nextWindowFrame y
  | none => u

/-- R155: a PLAY that fails after its segment's start; where that segment is no longer on air, only the flag is set. -/
def State.failStarted (s : State) (x : CueEntry) : State :=
  let t := s.raise .cueFailed x.channel
  match t.airOf x.channel with
  | some a => if a.player = some x.player ∧ a.start = x.start then t.failOnAir x a else t
  | none => t

/-- R154, R155: a failed PLAY, its entry already gone from the queue. -/
def State.failedPlay (s : State) (x : CueEntry) : State :=
  match s.authority x.channel, s.plannedFor x with
  | .armed o plan, _ => if plan.start = x.start ∧ plan.player = some x.player then s.failArmed x o plan else s.failStarted x
  | _, some seg => s.failPlanned x seg
  | _, none => s.failStarted x

/-! ## ML transactions (R151, R152) -/

/-- The message of an entry that is taken now; its send ends at the next frame start (R151). -/
def State.messageOf (s : State) (x : CueEntry) : MlMessage :=
  match x.action with
  | .play clipId media _ _ => .play x.address clipId media (x.start - (s.now + 1)).toNat
  | .cancel => .cancel x.address

/-- R151: a PLAY whose deadline is before the frame in progress. -/
def State.isLate (s : State) (x : CueEntry) : Bool := x.action.isPlay && before x.deadline s.now

/-- R151: the head entry is taken: handled as late, or its transaction begins. -/
def State.takeEntry (s : State) (x : CueEntry) (rest : List CueEntry) : State :=
  let t := s.putQueue rest
  if s.isLate x then t.latePlay x
  else t.putTxn (some ⟨x, false, .sending false, s.live.replyTimeout, s.messageOf x⟩)

/-- CUE_TAKE (R151). -/
def execCueTake (s : State) : Host.Outcome State Fault Refusal :=
  whenRunning s fun s =>
    match s.cus.txn, s.cus.queue with
    | none, x :: rest => s.takeEntry x rest
    | _, _ => s

/-- The planned segment of an entry has its crosspoint placed. -/
def State.markPlaced (s : State) (x : CueEntry) : State :=
  s.putPlanned x.channel ((s.cue x.channel).planned.map fun seg =>
    if seg.start = x.start ∧ seg.content.player = some x.player then { seg with placed := true } else seg)

/-- The source in use of the segment before the planned one that starts at a frame. -/
def State.sourceAhead (s : State) (c : Channel) (start : LocalFrame) : Option Nat :=
  match ((s.cue c).planned.takeWhile fun seg => seg.start != start).getLast? with
  | some seg => s.routes c seg.content
  | none => (s.airOf c).bind fun a => a.source

/-- R151, R159: the end of the send of a PLAY that is not withdrawn. -/
def State.playSent (s : State) (x : CueEntry) : State :=
  let t := s.setPlayer x.channel x.player .cued
  let source := s.playerSource x.channel x.player
  if s.sourceAhead x.channel x.start = some source then t
  else (t.placeOnAir x.channel x.start source).markPlaced x

/-- R151, R152: the end of a send. -/
def State.sendEnded (s : State) (t : Txn) : State :=
  let u := s.putTxn (some { t with phase := .awaiting t.replyTimeout })
  if t.entry.action.isPlay && !t.withdrawn then u.playSent t.entry else u

/-- CUE_SEND_END (R151), once the frame start at which the send ends has come. -/
def execCueSendEnd (s : State) : Host.Outcome State Fault Refusal :=
  whenRunning s fun s =>
    match s.cus.txn with
    | some t => if t.phase = .sending true then s.sendEnded t else s
    | none => s

/-- R152, R154 to R156: a transaction ends, and its entry leaves the queue. -/
def State.endTxn (s : State) (t : Txn) (ok : Bool) : State :=
  let u := s.putTxn none
  if t.entry.action.isPlay then
    if t.withdrawn then (if ok then u.queueCancel t.entry.channel t.entry.player else u)
    else if ok then u else u.failedPlay t.entry
  else u

/-- R152, R195: a reply from the address of the transaction in progress ends it. DESIGN CHOICE (log 45): where the message is still
being sent, a CUE-OK first brings about what the end of the send does (R151), so that the player is CUED and its crosspoint placed. -/
def State.replyTo (s : State) (t : Txn) (ok : Bool) : State := (if t.isSending && ok then s.sendEnded t else s).endTxn t ok

/-- CUE_REPLY (R152, R195): result 0 is CUE-OK. -/
def execCueReply (address result : Byte) (s : State) : Host.Outcome State Fault Refusal :=
  whenRunning s fun s =>
    match s.cus.txn with
    | some t => if t.entry.address == address.toNat then s.replyTo t (result == 0) else s
    | none => s

/-- CUE_REPLY_TIMEOUT (R152), once the wait has run out. -/
def execCueReplyTimeout (s : State) : Host.Outcome State Fault Refusal :=
  whenRunning s fun s =>
    match s.cus.txn with
    | some t => if t.phase = .awaiting 0 then s.endTxn t false else s
    | none => s

end Sys2Proof.Machine
end

