-- ==== Sys2Proof/Machine/Authority.lean ====
section
/-! DEFINITION. The Authority Table (chapter 6): changes of authority, readiness, arming, going to air, abort, holds and
returns. The requests of the site ports that use these stand in Requests.lean. -/

namespace Sys2Proof.Machine

/-! ## Changes of authority -/

/-- What follows every change of authority: TLc is re-evaluated (R160), AUTHORITY-CHANGE is set (R137), and a STANDBY REPORT
falls due (R86). -/
def State.announce (s : State) (c : Channel) : State := ((s.evalTally c).raise .authorityChange c).reportDue

/-- The authority of a channel changes. -/
def State.setAuthority (s : State) (c : Channel) (r : Authority) : State := (s.putAuthority c r).announce c

/-! ## Readiness (R115, R116) -/

/-- The outcome of the readiness test. -/
inductive Readiness where
  | ready
  | notReady
  | conflict
deriving DecidableEq, Repr

/-- Conditions 1 to 4 of R115. -/
def State.readyAlone (s : State) (c : Channel) : Bool :=
  (s.cfg c).enabled && (s.cfg c).policy != .never && s.stc.state != .unset
    && ((s.pages c).active.isSome || (s.cfg c).filler.isSome)

/-- Condition 5 of R115 fails: another channel on the same destination is off MAIN. -/
def State.destinationTaken (s : State) (c : Channel) : Bool :=
  channels.any fun d => d != c && (s.cfg d).destination == (s.cfg c).destination && !s.isMain d

/-- R115: not-ready goes before conflict. -/
def State.readiness (s : State) (c : Channel) : Readiness :=
  if s.readyAlone c then (if s.destinationTaken c then .conflict else .ready) else .notReady

/-! ## Arming (R117, R118, R121) -/

/-- R117: a channel is armed. -/
def State.arm (s : State) (c : Channel) (o : Origin) : State := (s.armPlan c o (s.armingPlayer c) 1).announce c

/-- A channel in MAIN is armed if it is ready, and has TAKEOVER-BLOCKED set if it is not (R118, R120, R121). -/
def State.armOrBlock (s : State) (c : Channel) (o : Origin) : State :=
  if s.readiness c = .ready then s.arm c o else s.raise .takeoverBlocked c

/-- R120, R121: one channel of a pass; a channel off MAIN is passed over. -/
def State.passOver (s : State) (o : Origin) (c : Channel) : State := if s.isMain c then s.armOrBlock c o else s

/-- R121: key arming. -/
def State.keyArming (s : State) : State := s.eachChannel fun s c => s.passOver .key c

/-! ## Going to air, and abort (R123 to R126) -/

/-- The first segment of a join plan as CUS starts it. -/
def JoinPlan.segment (p : JoinPlan) : Planned :=
  ⟨plannedContent p.content p.id (p.player.getD .A), p.id, p.start, p.stop, true⟩

/-- R123, R147: an ARMED channel goes to air. -/
def State.goToAir (s : State) (c : Channel) (p : JoinPlan) : State :=
  let seg := p.segment
  let late := s.lateAtStart c seg
  let air := s.startsAs c seg
  let t := if late then s.removeLate c seg else s
  ((t.setAuthority c (.standby air)).playersFor c air false).planAfterStart c late

/-- GO_TO_AIR (R123), at the switch-window event of jl. -/
def execGoToAir (c : Channel) (s : State) : Host.Outcome State Fault Refusal :=
  whenRunning s fun s =>
    match s.authority c with
    | .armed _ p => if s.cdu.windowEvent && atOrAfter s.now p.start then s.goToAir c p else s
    | .main => s
    | .standby _ => s
    | .held _ _ => s
    | .returning _ _ _ _ => s

/-- A channel becomes MAIN, and CUS withdraws its plan (R126, R135, R148). -/
def State.becomeMain (s : State) (c : Channel) : State := ((s.withdrawPlan c).cueToMain c).setAuthority c .main

/-- R126: an ARMED channel is aborted. -/
def State.abort (s : State) (c : Channel) (p : JoinPlan) : State := (s.withdrawSegment c p.player p.start).becomeMain c

/-! ## Hold, release and lapse (R128 to R132) -/

/-- R128: a STANDBY channel is held. -/
def State.hold (s : State) (c : Channel) (p : SitePort) (a : OnAir) : State :=
  (s.withdrawPlan c).setAuthority c (.held p a)

/-- R130: a source is routed on a HELD channel. -/
def State.route (s : State) (c : Channel) (holder : SitePort) (source : Nat) : State :=
  let t := s.placeOnAir c s.nextWindowFrame source
  let u := t.putAuthority c (.held holder ⟨.routed, 0, some source, none, none, s.now⟩)
  u.putCue c { u.cue c with players := playersOnAir none (u.cue c).players }

/-- R131: a HELD channel is armed again, without the readiness test. -/
def State.release (s : State) (c : Channel) : State := s.arm c .lapse

/-- R132: a hold lapses. -/
def State.lapse (s : State) (c : Channel) : State := (s.raise .holdLapsed c).release c

/-- The channel is HELD by a port. -/
def State.heldBy (s : State) (p : SitePort) (c : Channel) : Bool :=
  match s.authority c with
  | .held h _ => h == p
  | .main => false
  | .armed _ _ => false
  | .standby _ => false
  | .returning _ _ _ _ => false

/-- R132, R167: every hold of a port that has become SILENT lapses. -/
def State.lapseHolds (s : State) (p : SitePort) : State :=
  s.eachChannel fun s c => if s.heldBy p c then s.lapse c else s

/-! ## Return (R133 to R136) -/

/-- R134: the return point. -/
def returnPoint (now : LocalFrame) (mode : ReturnMode) (a : OnAir) : LocalFrame :=
  match mode, a.stop with
  | .nextBoundary, some e => if before now e then e else now + 1
  | .nextBoundary, none => now + 1
  | .now, _ => now + 1

/-- R133, R134, R148: a return is accepted. -/
def State.acceptReturn (s : State) (c : Channel) (prior : Prior) (mode : ReturnMode) (a : OnAir) : State :=
  let point := returnPoint s.now mode a
  let t := s.withdrawPlanned c fun seg => atOrAfter seg.start point
  (t.placeOnAir c point (t.cfg c).mainSource).setAuthority c (.returning prior mode point a)

/-- RETURN_COMPLETE (R135), at the switch-window event of the return point. -/
def execReturnComplete (c : Channel) (s : State) : Host.Outcome State Fault Refusal :=
  whenRunning s fun s =>
    match s.authority c with
    | .returning _ _ point _ => if s.cdu.windowEvent && atOrAfter s.now point then s.becomeMain c else s
    | .main => s
    | .armed _ _ => s
    | .standby _ => s
    | .held _ _ => s

/-- R148: CUS plans afresh when a return is aborted to STANDBY. -/
def State.resumePlan (s : State) (c : Channel) (a : OnAir) : State :=
  match (s.cue c).anchor, a.stop with
  | some _, some e => if before s.now e && (s.cue c).planned.isEmpty then s.planNext c e else s
  | _, _ => s.freshJoin c false

/-- The main return crosspoint is withdrawn and RETURN-ABORTED is set (R136). -/
def State.dropReturn (s : State) (c : Channel) (point : LocalFrame) : State := (s.withdrawXp c point).raise .returnAborted c

/-- R136, R132: a return is aborted. -/
def State.abortReturn (s : State) (c : Channel) (prior : Prior) (point : LocalFrame) (a : OnAir) : State :=
  let t := s.dropReturn c point
  match prior with
  | .standby => (t.setAuthority c (.standby a)).resumePlan c a
  | .held h =>
    let u := t.setAuthority c (.held h a)
    if (s.site h).live then u else u.lapse c

/-! ## Health changes that SUP hands over (R118, R124, R136) -/

/-- What AUT does at a change of a channel's health into `h`. -/
def State.healthReaction (s : State) (c : Channel) (h : Health) : State :=
  match s.authority c with
  | .main => if h = .failed ∧ (s.cfg c).policy = .auto then s.armOrBlock c .auto else s
  | .armed o p => if h = .good ∧ o = .auto then s.abort c p else s
  | .returning prior _ point a => if h = .good then s else s.abortReturn c prior point a
  | .standby _ => s
  | .held _ _ => s

end Sys2Proof.Machine
end

