-- ==== Sys2Proof/Machine/Clock.lean ====
section
/-! DEFINITION. The Station Clock (1.7 to 1.11): the wrap of the count, the turn record, heartbeat measurement, offset tracking,
holdover and SET TIME. -/

namespace Sys2Proof.Machine

/-- The Station Clock replaced. -/
def State.putStc (s : State) (k : Stc) : State := { s with stc := k }

/-! ## The wrap and the turn record (R14, R15) -/

/-- R15: W is added to O. -/
def State.addWrap (s : State) : State :=
  s.putStc { s.stc with offset := (s.stc.offset + wrapShift s.format) % wf s.format }

/-- The frame start at which the count wrapped has been taken by STC. -/
def State.wrapTaken (s : State) : State := { s with cdu := { s.cdu with wrapDue := false } }

/-- LOCAL_FRAME_WRAP (R15). -/
def execLocalFrameWrap (s : State) : Host.Outcome State Fault Refusal :=
  whenRunning s fun s => if s.cdu.wrapDue then s.addWrap.wrapTaken else s

/-- R14: the turn record's frame is more than 250 frames past. -/
def State.turnExpired (s : State) : Bool :=
  match s.stc.turn with
  | some t => 250 < frameDiff s.now t
  | none => false

/-- TURN_RECORD_EXPIRY (R14). -/
def execTurnRecordExpiry (s : State) : Host.Outcome State Fault Refusal :=
  whenRunning s fun s => if s.turnExpired then s.putStc { s.stc with turn := none } else s

/-! ## Measurement (R16) -/

/-- R16: the measured offset of a stamp with its arrival frame. -/
def State.measured (s : State) (stamp : Nat) (arrival : LocalFrame) : Nat :=
  let w := wf s.live.format
  let shift := if s.now.toNat < arrival.toNat then wrapShift s.live.format else 0
  (stamp + s.live.feedDelay + (w - arrival.toNat % w) + shift) % w

/-- The Station Clock with an offset taken whole and its tracking state cleared (R16, R18, R20). -/
def Stc.taken (m : Nat) (st : OffsetState) : Stc := ⟨m, st, none, none, 0, none⟩

/-! ## Tracking (R17, R18) -/

/-- The opposite slew direction. -/
def SlewDir.opposite : SlewDir → SlewDir
  | .up => .down
  | .down => .up

/-- R17: one slew step of O. -/
def slewed (f : Format) (o : Nat) : SlewDir → Nat
  | .up => (o + 1) % wf f
  | .down => (o + wf f - 1) % wf f

/-- R17: the step of a direction is a turn. -/
def Stc.turns (k : Stc) (d : SlewDir) : Bool := k.slew == some d.opposite

/-- R17: a slew step, with its turn and OFFSET-WANDER; the candidate count is cleared. -/
def State.slewStep (s : State) (d : SlewDir) : State :=
  let k := s.stc
  let t := s.putStc ⟨slewed s.live.format k.offset d, k.state, some d, if k.turns d then some s.now else k.turn, 0, none⟩
  if k.turns d && k.turn.isSome then t.raiseDevice .offsetWander else t

/-- R18: two measured offsets within one frame of each other. -/
def closeBy (f : Format) (a b : Nat) : Bool := (stationSigned f a b).natAbs ≤ 1

/-- R18: the step candidate count after one more candidate. -/
def Stc.counted (f : Format) (k : Stc) (m : Nat) : Nat :=
  match k.lastCandidate with
  | some l => if k.candidates = 0 then 1 else if closeBy f m l then k.candidates + 1 else 1
  | none => 1

/-- R18: a step candidate; the third that agrees steps O. -/
def State.candidate (s : State) (m : Nat) : State :=
  let n := s.stc.counted s.live.format m
  if 3 ≤ n then (s.putStc (Stc.taken m s.stc.state)).raiseDevice .offsetStep
  else s.putStc { s.stc with candidates := n, lastCandidate := some m }

/-- R17, R18: a heartbeat with measured offset `m` taken in LOCKED. -/
def State.track (s : State) (m : Nat) : State :=
  let e := stationSigned s.live.format m s.stc.offset
  if 25 < e.natAbs then s.candidate m
  else if 0 < e then s.slewStep .up
  else if e < 0 then s.slewStep .down
  else s.putStc { s.stc with candidates := 0, lastCandidate := none }

/-- R16: a matching heartbeat acts on the offset. -/
def State.takeStamp (s : State) (stamp : Nat) (arrival : LocalFrame) : State :=
  let m := s.measured stamp arrival
  match s.stc.state with
  | .unset => s.putStc (Stc.taken m .locked)
  | .set => s.putStc (Stc.taken m .locked)
  | .holdover => (s.putStc { s.stc with state := .locked }).track m
  | .locked => s.track m

/-! ## Holdover, SET TIME and a format change (R19 to R21) -/

/-- R19: both feed ports are SILENT. -/
def State.enterHoldover (s : State) : State :=
  if s.stc.state = .locked then s.putStc { s.stc with state := .holdover } else s

/-- R20: the offset that a station frame gives at the local frame in progress. -/
def State.offsetFor (s : State) (frame : Nat) : Nat := stationDiff s.format frame s.now.toNat

/-- R20: SET TIME is accepted. -/
def State.setStation (s : State) (frame : Nat) : State := s.putStc (Stc.taken (s.offsetFor frame) .set)

/-- R12, R21: a format change; O stays as it stood. -/
def State.unsetClock (s : State) : State := s.putStc (Stc.taken s.stc.offset .unset)

end Sys2Proof.Machine
end

