-- ==== Sys2Proof/Machine/Health.lean ====
section
/-! DEFINITION. The Supervision Unit (chapter 5) but for the scanner's windows: health, the feed watch timers and Link, the confirm
timer, and the takeover key. -/

namespace Sys2Proof.Machine

/-! ## Health (R105 to R109) -/

/-- The evaluated classes of R106; `failing` is the failing class. -/
inductive HealthClass where
  | good
  | suspect
  | isolated
  | off
  | failing
deriving DecidableEq, Repr

/-- R106. -/
def classOf (link : Bool) (air : Option AirReport) (p : Presence) : HealthClass :=
  match link, air, p with
  | true, some .ok, .absent => .suspect
  | true, some .ok, .present => .good
  | true, some .ok, .unscanned => .good
  | true, some .fault, .present => .suspect
  | true, some .fault, .absent => .failing
  | true, some .fault, .unscanned => .failing
  | true, some .off, _ => .off
  | true, none, .absent => .failing
  | true, none, .present => .isolated
  | true, none, .unscanned => .isolated
  | false, _, .absent => .failing
  | false, _, .present => .isolated
  | false, _, .unscanned => .isolated

/-- R107: the health state of a class that is not the failing class, and the health after the failing class is found. -/
def HealthClass.health (k : HealthClass) (old : Health) : Health :=
  match k with
  | .good => .good
  | .suspect => .suspect
  | .isolated => .isolated
  | .off => .off
  | .failing => if old = .failing ∨ old = .failed then old else .failing

/-- The evaluated class of a channel (R106). -/
def State.healthClass (s : State) (c : Channel) : HealthClass :=
  classOf s.linkUp (s.watched c).latestAir (s.watched c).presence

/-- The confirm timer as a channel's health changes (R107, R108). -/
def confirmAfter (setting : Nat) (h : Health) : Nat := if h = .failing then setting else 0

/-- A channel's health is made `h` (R107): the confirm timer is loaded on entry to FAILING and stopped otherwise. -/
def State.storeHealth (s : State) (c : Channel) (h : Health) : State :=
  s.putWatched c { s.watched c with health := h, confirm := confirmAfter (s.cfg c).confirm h }

/-- A change of a channel's health: HEALTH-CHANGE is set (R109), ALM is re-evaluated (R161), and the Authority Table is given the
new state. A health that stays as it was changes nothing. -/
def State.setHealth (s : State) (c : Channel) (h : Health) : State :=
  if (s.watched c).health = h then s
  else (((s.storeHealth c h).raiseHealth c h).evalAlarm).healthReaction c h

/-- R105: health is judged for a channel that is heard and enabled. -/
def State.judged (s : State) (c : Channel) : Bool := (s.watched c).heard && (s.cfg c).enabled

/-- An evaluation of a channel (R105 to R107). -/
def State.evaluate (s : State) (c : Channel) : State :=
  if s.judged c then s.setHealth c ((s.healthClass c).health (s.watched c).health) else s

/-- R105: a channel is enabled or disabled by its settings. -/
def State.enableChanged (s : State) (c : Channel) : State :=
  if (s.cfg c).enabled then s.evaluate c else s.setHealth c .unknown

/-- R110: CLEAR CHANNEL makes a channel not heard. -/
def State.unhear (s : State) (c : Channel) : State :=
  State.setHealth (s.putWatched c { s.watched c with heard := false }) c .unknown

/-- R110 leaves the confirm timer stopped; CONFIRM_EXPIRY (R108) is due when a FAILING channel's timer has reached 0. -/
def State.confirmDue (s : State) (c : Channel) : Bool := (s.watched c).health == .failing && (s.watched c).confirm == 0

/-- CONFIRM_EXPIRY (R108). -/
def execConfirmExpiry (c : Channel) (s : State) : Host.Outcome State Fault Refusal :=
  whenRunning s fun s => if s.confirmDue c then s.setHealth c .failed else s

/-! ## Feed watch timers and Link (R91 to R93) -/

/-- A feed watch replaced. -/
def State.putWatch (s : State) (p : FeedPort) (w : Watch) : State :=
  { s with sup := { s.sup with watch := s.sup.watch.put p w } }

/-- Every channel is evaluated. DESIGN CHOICE (log 27): in ascending order, at Link UP and at Link DOWN. -/
def State.evaluateAll (s : State) : State := s.eachChannel fun s c => s.evaluate c

/-- R93: at Link DOWN every latest air report and RESUME-READY is cleared. -/
def State.clearReports (s : State) : State :=
  s.eachChannel fun s c => s.putWatched c { s.watched c with latestAir := none, latestResume := none }

/-- R91 to R93: heartbeat seen on a port. -/
def State.heartbeatSeen (s : State) (p : FeedPort) : State :=
  let t := s.putWatch p ⟨true, s.live.hbTimeout⟩
  if s.linkUp then t else t.evaluateAll

/-- R91, R93: a port becomes SILENT. -/
def State.feedSilent (s : State) (p : FeedPort) : State :=
  let t := (s.putWatch p ⟨false, 0⟩).raiseDevice (.feedSilent p)
  if t.linkUp then t else t.enterHoldover.clearReports.evaluateAll

/-- R91: the watch timer of a LIVE port has reached 0. -/
def State.watchDue (s : State) (p : FeedPort) : Bool := (s.sup.watch.get p).live && (s.sup.watch.get p).timer == 0

/-- FEED_WATCH_EXPIRY (R91). -/
def execFeedWatchExpiry (port : FeedPort) (s : State) : Host.Outcome State Fault Refusal :=
  whenRunning s fun s => if s.watchDue port then s.feedSilent port else s

/-! ## Heartbeats at the Supervision Unit (R84, R105) -/

/-- R84, R105: one channel's air report and RESUME-READY are kept, and it is evaluated where that is a change of an input or makes
it heard. -/
def State.hearItem (s : State) (c : Channel) (x : HeartbeatItem) : State :=
  let k := s.watched c
  let t := s.putWatched c { k with heard := true, latestAir := some x.air, latestResume := some x.resumeReady }
  if k.heard && k.latestAir == some x.air then t else t.evaluate c

/-- R84, R105: every channel's items of a matching heartbeat. DESIGN CHOICE (log 27): in ascending order, the items of one channel kept and
that channel evaluated before the next one's are kept. -/
def State.hearHeartbeat (s : State) (h : Heartbeat) : State := s.eachChannel fun s c => s.hearItem c h.items[c]

/-! ## Presence samples (R100, R101) -/

/-- R101: a sample agrees with the presence state. -/
def Presence.agrees (p : Presence) (sample : Bool) : Bool :=
  match p with
  | .present => sample
  | .absent => !sample
  | .unscanned => false

/-- The presence state of a sample. -/
def presenceOf (sample : Bool) : Presence := if sample then .present else .absent

/-- R101: the run after a sample that disagrees. -/
def runAfter (r : Run) (sample : Bool) : Nat :=
  match r with
  | some (v, n) => if v = sample then n + 1 else 1
  | none => 1

/-- R101: the presence state and the run after a sample. -/
def afterSample (absenceCount : Nat) (p : Presence) (r : Run) (sample : Bool) : Presence × Run :=
  if p.agrees sample then (p, none)
  else if absenceCount ≤ runAfter r sample then (presenceOf sample, none)
  else (p, some (sample, runAfter r sample))

/-- R100, R101, R105: the sample of a channel's window is formed and applied. -/
def State.takeSample (s : State) (c : Channel) (count : Nat) : State :=
  let k := s.watched c
  let x := afterSample (s.cfg c).absenceCount k.presence k.run ((s.cfg c).threshold ≤ count)
  let t := s.putWatched c { k with presence := x.1, run := x.2, lastCount := some count, heard := true }
  if k.heard && x.1 == k.presence then t else t.evaluate c

/-- R96, R105: a channel removed from the scan mask. -/
def State.unscan (s : State) (c : Channel) : State :=
  let k := s.watched c
  let t := s.putWatched c { k with presence := .unscanned, run := none, lastCount := none }
  if k.presence = .unscanned then t else t.evaluate c

/-! ## The takeover key (R111) -/

/-- R111: the key filter after one sample; the count runs to 8, at which the level is accepted. DESIGN CHOICE (log 51): while an acceptance
is due, the count being 8, a sample of the other level leaves it due, and one equal to the accepted level sets the count to 0 and drops it. -/
def KeyFilter.sample (k : KeyFilter) (level : Bool) : KeyFilter :=
  if level = k.asserted then { k with count := 0 } else { k with count := min 8 (k.count + 1) }

/-- The key filter replaced. -/
def State.putKey (s : State) (k : KeyFilter) : State := { s with sup := { s.sup with key := k } }

/-- KEY_LEVEL_ACCEPTED (R111): an accepted assertion sets KEY-TAKEOVER and starts key arming. -/
def execKeyLevelAccepted (s : State) : Host.Outcome State Fault Refusal :=
  whenRunning s fun s =>
    if 8 ≤ s.sup.key.count then
      let level := !s.sup.key.asserted
      let t := s.putKey ⟨level, 0⟩
      if level then (t.raiseDevice .keyTakeover).keyArming else t
    else s

end Sys2Proof.Machine
end

