-- ==== Sys2Proof/Machine/Wire.lean ====
section
/-! DEFINITION. The byte formats of chapter 10: the frame check, the fields, the frames that the part receives (decoded) and
sends (encoded), and the controllers' encoding of site requests. Everything is total on any bytes. -/

namespace Sys2Proof.Machine

/-! ## The frame check (R189) -/

/-- One bit of the cyclic redundancy check with generator x^16 + x^12 + x^5 + 1. -/
def crcBit (r : BitVec 16) : BitVec 16 := if r.msb then (r <<< 1) ^^^ 0x1021#16 else r <<< 1

/-- One byte of the check, most significant bit first. -/
def crcByte (r : BitVec 16) (b : Byte) : BitVec 16 :=
  let x := r ^^^ ((b.setWidth 16) <<< 8)
  crcBit (crcBit (crcBit (crcBit (crcBit (crcBit (crcBit (crcBit x)))))))

/-- The check of some bytes: preset to FFFFh, not inverted. -/
def crc (bs : List Byte) : BitVec 16 := bs.foldl crcByte 0xFFFF#16

/-! ## Fields (R190) -/

/-- A two-byte field, most significant byte first. -/
def u16 (a b : Byte) : BitVec 16 := a ++ b

/-- A three-byte field. -/
def u24 (a b c : Byte) : BitVec 24 := (a ++ b) ++ c

/-- A four-byte field. -/
def u32 (a b c d : Byte) : BitVec 32 := (a ++ b) ++ (c ++ d)

/-- The bytes of a two-byte field. -/
def bytes16 (w : BitVec 16) : List Byte := [w.extractLsb' 8 8, w.extractLsb' 0 8]

/-- The bytes of a three-byte field. -/
def bytes24 (w : BitVec 24) : List Byte := [w.extractLsb' 16 8, w.extractLsb' 8 8, w.extractLsb' 0 8]

/-- The bytes of a four-byte field. -/
def bytes32 (w : BitVec 32) : List Byte :=
  [w.extractLsb' 24 8, w.extractLsb' 16 8, w.extractLsb' 8 8, w.extractLsb' 0 8]

/-- A number in one byte. -/
def nat8 (n : Nat) : List Byte := [BitVec.ofNat 8 n]

/-- A number in two bytes. -/
def nat16 (n : Nat) : List Byte := bytes16 (BitVec.ofNat 16 n)

/-- A number in four bytes. -/
def nat32 (n : Nat) : List Byte := bytes32 (BitVec.ofNat 32 n)

/-- A set-or-clear item (R193). -/
def flag8 (b : Bool) : List Byte := if b then [1] else [0]

/-- An optional field: a presence byte, then the field when it is present. -/
def optional {α : Type} (enc : α → List Byte) : Option α → List Byte
  | none => [0]
  | some x => 1 :: enc x

/-- A time field. -/
def labelBytes (t : Label) : List Byte := nat8 t.day ++ nat8 t.hh ++ nat8 t.mm ++ nat8 t.ss ++ nat8 t.ff

/-- A time field as received. -/
def timeBytes (t : TimeBytes) : List Byte := [t.day, t.hh, t.mm, t.ss, t.ff]

/-- The label that a time field gives (R190). -/
def labelOf (t : TimeBytes) : Label := ⟨t.day.toNat, t.hh.toNat, t.mm.toNat, t.ss.toNat, t.ff.toNat⟩

/-! ## Taking fields off a body -/

/-- One byte. -/
def take8 : List Byte → Option (Byte × List Byte)
  | a :: bs => some (a, bs)
  | [] => none

/-- A two-byte field. -/
def take16 : List Byte → Option (BitVec 16 × List Byte)
  | a :: b :: bs => some (u16 a b, bs)
  | _ => none

/-- A three-byte field. -/
def take24 : List Byte → Option (BitVec 24 × List Byte)
  | a :: b :: c :: bs => some (u24 a b c, bs)
  | _ => none

/-- A four-byte field. -/
def take32 : List Byte → Option (BitVec 32 × List Byte)
  | a :: b :: c :: d :: bs => some (u32 a b c d, bs)
  | _ => none

/-- A time field. -/
def takeTime : List Byte → Option (TimeBytes × List Byte)
  | a :: b :: c :: d :: e :: bs => some (⟨a, b, c, d, e⟩, bs)
  | _ => none

/-- An optional field: a presence byte other than 00h or 01h gives no form (R190). -/
def takeOptional {α : Type} (p : List Byte → Option (α × List Byte)) (bs : List Byte) :
    Option (Option α × List Byte) :=
  match bs with
  | [] => none
  | b :: rest =>
    if b = 0 then some (none, rest)
    else if b = 1 then
      match p rest with
      | some (x, r) => some (some x, r)
      | none => none
    else none

/-- An item that a presence mask announces (10.3, "The channel settings record"). -/
def takeIf {α : Type} (present : Bool) (p : List Byte → Option (α × List Byte)) (bs : List Byte) :
    Option (Option α × List Byte) :=
  if present then
    match p bs with
    | some (x, r) => some (some x, r)
    | none => none
  else some (none, bs)

/-- A field of `n` bytes. -/
def takeBytes : Nat → List Byte → Option (List Byte × List Byte)
  | 0, bs => some ([], bs)
  | _ + 1, [] => none
  | n + 1, b :: bs =>
    match takeBytes n bs with
    | some (x, r) => some (b :: x, r)
    | none => none

/-- R190: the body must end exactly where its form ends. -/
def whole {α : Type} (p : List Byte → Option (α × List Byte)) (bs : List Byte) : Option α :=
  match p bs with
  | some (x, []) => some x
  | _ => none

/-! ## Feed frames (10.2) -/

/-- An event record (10.2). -/
def takeRecord (bs : List Byte) : Option (EventRecord × List Byte) := do
  let (id, bs) ← take32 bs
  let (mode, bs) ← take8 bs
  let (kind, bs) ← take8 bs
  let (policy, bs) ← take8 bs
  let (dur, bs) ← take32 bs
  let (start, bs) ← takeOptional takeTime bs
  let (trim, bs) ← takeOptional take24 bs
  let (live, bs) ← takeOptional take8 bs
  let (len, bs) ← take8 bs
  let (clip, bs) ← takeBytes len.toNat bs
  some (⟨id, mode, kind, policy, dur, start, trim, live, clip⟩, bs)

/-- The bytes of an event record. -/
def recordBytes (r : EventRecord) : List Byte :=
  bytes32 r.id ++ [r.startMode, r.kind, r.policy] ++ bytes32 r.duration ++ optional timeBytes r.start
    ++ optional bytes24 r.trim ++ optional (fun b => [b]) r.live ++ nat8 r.clipId.length ++ r.clipId

/-- R191: an EDIT whose operation byte is not 1, 2 or 3 has no form. -/
def takeEdit (bs : List Byte) : Option (EditOp × List Byte) := do
  let (op, bs) ← take8 bs
  let (id, bs) ← take32 bs
  if op = 1 then
    let (r, bs) ← takeRecord bs
    some (.insertAfter id r, bs)
  else if op = 2 then
    let (r, bs) ← takeRecord bs
    some (.replace id r, bs)
  else if op = 3 then some (.delete id, bs)
  else none

/-- R191: the air report of a status byte; code 3 is taken as FAULT. -/
def airOf (status : Byte) : AirReport :=
  if status &&& 3 = 0 then .ok else if status &&& 3 = 2 then .off else .fault

/-- One channel's five bytes of a HEARTBEAT. -/
def takeItem (bs : List Byte) : Option (HeartbeatItem × List Byte) := do
  let (status, bs) ← take8 bs
  let (id, bs) ← take32 bs
  some (⟨airOf status, status.getLsbD 2, id⟩, bs)

/-- `n` channels' items of a HEARTBEAT. -/
def takeItems : Nat → List Byte → Option (List HeartbeatItem × List Byte)
  | 0, bs => some ([], bs)
  | n + 1, bs => do
    let (x, bs) ← takeItem bs
    let (xs, bs) ← takeItems n bs
    some (x :: xs, bs)

/-- The HEARTBEAT body of 65 bytes. -/
def takeHeartbeat (bs : List Byte) : Option (Heartbeat × List Byte) := do
  let (stamp, bs) ← take32 bs
  let (fmt, bs) ← take8 bs
  let (xs, bs) ← takeItems 12 bs
  if h : xs.length = 12 then some (⟨stamp, fmt, Vector.mk xs.toArray (by simpa using h)⟩, bs) else none

/-- What follows the channel and the sequence number in a replication frame, by its type (10.2). -/
def takeFeedBody (frameType : Byte) (bs : List Byte) : Option FeedBody :=
  match frameType.toNat with
  | 0x01 => whole (fun bs => do
      let (serial, bs) ← take16 bs
      let (day, bs) ← take8 bs
      let (n, bs) ← take16 bs
      some (FeedBody.listBegin serial day n, bs)) bs
  | 0x02 => (whole takeRecord bs).map .event
  | 0x03 => whole (fun bs => do
      let (serial, bs) ← take16 bs
      let (n, bs) ← take16 bs
      some (FeedBody.listEnd serial n, bs)) bs
  | 0x04 => if bs.isEmpty then some .listAbort else none
  | 0x05 => (whole takeEdit bs).map .edit
  | 0x06 => (whole takeTime bs).map .flip
  | _ => none

/-- R69: a channel number above 11 is discarded. -/
def channelOf (b : Byte) : Option Channel := if h : b.toNat < 12 then some ⟨b.toNat, h⟩ else none

/-- R69, R190, R191: the frame that a type and a body give; none where the frame is to be discarded with FEED-CHECK. -/
def feedFrame (frameType : Byte) (body : List Byte) : Option FeedFrame :=
  if frameType = 0x08 then (whole takeHeartbeat body).map .heartbeat
  else
    match body with
    | ch :: s1 :: s2 :: rest =>
      match channelOf ch, takeFeedBody frameType rest with
      | some c, some b => some (.replication c (u16 s1 s2) b)
      | _, _ => none
    | _ => none

/-- R189: the check of a frame is computed over type, length and body. -/
def frameCheck (frameType : Byte) (body : List Byte) : BitVec 16 :=
  crc (frameType :: (nat16 body.length ++ body))

/-- R189: a frame passes its check; a length above 512 is one that fails. -/
def checkPasses (frameType : Byte) (body : List Byte) (check : BitVec 16) : Bool :=
  bodyFits body && frameCheck frameType body == check

/-- R69 to R71: what a completed frame gives: none where it is discarded with FEED-CHECK. -/
def checkedFeedFrame (frameType : Byte) (body : List Byte) (check : BitVec 16) : Option FeedFrame :=
  if checkPasses frameType body check then feedFrame frameType body else none

/-- The type byte of an edit operation's body. -/
def editBytes : EditOp → List Byte
  | .insertAfter id r => 1 :: (bytes32 id ++ recordBytes r)
  | .replace id r => 2 :: (bytes32 id ++ recordBytes r)
  | .delete id => 3 :: bytes32 id

/-- The type of a replication frame and what follows its channel and sequence number. -/
def feedBodyBytes : FeedBody → Byte × List Byte
  | .listBegin serial day n => (0x01, bytes16 serial ++ day :: bytes16 n)
  | .event r => (0x02, recordBytes r)
  | .listEnd serial n => (0x03, bytes16 serial ++ bytes16 n)
  | .listAbort => (0x04, [])
  | .edit op => (0x05, editBytes op)
  | .flip t => (0x06, timeBytes t)

/-- The status byte of a heartbeat item. -/
def statusByte (x : HeartbeatItem) : Byte :=
  (match x.air with | .ok => 0#8 | .fault => 1#8 | .off => 2#8) ||| (if x.resumeReady then 4#8 else 0#8)

/-- The main site's encoding of a feed frame: type and body. -/
def feedFrameBytes : FeedFrame → Byte × List Byte
  | .replication c seq b => ((feedBodyBytes b).1, BitVec.ofNat 8 c.val :: (bytes16 seq ++ (feedBodyBytes b).2))
  | .heartbeat h =>
    (0x08, bytes32 h.stamp ++ h.format :: h.items.list.flatMap fun x => statusByte x :: bytes32 x.onAir)

/-! ## Site requests (10.3, R192) -/

/-- A request from its body after the tag. -/
def requestOf {α : Type} (p : List Byte → Option (α × List Byte)) (tag : Tag) (rest : List Byte) : Request α :=
  match whole p rest with
  | some x => .formed tag x
  | none => .malformed tag

/-- A body with no fields. -/
def takeNothing (bs : List Byte) : Option (Unit × List Byte) := some ((), bs)

/-- EVENT. -/
def takeEventRead (bs : List Byte) : Option (EventReadFields × List Byte) := do
  let (c, bs) ← take8 bs
  let (p, bs) ← take8 bs
  let (i, bs) ← take16 bs
  some (⟨c, p, i⟩, bs)

/-- RETURN. -/
def takeReturn (bs : List Byte) : Option (ReturnFields × List Byte) := do
  let (c, bs) ← take8 bs
  let (m, bs) ← take8 bs
  some (⟨c, m⟩, bs)

/-- ROUTE. -/
def takeRoute (bs : List Byte) : Option (RouteFields × List Byte) := do
  let (c, bs) ← take8 bs
  let (x, bs) ← take16 bs
  some (⟨c, x⟩, bs)

/-- The channel settings record: a presence mask, then the items present, in order. A mask with bit 15 set is refused with BAD-VALUE
(R194); DEDUCED (log 15): as a body that disagrees with its form, at step 2 of R168. -/
def takeItemsRecord (bs : List Byte) : Option (ChannelItems × List Byte) := do
  let (m, bs) ← take16 bs
  if m.getLsbD 15 then none
  else
    let (i0, bs) ← takeIf (m.getLsbD 0) take8 bs
    let (i1, bs) ← takeIf (m.getLsbD 1) take8 bs
    let (i2, bs) ← takeIf (m.getLsbD 2) take8 bs
    let (i3, bs) ← takeIf (m.getLsbD 3) take16 bs
    let (i4, bs) ← takeIf (m.getLsbD 4) take16 bs
    let (i5, bs) ← takeIf (m.getLsbD 5) take8 bs
    let (i6, bs) ← takeIf (m.getLsbD 6) take16 bs
    let (i7, bs) ← takeIf (m.getLsbD 7) take8 bs
    let (i8, bs) ← takeIf (m.getLsbD 8) take16 bs
    let (i9, bs) ← takeIf (m.getLsbD 9) take8 bs
    let (i10, bs) ← takeIf (m.getLsbD 10) take8 bs
    let (i11, bs) ← takeIf (m.getLsbD 11) take16 bs
    let (i12, bs) ← takeIf (m.getLsbD 12) take8 bs
    let (i13, bs) ← takeIf (m.getLsbD 13) take16 bs
    let (i14, bs) ← takeIf (m.getLsbD 14) take8 bs
    some (⟨i0, i1, i2, i3, i4, i5, i6, i7, i8, i9, i10, i11, i12, i13, i14⟩, bs)

/-- CONFIGURE CHANNEL. -/
def takeConfigureChannel (bs : List Byte) : Option (ConfigureChannelFields × List Byte) := do
  let (c, bs) ← take8 bs
  let (x, bs) ← takeItemsRecord bs
  some (⟨c, x⟩, bs)

/-- CONFIGURE CADENCE. -/
def takeCadence (bs : List Byte) : Option (CadenceItems × List Byte) := do
  let (a, bs) ← takeOptional take8 bs
  let (b, bs) ← takeOptional take8 bs
  let (c, bs) ← takeOptional take8 bs
  let (d, bs) ← takeOptional take8 bs
  some (⟨a, b, c, d⟩, bs)

/-- CONFIGURE PORTS. -/
def takePorts (bs : List Byte) : Option (PortItems × List Byte) := do
  let (a, bs) ← takeOptional take16 bs
  let (b, bs) ← takeOptional take8 bs
  let (c, bs) ← takeOptional take16 bs
  let (d, bs) ← takeOptional take8 bs
  some (⟨a, b, c, d⟩, bs)

/-- CONFIGURE SCAN. -/
def takeScan (bs : List Byte) : Option (ScanItems × List Byte) := do
  let (a, bs) ← takeOptional take8 bs
  let (b, bs) ← takeOptional take8 bs
  let (c, bs) ← takeOptional take8 bs
  let (d, bs) ← takeOptional take16 bs
  some (⟨a, b, c, d⟩, bs)

/-- FEED ENABLE. -/
def takeFeedEnable (bs : List Byte) : Option (FeedEnableFields × List Byte) := do
  let (a, bs) ← take8 bs
  let (b, bs) ← take8 bs
  some (⟨a, b⟩, bs)

/-- `n` names of CLEAR FLAGS. -/
def takeNames : Nat → List Byte → Option (List FlagName × List Byte)
  | 0, bs => some ([], bs)
  | n + 1, bs => do
    let (k, bs) ← take8 bs
    let (c, bs) ← take8 bs
    let (xs, bs) ← takeNames n bs
    some (⟨k, c⟩ :: xs, bs)

/-- CLEAR FLAGS: a count in two bytes (R190), then the names. -/
def takeClearFlags (bs : List Byte) : Option (List FlagName × List Byte) := do
  let (n, bs) ← take16 bs
  takeNames n.toNat bs

/-- SET ALARM MASK. -/
def takeAlarmMask (bs : List Byte) : Option (AlarmMaskFields × List Byte) := do
  let (m, bs) ← take32 bs
  let (p, bs) ← takeOptional take8 bs
  some (⟨m, p⟩, bs)

/-- TAKE: channel byte FFh names ALL. -/
def takeRequest (p : SitePort) (tag : Tag) (rest : List Byte) : Instr :=
  match requestOf take8 tag rest with
  | .formed t ch => if ch = 0xFF then .takeAll p t else .take p (.formed t ch)
  | .malformed t => .take p (.malformed t)

/-- The command that a valid site frame's code, tag and remaining body give. -/
def siteRequest (p : SitePort) (code : Byte) (tag : Tag) (rest : List Byte) : Instr :=
  match code.toNat with
  | 0x20 => .status p (requestOf takeNothing tag rest)
  | 0x21 => .channel p (requestOf take8 tag rest)
  | 0x22 => .eventRead p (requestOf takeEventRead tag rest)
  | 0x23 => .clock p (requestOf takeNothing tag rest)
  | 0x24 => .flags p (requestOf takeNothing tag rest)
  | 0x25 => takeRequest p tag rest
  | 0x26 => .cancel p (requestOf take8 tag rest)
  | 0x27 => .hold p (requestOf take8 tag rest)
  | 0x28 => .release p (requestOf take8 tag rest)
  | 0x29 => .returnToMain p (requestOf takeReturn tag rest)
  | 0x2A => .route p (requestOf takeRoute tag rest)
  | 0x2B => .setTime p (requestOf takeTime tag rest)
  | 0x2C => .configureChannel p (requestOf takeConfigureChannel tag rest)
  | 0x2D => .configureCadence p (requestOf takeCadence tag rest)
  | 0x2E => .configurePorts p (requestOf takePorts tag rest)
  | 0x2F => .configureScan p (requestOf takeScan tag rest)
  | 0x30 => .scanStart p (requestOf takeNothing tag rest)
  | 0x31 => .scanStop p (requestOf takeNothing tag rest)
  | 0x32 => .feedEnable p (requestOf takeFeedEnable tag rest)
  | 0x33 => .clearChannel p (requestOf take8 tag rest)
  | 0x34 => .clearFlags p (requestOf takeClearFlags tag rest)
  | 0x35 => .setNoticeMask p (requestOf take32 tag rest)
  | 0x36 => .setAlarmMask p (requestOf takeAlarmMask tag rest)
  | 0x37 => .save p (requestOf takeNothing tag rest)
  | 0x38 => .keepalive p (requestOf takeNothing tag rest)
  | _ => .unknownRequest p code tag

/-- R192: a frame whose body is shorter than two bytes has no tag, and the answer carries tag 0000h. -/
def shortRequest (p : SitePort) (code : Byte) : Instr :=
  match code.toNat with
  | 0x20 => .status p (.malformed 0)
  | 0x21 => .channel p (.malformed 0)
  | 0x22 => .eventRead p (.malformed 0)
  | 0x23 => .clock p (.malformed 0)
  | 0x24 => .flags p (.malformed 0)
  | 0x25 => .take p (.malformed 0)
  | 0x26 => .cancel p (.malformed 0)
  | 0x27 => .hold p (.malformed 0)
  | 0x28 => .release p (.malformed 0)
  | 0x29 => .returnToMain p (.malformed 0)
  | 0x2A => .route p (.malformed 0)
  | 0x2B => .setTime p (.malformed 0)
  | 0x2C => .configureChannel p (.malformed 0)
  | 0x2D => .configureCadence p (.malformed 0)
  | 0x2E => .configurePorts p (.malformed 0)
  | 0x2F => .configureScan p (.malformed 0)
  | 0x30 => .scanStart p (.malformed 0)
  | 0x31 => .scanStop p (.malformed 0)
  | 0x32 => .feedEnable p (.malformed 0)
  | 0x33 => .clearChannel p (.malformed 0)
  | 0x34 => .clearFlags p (.malformed 0)
  | 0x35 => .setNoticeMask p (.malformed 0)
  | 0x36 => .setAlarmMask p (.malformed 0)
  | 0x37 => .save p (.malformed 0)
  | 0x38 => .keepalive p (.malformed 0)
  | _ => .unknownRequest p code 0

/-- R192: the command that a site frame which passes its check gives. -/
def siteCommand (p : SitePort) (code : Byte) (body : List Byte) : Instr :=
  match body with
  | t1 :: t2 :: rest => siteRequest p code (u16 t1 t2) rest
  | _ => shortRequest p code

/-- The items of a channel settings record that are present, in order, under their presence mask. -/
def itemsRecordBytes (x : ChannelItems) : List Byte :=
  let bit (present : Bool) (i : Nat) : Nat := if present then 2 ^ i else 0
  let one (v : Option Byte) : List Byte := v.toList
  let two (v : Option (BitVec 16)) : List Byte := v.toList.flatMap bytes16
  nat16 (bit x.enable.isSome 0 + bit x.policy.isSome 1 + bit x.destination.isSome 2 + bit x.mainSource.isSome 3
      + bit x.filler.isSome 4 + bit x.addressA.isSome 5 + bit x.sourceA.isSome 6 + bit x.addressB.isSome 7
      + bit x.sourceB.isSome 8 + bit x.cueLead.isSome 9 + bit x.minRemain.isSome 10 + bit x.threshold.isSome 11
      + bit x.absenceCount.isSome 12 + bit x.confirm.isSome 13 + bit x.tallyPolarity.isSome 14)
    ++ one x.enable ++ one x.policy ++ one x.destination ++ two x.mainSource ++ two x.filler ++ one x.addressA
    ++ two x.sourceA ++ one x.addressB ++ two x.sourceB ++ one x.cueLead ++ one x.minRemain ++ two x.threshold
    ++ one x.absenceCount ++ two x.confirm ++ one x.tallyPolarity

/-- A stored record as bytes, in the order and the widths of the channel settings record (R194). -/
def storedBytes (r : StoredChannel) : List Byte :=
  [r.enable, r.policy, r.destination] ++ bytes16 r.mainSource ++ bytes16 r.filler ++ [r.addressA] ++ bytes16 r.sourceA
    ++ [r.addressB] ++ bytes16 r.sourceB ++ [r.cueLead, r.minRemain] ++ bytes16 r.threshold ++ [r.absenceCount]
    ++ bytes16 r.confirm ++ [r.tallyPolarity]

/-- One optional byte. -/
def opt8 (v : Option Byte) : List Byte := optional (fun b => [b]) v

/-- One optional two-byte field. -/
def opt16 (v : Option (BitVec 16)) : List Byte := optional bytes16 v

/-- The body of a formed request: its tag, then its fields. -/
def formedBody {α : Type} (enc : α → List Byte) : Request α → Option (List Byte)
  | .formed tag x => some (bytes16 tag ++ enc x)
  | .malformed _ => none

/-- A controller's encoding of a site request: code and body. None for a command that is no request frame, and for a
malformed body. -/
def siteBytes : Instr → Option (Byte × List Byte)
  | .status _ r => (formedBody (fun _ => []) r).map (0x20, ·)
  | .channel _ r => (formedBody (fun c => [c]) r).map (0x21, ·)
  | .eventRead _ r => (formedBody (fun x => [x.channel, x.page] ++ bytes16 x.index) r).map (0x22, ·)
  | .clock _ r => (formedBody (fun _ => []) r).map (0x23, ·)
  | .flags _ r => (formedBody (fun _ => []) r).map (0x24, ·)
  | .take _ r => (formedBody (fun c => [c]) r).map (0x25, ·)
  | .takeAll _ tag => some (0x25, bytes16 tag ++ [0xFF])
  | .cancel _ r => (formedBody (fun c => [c]) r).map (0x26, ·)
  | .hold _ r => (formedBody (fun c => [c]) r).map (0x27, ·)
  | .release _ r => (formedBody (fun c => [c]) r).map (0x28, ·)
  | .returnToMain _ r => (formedBody (fun x => [x.channel, x.mode]) r).map (0x29, ·)
  | .route _ r => (formedBody (fun x => x.channel :: bytes16 x.source) r).map (0x2A, ·)
  | .setTime _ r => (formedBody timeBytes r).map (0x2B, ·)
  | .configureChannel _ r => (formedBody (fun x => x.channel :: itemsRecordBytes x.items) r).map (0x2C, ·)
  | .configureCadence _ r =>
    (formedBody (fun x => opt8 x.format ++ opt8 x.swFirst ++ opt8 x.swLast ++ opt8 x.manualLock) r).map (0x2D, ·)
  | .configurePorts _ r =>
    (formedBody (fun x => opt16 x.hbTimeout ++ opt8 x.feedDelay ++ opt16 x.siteTimeout ++ opt8 x.replyTimeout) r).map
      (0x2E, ·)
  | .configureScan _ r =>
    (formedBody (fun x => opt8 x.resolution ++ opt8 x.mode ++ opt8 x.sweepRepeat ++ opt16 x.mask) r).map (0x2F, ·)
  | .scanStart _ r => (formedBody (fun _ => []) r).map (0x30, ·)
  | .scanStop _ r => (formedBody (fun _ => []) r).map (0x31, ·)
  | .feedEnable _ r => (formedBody (fun x => [x.port, x.setting]) r).map (0x32, ·)
  | .clearChannel _ r => (formedBody (fun c => [c]) r).map (0x33, ·)
  | .clearFlags _ r =>
    (formedBody (fun xs => nat16 xs.length ++ xs.flatMap fun n => [n.kind, n.channel]) r).map (0x34, ·)
  | .setNoticeMask _ r => (formedBody bytes32 r).map (0x35, ·)
  | .setAlarmMask _ r => (formedBody (fun x => bytes32 x.mask ++ opt8 x.polarity) r).map (0x36, ·)
  | .save _ r => (formedBody (fun _ => []) r).map (0x37, ·)
  | .keepalive _ r => (formedBody (fun _ => []) r).map (0x38, ·)
  | .unknownRequest _ _ _ => none
  | .powerOnReset => none
  | .nrstAccepted => none
  | .resetEnd => none
  | .refLinePulse => none
  | .refFramePulse => none
  | .lineSilence => none
  | .missingFramePulse => none
  | .rePhasing _ => none
  | .frameStart _ => none
  | .switchWindowEvent => none
  | .localFrameWrap => none
  | .turnRecordExpiry => none
  | .feedFrameCompletion _ _ _ _ => none
  | .partialFrameAbandon _ => none
  | .listBegin => none
  | .event => none
  | .listEnd => none
  | .listAbort => none
  | .insertAfter => none
  | .replace => none
  | .delete => none
  | .flip => none
  | .heartbeat => none
  | .commitStart => none
  | .commitEnd => none
  | .editComplete => none
  | .flipPerform _ => none
  | .reportTimerExpiry => none
  | .reportTransmitEnd _ => none
  | .feedWatchExpiry _ => none
  | .presencePulse _ _ => none
  | .windowEnd => none
  | .sweepStart => none
  | .confirmExpiry _ => none
  | .keyLevelAccepted => none
  | .goToAir _ => none
  | .returnComplete _ => none
  | .segmentStart _ => none
  | .cueTake => none
  | .cueSendEnd => none
  | .cueReply _ _ => none
  | .cueReplyTimeout => none
  | .crosspointIssue => none
  | .crosspointAck _ _ _ => none
  | .crosspointAckTimeout _ => none
  | .siteFrameCheckFail _ => none
  | .siteSilenceExpiry _ => none
  | .answerTransmitBegin _ => none
  | .noticeTransmitBegin _ => none
  | .siteTransmitEnd _ => none
  | .saveComplete _ => none

/-! ## A completed frame on any line -/

/-- The command that a completed frame gives on its line: a feed frame completes as it is (R68); a site frame gives its
request, or the discarding of a failed check (R164); a reply or an acknowledgement whose check and form hold gives its
command, and any other frame on ML or XL is discarded (R189, R190, R195). -/
def lineCommand (l : LineId) (frameType : Byte) (body : List Byte) (check : BitVec 16) : Option Instr :=
  match l with
  | .fa => some (.feedFrameCompletion .A frameType body check)
  | .fb => some (.feedFrameCompletion .B frameType body check)
  | .sa => some (if checkPasses frameType body check then siteCommand .A frameType body else .siteFrameCheckFail .A)
  | .sb => some (if checkPasses frameType body check then siteCommand .B frameType body else .siteFrameCheckFail .B)
  | .ml =>
    match body with
    | [a, r] => if checkPasses frameType body check && frameType == 0x58 then some (.cueReply a r) else none
    | _ => none
  | .xl =>
    match body with
    | [d, x, r] => if checkPasses frameType body check && frameType == 0x68 then some (.crosspointAck d x r) else none
    | _ => none

/-- What one more byte does to a receive stage (R189): its new contents, and the completed frame, if the byte was its
last: type, body and check, or none for a length above 512. -/
def RxStage.byte (r : RxStage) (b : Byte) : RxStage × Option (Option (Byte × List Byte × BitVec 16)) :=
  match r with
  | .waiting => if b = 0xA5 then (.gathering [] true false, none) else (.waiting, none)
  | .gathering got _ _ =>
    let all := got ++ [b]
    match all with
    | ty :: l1 :: l2 :: rest =>
      let len := (u16 l1 l2).toNat
      if 512 < len then (.waiting, some none)
      else if rest.length = len + 2 then
        match rest.drop len with
        | [c1, c2] => (.waiting, some (some (ty, rest.take len, u16 c1 c2)))
        | _ => (.waiting, some none)
      else (.gathering all true false, none)
    | _ => (.gathering all true false, none)

/-! ## Frames that the part sends -/

/-- The GSL envelope round a type and a body (R189). -/
def envelope (frameType : Byte) (body : List Byte) : List Byte :=
  0xA5 :: frameType :: (nat16 body.length ++ body ++ bytes16 (frameCheck frameType body))

/-- The code of an authority (10.2). -/
def AuthorityName.code : AuthorityName → Nat
  | .main => 0
  | .armed => 1
  | .standby => 2
  | .held => 3
  | .returning => 4

/-- The code of a next-page state (10.2). -/
def NextPageName.code : NextPageName → Nat
  | .empty => 0
  | .loading => 1
  | .loadingBroken => 0x81
  | .committing => 2
  | .ready => 3

/-- The nine bytes of one channel in a STANDBY REPORT. -/
def ReportItem.bytes (x : ReportItem) : List Byte :=
  nat8 x.authority.code ++ bytes32 x.onAir ++ nat8 x.nextPage.code
    ++ (match x.baseline with | none => [0, 0, 0] | some q => 1 :: bytes16 q)

/-- The body of a STANDBY REPORT, 109 bytes. -/
def Report.bytes (r : Report) : List Byte := flag8 r.commitBusy ++ r.items.list.flatMap ReportItem.bytes

/-- A STANDBY REPORT as sent. -/
def Report.frame (r : Report) : List Byte := envelope 0x10 r.bytes

/-- The code of an answer (10.3). -/
def AnswerCode.code : AnswerCode → Nat
  | .done => 0
  | .clamped => 1
  | .busy => 2
  | .locked => 3
  | .notReady => 4
  | .heldElsewhere => 5
  | .conflict => 6
  | .noChannel => 7
  | .badValue => 8
  | .badTime => 9
  | .wrongState => 10
  | .unknownRequest => 11

/-- An answer as sent. -/
def Answer.frame (a : Answer) : List Byte :=
  envelope 0x80 (bytes16 a.tag ++ a.request :: (nat8 a.code.code ++ a.result))

/-- A notice as sent: ten bytes of body, or five when station now is absent. -/
def Notice.frame (n : Notice) : List Byte :=
  envelope 0x81 (nat8 n.kind ++ (match n.channel with | none => [0xFF] | some c => nat8 c.val) ++ flag8 n.value
    ++ optional labelBytes n.time ++ nat8 n.detail)

/-- A message on ML as sent (10.4). -/
def MlMessage.frame : MlMessage → List Byte
  | .play address clipId media delay =>
    envelope 0x50 (nat8 address ++ nat8 clipId.length ++ clipId ++ nat32 media ++ nat32 delay)
  | .cancel address => envelope 0x51 (nat8 address)

/-- A crosspoint on XL as sent (10.4). -/
def Awaiting.frame (x : Awaiting) : List Byte := envelope 0x60 (nat8 x.destination ++ nat8 x.source)

end Sys2Proof.Machine
end

