-- ==== Sys2Proof/Machine/Schedule.lean ====
section
/-! DEFINITION. The Schedule Store (chapter 3): event records, loading, the commit engine, flips, edits and clearing. -/

namespace Sys2Proof.Machine

/-! ## Event records (R44, R191) -/

/-- R44, R191: the record is well formed. -/
def recordFormed (r : EventRecord) : Bool :=
  r.id != 0 && r.startMode ≤ 1 && r.kind ≤ 2 && r.policy ≤ 1 && r.clipId.length ≤ 32
    && (r.startMode != 0 || r.start.isSome) && (r.kind != 0 || !r.clipId.isEmpty) && (r.kind != 1 || r.live.isSome)

/-- R44: the kind of a well-formed record, with the fields that its kind keeps. -/
def recordKind (r : EventRecord) : EventKind :=
  if r.kind = 0 then .clip r.clipId ((r.trim.map fun t => t.toNat).getD 0)
  else if r.kind = 1 then .live ((r.live.map fun x => x.toNat).getD 0)
  else .fill

/-- R44: an event from its record and its start. -/
def recordEvent (r : EventRecord) (start : StartMode) (adjusted : Bool) : Event :=
  ⟨r.id, start, r.duration.toNat, recordKind r, if r.policy = 0 then .join else .noJoin, adjusted, none⟩

/-- R44: the start of a HARD record on a page of a base day. -/
def hardStart (f : Format) (baseDay : Nat) (a : StageA) : StartMode :=
  .hard a.label (relativeFrame f a.frame (pageBase f baseDay))

/-- R44: the event that a record gives on a page of a base day; none where it is malformed or fails as BAD-TIME. -/
def formEvent (f : Format) (baseDay : Nat) (r : EventRecord) : Option Event :=
  if recordFormed r && durationInRange f r.duration.toNat then
    if r.startMode = 0 then
      (r.start.bind fun t => stageA f (labelOf t)).map fun a => recordEvent r (hardStart f baseDay a) a.adjusted
    else some (recordEvent r .follow false)
  else none

/-- The relative start of a HARD event. -/
def Event.hardRel (e : Event) : Option Nat :=
  match e.start with
  | .hard _ rel => some rel
  | .follow => none

/-- The event is HARD. -/
def Event.isHard (e : Event) : Bool := e.hardRel.isSome

/-! ## Resolution (R55, R56) -/

/-- The relative start of the first HARD event of a list: the limit of the event before the list. -/
def firstHard (es : List Event) : Option Nat := es.findSome? Event.hardRel

/-- R55: an effective duration under a limit, and whether the event is truncated. -/
def limitedTo (limit : Option Nat) (start dur : Nat) : Nat × Bool :=
  match limit with
  | some l => if start + dur ≤ l then (dur, false) else (l - start, true)
  | none => (dur, false)

/-- R55: the walk over a list, from the effective end of the event before it: the events that remain and how many were
removed. -/
def resolveFrom (prevEnd : Nat) : List Event → List Event × Nat
  | [] => ([], 0)
  | e :: es =>
    let start := e.hardRel.getD prevEnd
    let d := limitedTo (firstHard es) start e.duration
    let r := resolveFrom (start + d.1) es
    if d.1 = 0 then (r.1, r.2 + 1) else ({ e with res := some ⟨start, d.1, d.2⟩ } :: r.1, r.2)

/-- R56: every effective start is below 3·FPD. -/
def spanHolds (f : Format) (es : List Event) : Bool :=
  es.all fun e => match e.res with
    | some r => !outOfSpan f r.start
    | none => true

/-- A dropped-event count saturates at 65535 (R46). -/
def addDropped (a b : Nat) : Nat := min 65535 (a + b)

/-! ## The next page (R47 to R52, R57, R59) -/

/-- The pending flip of a next page. -/
def NextPage.flip : NextPage → Option Nat
  | .empty => none
  | .loading p => p.flip
  | .committing p => p.flip
  | .ready p => p.flip

/-- A channel leaves the commit queue (R49, R54); DESIGN CHOICE (log 20): with nothing left in the queue no commit is due at
this frame start. -/
def State.leaveQueue (s : State) (c : Channel) : State :=
  let q := s.sst.queue.filter fun d => d != c
  { s with sst := { s.sst with queue := q, startDue := s.sst.startDue && !q.isEmpty } }

/-- R59: the next page is discarded, with FLIP-MISSED where it carried a pending flip. -/
def State.discardNext (s : State) (c : Channel) : State :=
  ((s.leaveQueue c).putNext c .empty).raiseIf (s.pages c).next.flip.isSome .flipMissed c

/-- The LOADING page of a channel. -/
def State.loadingPage (s : State) (c : Channel) : Option LoadPage :=
  match (s.pages c).next with
  | .loading p => some p
  | .empty => none
  | .committing _ => none
  | .ready _ => none

/-- LIST BEGIN at the store (R49). -/
def State.beginList (s : State) (c : Channel) (serial : BitVec 16) (baseDay declared : Nat) : State :=
  (s.discardNext c).putNext c
    (.loading ⟨baseDay, serial, declared, [], 6 < baseDay || declared == 0 || 1024 < declared, none⟩)

/-- A LOADING page is marked BROKEN (R50, R80). -/
def State.breakPage (s : State) (c : Channel) (p : LoadPage) : State := s.putNext c (.loading { p with broken := true })

/-- R50 check 3: a HARD start is below that of the latest HARD record of the page. -/
def belowLatestHard (es : List Event) (e : Event) : Bool :=
  match e.hardRel, (es.filter Event.isHard).getLast?.bind Event.hardRel with
  | some r, some q => r < q
  | _, _ => false

/-- R50 checks 2 to 5. -/
def loadable (f : Format) (es : List Event) (e : Event) : Bool :=
  !(e.hardRel.any fun r => outOfSpan f r) && !belowLatestHard es e && !(es.any fun x => x.id == e.id)
    && es.length < pageSize

/-- R45: no pool slot is free. -/
def State.poolFull (s : State) : Bool := poolSize ≤ s.slotsUsed

/-- EVENT at the store for a page that is LOADING and not BROKEN (R50). -/
def State.loadEvent (s : State) (c : Channel) (p : LoadPage) (r : EventRecord) : State :=
  match formEvent s.live.format p.baseDay r with
  | none => s.breakPage c p
  | some e =>
    if loadable s.live.format p.events e then
      if s.poolFull then (s.breakPage c p).raiseDevice .poolFull
      else s.putNext c (.loading { p with events := p.events ++ [e] })
    else s.breakPage c p

/-- EVENT at the store (R50, R51). -/
def State.takeEventRecord (s : State) (c : Channel) (r : EventRecord) : State :=
  match s.loadingPage c with
  | some p => if p.broken then s else s.loadEvent c p r
  | none => s

/-- LIST ABORT at the store (R51). -/
def State.abortList (s : State) (c : Channel) : State :=
  match s.loadingPage c with
  | some _ => s.discardNext c
  | none => s

/-- R52: the page is accepted at its LIST END. -/
def listAccepted (p : LoadPage) (serial : BitVec 16) (count : Nat) : Bool :=
  !p.broken && serial == p.serial && count == p.declared && count == p.events.length
    && (match p.events with | e :: _ => e.isHard | [] => true)

/-- LIST END at the store (R51, R52). -/
def State.endList (s : State) (c : Channel) (serial : BitVec 16) (count : Nat) : State :=
  match s.loadingPage c with
  | none => s
  | some p =>
    if listAccepted p serial count then
      let t := s.putNext c (.committing p)
      { t with sst := { t.sst with queue := t.sst.queue ++ [c] } }
    else (s.discardNext c).raise .listRejected c

/-- A pending flip is recorded on a next page (R57). -/
def NextPage.withFlip (f : Nat) : NextPage → NextPage
  | .empty => .empty
  | .loading p => .loading { p with flip := some f }
  | .committing p => .committing { p with flip := some f }
  | .ready p => .ready { p with flip := some f }

/-- FLIP at the store (R57). -/
def State.recordFlip (s : State) (c : Channel) (t : TimeBytes) : State :=
  match stageA s.live.format (labelOf t), (s.pages c).next with
  | some _, .empty => s.raise .flipMissed c
  | some a, n => s.putNext c (n.withFlip a.frame)
  | none, _ => s.raise .flipMissed c

/-! ## The commit engine (R53 to R56) -/

/-- The frames that a commit or an edit of `n` events takes: ⌈n/256⌉. -/
def framesFor (n : Nat) : Nat := (n + 255) / 256

/-- COMMIT_START (R53). -/
def execCommitStart (s : State) : Host.Outcome State Fault Refusal :=
  whenRunning s fun s =>
    match s.sst.engine, s.sst.queue with
    | .idle, c :: q =>
      if s.sst.startDue then
        State.setEngine { s with sst := { s.sst with queue := q, startDue := false } }
          (.committing c (framesFor (s.pages c).next.events.length))
      else s
    | _, _ => s

/-- R55, R56: the commit of a page ends. -/
def State.finishCommit (s : State) (c : Channel) (p : LoadPage) : State :=
  let r := resolveFrom 0 p.events
  if spanHolds s.live.format r.1 then s.putNext c (.ready ⟨p.baseDay, p.serial, r.1, addDropped 0 r.2, p.flip⟩)
  else (s.discardNext c).raise .listRejected c

/-- COMMIT_END (R53, R55, R56). -/
def execCommitEnd (s : State) : Host.Outcome State Fault Refusal :=
  whenRunning s fun s =>
    match s.sst.engine with
    | .committing c 0 =>
      match (s.pages c).next with
      | .committing p => (s.finishCommit c p).setEngine .idle
      | .empty => s.setEngine .idle
      | .loading _ => s.setEngine .idle
      | .ready _ => s.setEngine .idle
    | .committing _ (_ + 1) => s
    | .editing _ _ _ => s
    | .idle => s

/-- The channel whose work occupies the engine. -/
def Engine.channel : Engine → Option Channel
  | .idle => none
  | .committing c _ => some c
  | .editing c _ _ => some c

/-- R54, R58, R64: the engine's work is abandoned; a waiting commit begins at the next frame start. -/
def State.abandonWork (s : State) : State :=
  State.setEngine { s with sst := { s.sst with startDue := false } } .idle

/-- R54: the work on a channel, if the engine has it, is abandoned. -/
def State.abandonOn (s : State) (c : Channel) : State :=
  if s.sst.engine.channel = some c then s.abandonWork else s

/-! ## Clearing (R67, R12) -/

/-- R67: both pages of a channel are emptied, without FLIP-MISSED. -/
def State.emptyPages (s : State) (c : Channel) : State :=
  State.abandonOn ((s.leaveQueue c).putPages c ⟨none, .empty⟩) c

/-! ## Edits (R61 to R64) -/

/-- The place of an event in a list. -/
def placeOf (es : List Event) (id : EventId) : Option Nat :=
  if es.any fun e => e.id == id then some ((es.takeWhile fun e => e.id != id).length) else none

/-- An edited list before resolution, with the edit point. -/
structure Edited where
  events : List Event
  point : Nat
deriving DecidableEq, Repr

/-- R61: the edited list; none where R62's second or third case refuses it. -/
def formEdited (f : Format) (page : Page) : EditOp → Option Edited
  | .insertAfter ref r =>
    match formEvent f page.baseDay r, (if ref = 0 then some 0 else (placeOf page.events ref).map fun i => i + 1) with
    | some e, some i => some ⟨page.events.take i ++ e :: page.events.drop i, i⟩
    | _, _ => none
  | .replace id r =>
    match formEvent f page.baseDay r, placeOf page.events id with
    | some e, some i => some ⟨page.events.take i ++ e :: page.events.drop (i + 1), i⟩
    | _, _ => none
  | .delete id => (placeOf page.events id).map fun i => ⟨page.events.eraseIdx i, i⟩

/-- R61: the place at which the walk begins: the last HARD event before the edit point, or the head. -/
def Edited.walkFrom (x : Edited) : Nat :=
  (x.events.take x.point).length - 1 - ((x.events.take x.point).reverse.takeWhile fun e => !e.isHard).length

/-- R61: the re-resolved count. -/
def Edited.count (x : Edited) : Nat := x.events.length - x.walkFrom

/-- R61: the edited and resolved list, and how many events were removed. -/
def Edited.resolved (x : Edited) : List Event × Nat :=
  let r := resolveFrom 0 (x.events.drop x.walkFrom)
  (x.events.take x.walkFrom ++ r.1, r.2)

/-- The relative starts of the HARD events do not fall along a list (R62). -/
def hardsInOrder : List Event → Bool
  | [] => true
  | e :: es => (match e.hardRel, firstHard es with
      | some a, some b => a ≤ b
      | _, _ => true) && hardsInOrder es

/-- R62: the ids of a list are distinct. -/
def idsDistinct : List Event → Bool
  | [] => true
  | e :: es => !(es.any fun x => x.id == e.id) && idsDistinct es

/-- R62, fourth to seventh case: the edited list can stand. -/
def Edited.stands (f : Format) (x : Edited) : Bool :=
  idsDistinct x.events && hardsInOrder x.events && (match x.events with | e :: _ => e.isHard | [] => true)
    && spanHolds f x.resolved.1 && x.events.length ≤ pageSize

/-- The ids that an authority locks (R63). -/
def Authority.lockedIds : Authority → List EventId
  | .main => []
  | .armed _ p => [p.id]
  | .standby a => [a.id]
  | .held _ a => [a.id]
  | .returning _ _ _ a => [a.id]

/-- The event of an entry's PLAY. -/
def CueAction.event : CueAction → Option EventId
  | .play _ _ _ id => some id
  | .cancel => none

/-- The events of a channel that the cue queue and the transaction name (R63). -/
def State.cuedIds (s : State) (c : Channel) : List EventId :=
  (s.cus.queue ++ (s.cus.txn.map fun t => t.entry).toList).filterMap fun x =>
    if x.channel = c then x.action.event else none

/-- The events of planned clips whose player is CUED (R63). -/
def State.plannedIds (s : State) (c : Channel) : List EventId :=
  (s.cue c).planned.filterMap fun seg =>
    match seg.content.player with
    | some p => if s.playerState c p = .cued then some seg.id else none
    | none => none

/-- R63: the locked region, by id. -/
def State.lockedIds (s : State) (c : Channel) : List EventId :=
  if s.isMain c then [] else (s.authority c).lockedIds ++ s.cuedIds c ++ s.plannedIds c

/-- The event that an edit deletes or replaces. -/
def EditOp.target : EditOp → Option EventId
  | .insertAfter _ _ => none
  | .replace id _ => some id
  | .delete id => some id

/-- The effective start and end of an event of a list. -/
def extentOf (es : List Event) (id : EventId) : Option (Nat × Nat) :=
  (es.find? fun e => e.id == id).bind fun e => e.res.map fun r => (r.start, r.start + r.dur)

/-- R63: the edited list with the new record of the edit, where it has one, told apart from the events of the page: it has id 0 here,
which is no event's (R44). A new record may repeat the id of a locked event (R62), and is not that event. The walk of R55 reads no id. -/
def Edited.newApart (x : Edited) : EditOp → Edited
  | .insertAfter _ _ => { x with events := x.events.modify x.point fun e => { e with id := 0 } }
  | .replace _ _ => { x with events := x.events.modify x.point fun e => { e with id := 0 } }
  | .delete _ => x

/-- R63: the edit disturbs the locked region: it deletes or replaces a locked event, or that event, among those that the page had, is
removed or has another extent in the edited and resolved list. -/
def State.disturbs (s : State) (c : Channel) (page : Page) (op : EditOp) (x : Edited) : Bool :=
  (s.lockedIds c).any fun id =>
    (page.events.any fun e => e.id == id)
      && (op.target == some id || extentOf (x.newApart op).resolved.1 id != extentOf page.events id)

/-- An INSERT AFTER takes a pool slot (R45). -/
def EditOp.takesSlot : EditOp → Bool
  | .insertAfter _ _ => true
  | .replace _ _ => false
  | .delete _ => false

/-- R62: a refused edit marks the page DIVERGED, where there is one, and sets the flag. -/
def State.diverge (s : State) (c : Channel) : State :=
  State.raise (s.putActive c ((s.pages c).active.map fun p => { p with diverged := true })) .diverged c

/-- The flags that a refused edit sets beside DIVERGED (R62). -/
def State.refuseEdit (s : State) (c : Channel) (full locked : Bool) : State :=
  let t := (s.diverge c).raiseIf locked .editLocked c
  if full then t.raiseDevice .poolFull else t

/-- R61: an edit that is accepted. -/
def State.acceptEdit (s : State) (c : Channel) (page : Page) (r : List Event × Nat) : State :=
  State.reviewPlan (s.putActive c (some { page with events := r.1, dropped := addDropped page.dropped r.2 })) c

/-- R61 to R63: an edit completes. -/
def State.completeEdit (s : State) (c : Channel) (op : EditOp) : State :=
  match (s.pages c).active with
  | none => s.diverge c
  | some page =>
    match formEdited s.live.format page op with
    | none => s.diverge c
    | some x =>
      let full := op.takesSlot && s.poolFull
      let locked := s.disturbs c page op x
      if x.stands s.live.format && !full && !locked then s.acceptEdit c page x.resolved else s.refuseEdit c full locked

/-- R64: the re-resolved count of an edit, 0 for one that cannot be formed. -/
def State.editCount (s : State) (c : Channel) (op : EditOp) : Nat :=
  match (s.pages c).active with
  | none => 0
  | some page => ((formEdited s.live.format page op).map Edited.count).getD 0

/-- EDIT at the store (R64): it completes at once, or occupies the engine. -/
def State.takeEditOp (s : State) (c : Channel) (op : EditOp) : State :=
  let n := s.editCount c op
  if n ≤ 256 then s.completeEdit c op else s.setEngine (.editing c op (framesFor n - 1))

/-- EDIT_COMPLETE (R64). -/
def execEditComplete (s : State) : Host.Outcome State Fault Refusal :=
  whenRunning s fun s =>
    match s.sst.engine with
    | .editing c op 0 => (s.completeEdit c op).setEngine .idle
    | .editing _ _ (_ + 1) => s
    | .committing _ _ => s
    | .idle => s

/-! ## Performing a flip (R58, R60) -/

/-- R58: the READY page of a channel whose pending flip is due. -/
def State.flipDue (s : State) (c : Channel) : Option ReadyPage :=
  match (s.pages c).next with
  | .ready p =>
    match p.flip with
    | some f => if s.stc.state ≠ .unset ∧ stationAtOrAfter s.format s.stationNow f then some p else none
    | none => none
  | .empty => none
  | .loading _ => none
  | .committing _ => none

/-- R60: the switch-window event of this frame is a segment boundary of the on-air segment. -/
def State.atBoundary (s : State) (c : Channel) (a : OnAir) : Bool :=
  (s.cue c).boundary || a.stop == some s.now || a.stop == none

/-- R58, R60: the authority lets a due flip be performed at this event. -/
def State.flipAllowed (s : State) (c : Channel) : Bool :=
  match s.authority c with
  | .main => true
  | .held _ _ => true
  | .armed _ p => p.stop == some s.now || (p.stop == none && atOrAfter s.now p.start)
  | .standby a => s.atBoundary c a
  | .returning _ _ _ a => s.atBoundary c a

/-- R60: an ARMED channel whose first segment has no end goes to air at the boundary jl before the flip. -/
def State.airFirst (s : State) (c : Channel) : State :=
  match s.authority c with
  | .armed _ p => if p.stop = none then s.goToAir c p else s
  | .main => s
  | .standby _ => s
  | .held _ _ => s
  | .returning _ _ _ _ => s

/-- R58: the page that a flip makes active. -/
def ReadyPage.activated (p : ReadyPage) : Page := ⟨p.baseDay, p.serial, p.events, p.dropped, false, false⟩

/-- R58: an edit in progress on the channel is abandoned by its flip. -/
def State.abandonEdit (s : State) (c : Channel) : State :=
  match s.sst.engine with
  | .editing d _ _ => if d = c then s.abandonWork else s
  | .committing _ _ => s
  | .idle => s

/-- R58: a flip is performed. DESIGN CHOICE (log 48): the pages change first, so a report that falls due where it abandons an edit (R86)
gives the next page as EMPTY. -/
def State.performFlip (s : State) (c : Channel) (p : ReadyPage) : State :=
  let t := State.abandonEdit ((s.airFirst c).putPages c ⟨some p.activated, .empty⟩) c
  if t.isMain c then t else t.pageChange c

/-- FLIP_PERFORM (R58, R60), at the switch-window event. -/
def execFlipPerform (c : Channel) (s : State) : Host.Outcome State Fault Refusal :=
  whenRunning s fun s =>
    match s.flipDue c with
    | some p => if s.cdu.windowEvent && s.flipAllowed c then s.performFlip c p else s
    | none => s

end Sys2Proof.Machine
end

