-- ==== Sys2Proof/Machine/Cadence.lean ====
section
/-! DEFINITION. The Cadence Unit (1.1 to 1.6): reference pulses, loss, re-phasing, lines, frame starts, the switch-window event and a
format change. -/

namespace Sys2Proof.Machine

/-- The Cadence Unit replaced. -/
def State.putCdu (s : State) (k : Cdu) : State := { s with cdu := k }

/-! ## Lines (R2, R6, R9) -/

/-- R9: the line in progress is a gated line of its frame. -/
def Cdu.gated (k : Cdu) : Bool := gateFirst k.frame.lines ≤ k.line && k.line ≤ k.frame.lines

/-- R98, R99: one more gated line has ended in the open window. -/
def Scan.gatedLine : Scan → Scan
  | .sequential c g n => .sequential c (g + 1) n
  | .parallel g ns => .parallel (g + 1) ns
  | .idle => .idle
  | .starting r => .starting r

/-- The scanner replaced. -/
def State.putScan (s : State) (x : Scan) : State := { s with sup := { s.sup with scan := x } }

/-- R9: CDU gives the scanner the line that ends, where it is a gated line. -/
def State.gateLine (s : State) : State := if s.cdu.gated then s.putScan s.sup.scan.gatedLine else s

/-- R6: at the end of line L of the frame in progress re-phasing is decided; in a frame that is cut it is not (DESIGN CHOICE, log 50). -/
def Cdu.decides (k : Cdu) : Bool := k.refState == .locked && k.phase == .pending && k.adjust == .none

/-- R2, R6: the line after the one that ends: a further line, or the frame's end. DESIGN CHOICE (log 50): a frame being cut whose due
frame pulse has not come by the end of its line L, the loss not found yet, ends there with no decision of R6, and its adjustment is
dropped at the next frame start. -/
def Cdu.nextLine (k : Cdu) : Cdu :=
  if k.line < k.frame.lines || k.adjust == .stretching then { k with line := k.line + 1, windowEvent := false }
  else if k.decides then { k with rephaseDue := true, windowEvent := false }
  else { k with frameDue := true, windowEvent := false }

/-- R187: NRST is sampled at the start of a line period. DESIGN CHOICE (log 52): while an acceptance is due, the count being 16, an asserted
sample leaves it due, and a released one sets the count to 0 and drops it. -/
def Store.sampleNrst (k : Store) (asserted : Bool) : Store :=
  { k with nrstCount := if asserted then min 16 (k.nrstCount + 1) else 0 }

/-- R187: the input levels as a line period begins. -/
def Pins.nextLine (p : Pins) : Pins :=
  match p.nrstLater with
  | [] => p
  | b :: later => { p with nrst := b, nrstLater := later }

/-- R187: a line period begins, and NRST is sampled. -/
def State.beginLine (s : State) : State :=
  { s with pins := s.pins.nextLine, store := s.store.sampleNrst s.pins.nextLine.nrst }

/-- The end of the frame is being taken: no line is in progress (R2, R6). -/
def Cdu.ending (k : Cdu) : Bool := k.frameDue || k.rephaseDue

/-- The line in progress ends, and the next one begins, unless the frame ends with it (R2, R187). -/
def State.endLine (s : State) : State :=
  if s.cdu.ending then s
  else
    let t := s.gateLine.putCdu s.cdu.nextLine
    if t.cdu.ending then t else t.beginLine

/-! ## Loss of reference (R4, R6) -/

/-- R4, R6: the state after a loss. A frame that is past line L ends at once. -/
def Cdu.lost (k : Cdu) : Cdu :=
  { k with refState := .freerun, phase := .pending, qualifying := 0, adjust := .none, rephaseDue := false,
           frameDue := k.frameDue || k.rephaseDue || k.adjust == .stretching }

/-- R4: a loss of reference. -/
def State.loseReference (s : State) : State := (s.putCdu s.cdu.lost).raiseDevice .refLost

/-! ## Reference pulses (R1 to R5) -/

/-- R5: the first pulse in FREERUN begins ACQUIRING with no previous frame pulse. DESIGN CHOICE (log 42): where that pulse is a frame
pulse, it is then itself the first frame pulse, and sets the reference line number to 1 (R1, R3). -/
def Cdu.wakened (k : Cdu) : Cdu :=
  if k.refState = .freerun then { k with refState := .acquiring, qualifying := 0, refLine := none } else k

/-- R1: a line pulse adds one to the reference line number. -/
def Cdu.linePulse (k : Cdu) : Cdu := { k with silentLines := 0, refLine := k.refLine.map fun n => n + 1 }

/-- R2: internal lines and frames begin on the reference pulses. -/
def Cdu.follows (k : Cdu) : Bool := k.refState == .locked && k.phase == .aligned

/-- REF_LINE_PULSE (R1, R2, R5). -/
def execRefLinePulse (s : State) : Host.Outcome State Fault Refusal :=
  whenRunning s fun s =>
    let t := s.putCdu (s.cdu.wakened).linePulse
    if s.cdu.follows then t.endLine else t

/-- What a frame pulse is (R1). -/
inductive PulsePlace where
  | first
  | inPlace
  | misplaced
deriving DecidableEq, Repr

/-- R1. -/
def Cdu.pulsePlace (k : Cdu) : PulsePlace :=
  match k.refLine with
  | none => .first
  | some n => if n = k.frame.lines then .inPlace else .misplaced

/-- R1: a frame pulse comes with the line pulse of reference line 1. -/
def Cdu.framePulse (k : Cdu) : Cdu := { k with silentLines := 0, refLine := some 1 }

/-- R3: a frame pulse in ACQUIRING. -/
def Cdu.qualify (k : Cdu) (p : PulsePlace) : Cdu :=
  match p with
  | .inPlace =>
    if 25 ≤ k.qualifying + 1 then { k with qualifying := 25, refState := .locked, phase := .pending }
    else { k with qualifying := k.qualifying + 1 }
  | .first => { k with qualifying := 0 }
  | .misplaced => { k with qualifying := 0 }

/-- R2, R6: an in-place pulse ends the frame: it is stretched, or cut, or aligned. DEDUCED (log 7): an aligned frame that internal timing
has just begun, still in its first line, is the one that the pulse begins. DEDUCED (log 49): a pulse that comes while the decision at the
end of line L is due falls at the frame end. -/
def Cdu.endsOnPulse (k : Cdu) : Bool :=
  k.adjust == .stretching || k.adjust == .cutting
    || (match k.phase with
        | .aligned => !k.frameDue && k.line != 1
        | .pending => k.rephaseDue)

/-- R6: the frame ends on the pulse, and from then on frames begin on pulses. -/
def Cdu.pulseEnd (k : Cdu) : Cdu :=
  { k with phase := .aligned, adjust := .none, rephaseDue := false, frameDue := true, windowEvent := false }

/-- R9: the internal line in progress, if the end of the frame is not already being taken, ends with the frame on the pulse. DESIGN
CHOICE (log 43): it counts as a whole gated line where it is in the gate, also in a frame that is cut. -/
def State.gateLast (s : State) : State := if s.cdu.ending then s else s.gateLine

/-- An in-place frame pulse in LOCKED (R2, R6). -/
def State.lockedPulse (s : State) : State := if s.cdu.endsOnPulse then s.gateLast.putCdu s.cdu.pulseEnd else s

/-- REF_FRAME_PULSE (R1 to R6). DESIGN CHOICE (log 44): the line pulse of a misplaced frame pulse does not end the internal line before
the loss; the line goes on by internal timing (R4). -/
def execRefFramePulse (s : State) : Host.Outcome State Fault Refusal :=
  whenRunning s fun s =>
    let k := s.cdu.wakened
    let t := s.putCdu k.framePulse
    match k.refState, k.pulsePlace with
    | .acquiring, p => t.putCdu (t.cdu.qualify p)
    | .locked, .inPlace => t.lockedPulse
    | .locked, .misplaced => t.loseReference
    | .locked, .first => t
    | .freerun, _ => t

/-- LINE_SILENCE (R1, R3, R4). -/
def execLineSilence (s : State) : Host.Outcome State Fault Refusal :=
  whenRunning s fun s =>
    let t := s.putCdu { s.cdu with refLine := none, silentLines := 17 }
    match s.cdu.refState with
    | .acquiring => t.putCdu { t.cdu with qualifying := 0 }
    | .locked => t.loseReference
    | .freerun => t

/-- MISSING_FRAME_PULSE (R1, R3, R4): the reference line number has reached L + 8. -/
def execMissingFramePulse (s : State) : Host.Outcome State Fault Refusal :=
  whenRunning s fun s =>
    match s.cdu.refLine with
    | none => s
    | some n =>
      let t := s.putCdu { s.cdu with refLine := some (max n (s.cdu.frame.lines + 8)) }
      if s.cdu.refState = .locked then t.loseReference else t

/-! ## Re-phasing (R6, R7) -/

/-- R6: the frame ends at its line L, unadjusted. -/
def Cdu.frameEnds (k : Cdu) : Cdu := { k with rephaseDue := false, frameDue := true, windowEvent := false }

/-- R6, R7: what is done at the end of line L, with the next in-place frame pulse `d` line periods later; `quietNow`: no channel
is ARMED or RETURNING. DEDUCED (log 49): a pulse at the frame end (`d` of 0) aligns the phase whatever channel is ARMED or RETURNING,
since R7's tests are of a cut and of a stretch. -/
def Cdu.rephase (k : Cdu) (d : Nat) (quietNow : Bool) : Cdu :=
  if d = 0 then { k.frameEnds with phase := .aligned }
  else if d ≤ k.frame.lines / 2 then
    if k.quietStart && quietNow then
      { k with rephaseDue := false, adjust := .stretching, line := k.frame.lines + 1, windowEvent := false }
    else k.frameEnds
  else if k.quietStart then { k.frameEnds with adjust := .cutNext }
  else k.frameEnds

/-- RE_PHASING (R6, R7), at the end of line L, which the command says has come (log 8). The line that a stretched frame goes on with
is a line period of its own (R187). -/
def execRePhasing (distance : Nat) (s : State) : Host.Outcome State Fault Refusal :=
  whenRunning s fun s =>
    if s.cdu.decides then
      let t := s.putCdu (s.cdu.rephase distance s.quiet)
      if t.cdu.ending then t else t.beginLine
    else s

/-! ## Frame starts (R2, R10) -/

/-- The adjustment of the frame that begins (R6). A cut that no pulse has ended is not carried on (DESIGN CHOICE, log 50). -/
def Adjust.atStart : Adjust → Adjust
  | .cutNext => .cutting
  | .none => .none
  | .stretching => .none
  | .cutting => .none

/-- R2, R7, R10: the Cadence Unit at a frame start. -/
def Cdu.start (k : Cdu) (t : FrameTiming) (quiet : Bool) : Cdu :=
  { k with now := k.now + 1, line := 1, frame := t, adjust := k.adjust.atStart, quietStart := quiet,
           windowOpened := false, windowEvent := false, frameDue := false, rephaseDue := false,
           wrapDue := k.wrapDue || k.now + 1 == 0 }

/-- R91: the watch timer of a LIVE port goes down by one. -/
def Watch.tick (w : Watch) : Watch := if w.live then { w with timer := w.timer - 1 } else w

/-- R108: the confirm timer of a FAILING channel goes down by one. -/
def SupChannel.tick (k : SupChannel) : SupChannel :=
  if k.health = .failing then { k with confirm := k.confirm - 1 } else k

/-- R97, R102: the frame start at which a sweep's first window opens has come. -/
def Scan.atStart : Scan → Scan
  | .starting _ => .starting true
  | .idle => .idle
  | .sequential c g n => .sequential c g n
  | .parallel g ns => .parallel g ns

/-- The Supervision Unit at a frame start, with the sample of TKEY (R91, R97, R108, R111). -/
def Sup.start (k : Sup) (tkey : Bool) : Sup where
  watch := k.watch.map Watch.tick
  scan := k.scan.atStart
  channel := PerChannel.mapAll SupChannel.tick k.channel
  key := k.key.sample tkey

/-- R53, R64: a frame start of the work in the engine. -/
def Engine.tick : Engine → Engine
  | .idle => .idle
  | .committing c n => .committing c (n - 1)
  | .editing c op n => .editing c op (n - 1)

/-- The Schedule Store at a frame start (R53). -/
def Sst.start (k : Sst) : Sst := { k with engine := k.engine.tick, startDue := !k.queue.isEmpty }

/-- R151, R152: the transaction at a frame start. -/
def TxnPhase.tick : TxnPhase → TxnPhase
  | .sending _ => .sending true
  | .awaiting n => .awaiting (n - 1)

/-- The Cue Scheduler at a frame start. -/
def Cus.start (k : Cus) : Cus := { k with txn := k.txn.map fun t => { t with phase := t.phase.tick } }

/-- The Crosspoint Sequencer at a frame start (R157, R158). -/
def Xps.start (k : Xps) : Xps :=
  { k with eventTaken := false, awaiting := k.awaiting.map fun x => { x with left := x.left - 1 } }

/-- R166: the silence timer of a LIVE port goes down by one. -/
def SitePortState.tick (k : SitePortState) : SitePortState := if k.live then { k with timer := k.timer - 1 } else k

/-- The Site Link Interface at a frame start. -/
def Sli.start (k : Sli) : Sli := { k with port := k.port.map SitePortState.tick }

/-- R182: a running SAVE at a frame start. -/
def Store.start (k : Store) : Store := { k with save := k.save.map fun j => { j with left := j.left - 1 } }

/-- R189: a receive stage at a frame start; the frame it gathers is to be abandoned when no byte has come since the last one. -/
def RxStage.start : RxStage → RxStage
  | .waiting => .waiting
  | .gathering bs fresh stale => .gathering bs false (stale || !fresh)

/-- The six receive stages at a frame start. -/
def RxStages.start (r : RxStages) : RxStages :=
  ⟨r.fa.start, r.fb.start, r.sa.start, r.sb.start, r.ml.start, r.xl.start⟩

/-- R14: O as a station frame of the format that a frame begins with (log 6). -/
def Stc.start (k : Stc) (f : Format) : Stc := { k with offset := k.offset % wf f }

/-- A frame start, at every block that counts frame starts. What falls due by a count that runs out is a command of its own, so an
arming that falls at a frame start comes after it; DESIGN CHOICE (log 47): such a channel was not ARMED at that frame's start (R7). -/
def State.frameStart (s : State) (tkey : Bool) : State :=
  { s with
    pins := { s.pins.nextLine with tkey := tkey }
    cdu := s.cdu.start (FrameTiming.ofSettings s.live) s.quiet
    stc := s.stc.start s.live.format
    sst := s.sst.start
    rpe := { s.rpe with reportTimer := s.rpe.reportTimer - 1 }
    sup := s.sup.start tkey
    cus := s.cus.start
    xps := s.xps.start
    sli := s.sli.start
    store := (s.store.sampleNrst s.pins.nextLine.nrst).start
    rx := s.rx.start }

/-- FRAME_START (R2). -/
def execFrameStart (tkey : Bool) (s : State) : Host.Outcome State Fault Refusal :=
  whenRunning s fun s => s.frameStart tkey

/-! ## The switch-window event (R8) -/

/-- R8: the window opens, at the start of line SW_FIRST. -/
def Cdu.openWindow (k : Cdu) : Cdu :=
  { k with line := max k.line k.frame.swFirst, windowOpened := true, windowEvent := true }

/-- The segment boundaries of earlier switch-window events are past. -/
def State.clearBoundaries (s : State) : State :=
  { s with cus := { s.cus with channel := PerChannel.mapAll (fun k => { k with boundary := false }) s.cus.channel } }

/-- SWITCH_WINDOW_EVENT (R8): once in a frame; every block that acts on it takes its part as a command of its own. -/
def execSwitchWindowEvent (s : State) : Host.Outcome State Fault Refusal :=
  whenRunning s fun s => if s.cdu.windowOpened then s else (s.putCdu s.cdu.openWindow).clearBoundaries

/-! ## A format change (R12) -/

/-- R12: every page of every channel is emptied, with the commit queue. -/
def State.emptyAllPages (s : State) : State :=
  { s with sst := { s.sst with pages := PerChannel.same ⟨none, .empty⟩, queue := [], startDue := false } }

/-- R54, R64: whatever work the engine has is abandoned. -/
def State.abandonAny (s : State) : State := if s.engineRunning then s.abandonWork else s

/-- R12, R81: every baseline is set to none. -/
def State.dropBaselines (s : State) : State := { s with rpe := { s.rpe with baseline := PerChannel.same none } }

/-- R12: the Cadence Unit at a format change. DESIGN CHOICE (log 46): a re-phasing that was being decided or made ends with it, and a
frame past its line L ends at once, as R6 says of a loss of reference. -/
def Cdu.reformatted (k : Cdu) : Cdu :=
  { k with refState := .acquiring, qualifying := 0, refLine := none, phase := .pending, adjust := .none,
           rephaseDue := false, frameDue := k.frameDue || k.rephaseDue || k.adjust == .stretching }

/-- The format setting replaced. -/
def State.putFormat (s : State) (f : Format) : State := { s with live := { s.live with format := f } }

/-- R12: a format change. DESIGN CHOICE (log 48): the engine's work is abandoned last, so a report that falls due by it (R86) gives every
baseline as none and every page as EMPTY. -/
def State.changeFormat (s : State) (f : Format) : State :=
  let t := (s.emptyAllPages.dropBaselines.unsetClock).putFormat f
  (t.putCdu t.cdu.reformatted).abandonAny

end Sys2Proof.Machine
end

