-- ==== Sys2Proof/Machine/Feed.lean ====
section
/-! DEFINITION. The Replication Engine (chapter 4): completions on the feed ports, turns, the sequence test, the handing on of frames,
heartbeats, and the STANDBY REPORT's timer and transmission. -/

namespace Sys2Proof.Machine

/-! ## Completion (R68 to R71, R75) -/

/-- R70: a frame that passed its check is appended, or discarded for overrun. -/
def State.offerFrame (s : State) (p : FeedPort) (x : FeedFrame) : State :=
  let q := (s.feed p).queue
  if q.length < feedQueueSize then s.putFeed p { s.feed p with queue := q ++ [⟨s.now, x⟩] }
  else s.raiseDevice (.feedOverrun p)

/-- R71: a heartbeat that passed its check gives heartbeat seen. -/
def State.seenIf (s : State) (p : FeedPort) : FeedFrame → State
  | .heartbeat _ => s.heartbeatSeen p
  | .replication _ _ _ => s

/-- R69 to R71: a frame that completes on an enabled port. -/
def State.completeFrame (s : State) (p : FeedPort) (x : Option FeedFrame) : State :=
  match x with
  | none => s.raiseDevice (.feedCheck p)
  | some x => (s.offerFrame p x).seenIf p x

/-- FEED_FRAME_COMPLETION (R68 to R71, R75). -/
def execFeedFrameCompletion (port : FeedPort) (frameType : Byte) (body : List Byte) (check : BitVec 16) (s : State) :
    Host.Outcome State Fault Refusal :=
  whenRunning s fun s =>
    let t := s.rxWait (feedLine port)
    if (s.feed port).enabled then t.completeFrame port (checkedFeedFrame frameType body check) else t

/-- The feed port of a line. -/
def LineId.feedPort : LineId → Option FeedPort
  | .fa => some .A
  | .fb => some .B
  | .sa => none
  | .sb => none
  | .ml => none
  | .xl => none

/-- A receive stage gathers a frame of which no byte has come since the previous frame start (R189). -/
def RxStage.abandoned : RxStage → Bool
  | .gathering _ _ stale => stale
  | .waiting => false

/-- R189: a partly assembled frame is treated as one that fails its check. -/
def State.abandonPartial (s : State) (l : LineId) : State :=
  let t := s.rxWait l
  match l with
  | .fa => if (s.feed .A).enabled then t.raiseDevice (.feedCheck .A) else t
  | .fb => if (s.feed .B).enabled then t.raiseDevice (.feedCheck .B) else t
  | .sa => t
  | .sb => t
  | .ml => t
  | .xl => t

/-- PARTIAL_FRAME_ABANDON (R189). -/
def execPartialFrameAbandon (line : LineId) (s : State) : Host.Outcome State Fault Refusal :=
  whenRunning s fun s => if (s.rx.get line).abandoned then s.abandonPartial line else s

/-! ## The sequence test (R76 to R80) -/

/-- The classes of R76. -/
inductive SeqClass where
  | first
  | next
  | gap
  | old
deriving DecidableEq, Repr

/-- R76. -/
def seqClass (baseline : Option SeqNo) (received : SeqNo) : SeqClass :=
  match baseline with
  | none => .first
  | some b =>
    let d := (received - b).toNat
    if d = 1 then .next else if 2 ≤ d ∧ d ≤ 32767 then .gap else .old

/-- A channel's baseline replaced. -/
def State.putBaseline (s : State) (c : Channel) (q : Option SeqNo) : State :=
  { s with rpe := { s.rpe with baseline := PerChannel.put s.rpe.baseline c q } }

/-- R80: a LOADING page is marked BROKEN. -/
def NextPage.broken : NextPage → NextPage
  | .loading p => .loading { p with broken := true }
  | .empty => .empty
  | .committing p => .committing p
  | .ready p => .ready p

/-- R80: the loss is recorded. -/
def State.recordGap (s : State) (c : Channel) : State :=
  let p := s.pages c
  State.raise (s.putPages c ⟨p.active.map fun a => { a with behind := true }, p.next.broken⟩) .replicaGap c

/-- R79: a frame is handed to the Schedule Store. -/
def State.storeFrame (s : State) (c : Channel) : FeedBody → State
  | .listBegin serial day n => s.beginList c serial day.toNat n.toNat
  | .event r => s.takeEventRecord c r
  | .listEnd serial n => s.endList c serial n.toNat
  | .listAbort => s.abortList c
  | .edit op => s.takeEditOp c op
  | .flip t => s.recordFlip c t

/-- R77 to R80: a replication frame that RPE has taken. -/
def State.takeReplication (s : State) (c : Channel) (seq : SeqNo) (b : FeedBody) : State :=
  match seqClass s.rpe.baseline[c] seq with
  | .old => s
  | .gap => ((s.recordGap c).putBaseline c (some seq)).storeFrame c b
  | .first => (s.putBaseline c (some seq)).storeFrame c b
  | .next => (s.putBaseline c (some seq)).storeFrame c b

/-! ## Heartbeats (R82 to R85) -/

/-- R85: the id is held by the active page or by a READY next page. -/
def Pages.holds (p : Pages) (id : EventId) : Bool :=
  ((activeEvents p.active).any fun e => e.id == id) ||
    (match p.next with
     | .ready r => r.events.any fun e => e.id == id
     | .empty => false
     | .loading _ => false
     | .committing _ => false)

/-- R85: the divergence check of one channel. -/
def State.divergenceCheck (s : State) (c : Channel) (id : EventId) : State :=
  if s.isMain c && (s.pages c).active.isSome && id != 0 && !(s.pages c).holds id then s.diverge c else s

/-- R82 to R85: a heartbeat that RPE has taken. DESIGN CHOICE (log 27): the divergence check too takes the channels in ascending order. -/
def State.takeHeartbeatFrame (s : State) (h : Heartbeat) (arrival : LocalFrame) : State :=
  if h.format.toNat = formatCode s.live.format then
    ((s.takeStamp h.stamp.toNat arrival).hearHeartbeat h).eachChannel fun s c => s.divergenceCheck c (h.items[c]).onAir
  else s.raiseDevice .formatMismatch

/-! ## Taking (R72, R73) -/

/-- The kinds of frame that RPE takes, one for each command. -/
inductive FeedKind where
  | listBegin
  | event
  | listEnd
  | listAbort
  | insertAfter
  | replace
  | delete
  | flip
  | heartbeat
deriving DecidableEq, Repr

/-- The kind of an edit. -/
def EditOp.feedKind : EditOp → FeedKind
  | .insertAfter _ _ => .insertAfter
  | .replace _ _ => .replace
  | .delete _ => .delete

/-- The kind of a frame. -/
def FeedFrame.kind : FeedFrame → FeedKind
  | .heartbeat _ => .heartbeat
  | .replication _ _ (.listBegin _ _ _) => .listBegin
  | .replication _ _ (.event _) => .event
  | .replication _ _ (.listEnd _ _) => .listEnd
  | .replication _ _ .listAbort => .listAbort
  | .replication _ _ (.edit op) => op.feedKind
  | .replication _ _ (.flip _) => .flip

/-- R73, R64: intake is open while the commit engine is idle, unless a waiting commit begins at this frame start. -/
def State.intakeOpen (s : State) : Bool := !s.engineRunning && !(s.sst.startDue && !s.sst.queue.isEmpty)

/-- R72: the port whose head frame RPE takes next: the one the turn names, or the other when its queue is empty. -/
def State.turnPort (s : State) : FeedPort :=
  if (s.feed s.rpe.turn).queue.isEmpty then s.rpe.turn.other else s.rpe.turn

/-- R72: the frame that RPE takes next, with its port. -/
def State.nextFrame (s : State) : Option (FeedPort × QueuedFrame) :=
  (s.feed s.turnPort).queue.head?.map fun q => (s.turnPort, q)

/-- R72: the head frame of a port leaves its queue, and the turn goes to the other port. -/
def State.dropHead (s : State) (p : FeedPort) : State :=
  let t := s.putFeed p { s.feed p with queue := (s.feed p).queue.drop 1 }
  { t with rpe := { t.rpe with turn := p.other } }

/-- A frame that RPE has taken is handled whole (R72). -/
def State.handleFrame (s : State) (q : QueuedFrame) : State :=
  match q.frame with
  | .replication c seq b => s.takeReplication c seq b
  | .heartbeat h => s.takeHeartbeatFrame h q.arrival

/-- R72, R73: RPE takes the frame whose turn it is, where intake is open and it is of a kind. -/
def State.takeKind (s : State) (k : FeedKind) : State :=
  match s.nextFrame with
  | some (p, q) => if s.intakeOpen ∧ q.frame.kind = k then (s.dropHead p).handleFrame q else s
  | none => s

/-- LIST_BEGIN (R49). -/
def execListBegin (s : State) : Host.Outcome State Fault Refusal := whenRunning s fun s => s.takeKind .listBegin

/-- EVENT (R50, R51). -/
def execEvent (s : State) : Host.Outcome State Fault Refusal := whenRunning s fun s => s.takeKind .event

/-- LIST_END (R51, R52). -/
def execListEnd (s : State) : Host.Outcome State Fault Refusal := whenRunning s fun s => s.takeKind .listEnd

/-- LIST_ABORT (R51). -/
def execListAbort (s : State) : Host.Outcome State Fault Refusal := whenRunning s fun s => s.takeKind .listAbort

/-- INSERT_AFTER (R61 to R64). -/
def execInsertAfter (s : State) : Host.Outcome State Fault Refusal := whenRunning s fun s => s.takeKind .insertAfter

/-- REPLACE (R61 to R64). -/
def execReplace (s : State) : Host.Outcome State Fault Refusal := whenRunning s fun s => s.takeKind .replace

/-- DELETE (R61 to R64). -/
def execDelete (s : State) : Host.Outcome State Fault Refusal := whenRunning s fun s => s.takeKind .delete

/-- FLIP (R57). -/
def execFlip (s : State) : Host.Outcome State Fault Refusal := whenRunning s fun s => s.takeKind .flip

/-- HEARTBEAT (R82 to R85). -/
def execHeartbeat (s : State) : Host.Outcome State Fault Refusal := whenRunning s fun s => s.takeKind .heartbeat

/-! ## Enabling (R74, R75) -/

/-- R74, R75, R68: a feed port is enabled or disabled. -/
def State.setFeedEnabled (s : State) (p : FeedPort) (on : Bool) : State :=
  let k := s.feed p
  if k.enabled = on then s
  else if on then (s.putFeed p { k with enabled := true }).rxWait (feedLine p)
  else s.putFeed p { k with enabled := false, tx := { k.tx with waiting := none } }

/-! ## The STANDBY REPORT (R86, R88) -/

/-- R86: the report timer is reloaded with 25. -/
def State.reloadReportTimer (s : State) : State := { s with rpe := { s.rpe with reportTimer := 25 } }

/-- REPORT_TIMER_EXPIRY (R86). -/
def execReportTimerExpiry (s : State) : Host.Outcome State Fault Refusal :=
  whenRunning s fun s => if s.rpe.reportTimer = 0 then s.reloadReportTimer.reportDue else s

/-- R88: a transmission ends, and the waiting report begins. -/
def FeedTx.ended (t : FeedTx) : FeedTx :=
  match t.sending with
  | none => t
  | some _ => ⟨t.waiting, none⟩

/-- REPORT_TRANSMIT_END (R88). -/
def execReportTransmitEnd (port : FeedPort) (s : State) : Host.Outcome State Fault Refusal :=
  whenRunning s fun s => s.putFeed port { s.feed port with tx := (s.feed port).tx.ended }

end Sys2Proof.Machine
end

