-- ==== Sys2Proof/Machine/Scan.lean ====
section
/-! DEFINITION. The presence scanner (5.2): pulses, windows and sweeps. -/

namespace Sys2Proof.Machine

/-- R95: a count saturates at 65535. -/
def countUp (n : Nat) : Nat := min 65535 (n + 1)

/-- R96: the channel is in the scan mask. -/
def State.masked (s : State) (c : Channel) : Bool := s.live.scanMask.getLsbD c.val

/-- R98: the masked channels in ascending order. -/
def State.maskedChannels (s : State) : List Channel := channels.filter fun c => s.masked c

/-- R5, R95: a pulse in the window: the channel's count goes up where the channel is being counted. -/
def Scan.pulse (x : Scan) (masked : Bool) (c : Channel) : Scan :=
  match x with
  | .sequential d g n => if d = c then .sequential d g (countUp n) else x
  | .parallel g ns => if masked then .parallel g (PerChannel.put ns c (countUp ns[c])) else x
  | .idle => x
  | .starting _ => x

/-- R9: a line of the frame is gated. -/
def FrameTiming.gates (t : FrameTiming) (line : Nat) : Bool := gateFirst t.lines ≤ line && line ≤ t.lines

/-- R95: the gated lines of the open window have not all ended. -/
def State.windowHasRoom (s : State) : Bool :=
  match s.sup.scan with
  | .sequential _ g _ => g < 2 ^ s.live.scanResolution
  | .parallel g _ => g < 2 ^ s.live.scanResolution
  | .idle => false
  | .starting _ => false

/-- PRESENCE_PULSE (R95): a pulse whose leading edge falls in a line of the frame. -/
def execPresencePulse (c : Channel) (line : Nat) (s : State) : Host.Outcome State Fault Refusal :=
  whenRunning s fun s =>
    if s.cdu.frame.gates line && s.windowHasRoom then s.putScan (s.sup.scan.pulse (s.masked c) c) else s

/-- R97, R98, R99: the first window of a sweep. -/
def State.firstWindow (s : State) : Scan :=
  match s.live.scanMode with
  | .parallel => .parallel 0 (PerChannel.same 0)
  | .sequential =>
    match s.maskedChannels with
    | c :: _ => .sequential c 0 0
    | [] => .idle

/-- SWEEP_START (R97, R102): at the frame start that opens the first window. -/
def execSweepStart (s : State) : Host.Outcome State Fault Refusal :=
  whenRunning s fun s =>
    match s.sup.scan with
    | .starting true => s.putScan s.firstWindow
    | .starting false => s
    | .idle => s
    | .sequential _ _ _ => s
    | .parallel _ _ => s

/-- R102: a sweep ends. -/
def State.sweepEnd (s : State) : State :=
  State.raiseDevice (s.putScan (if s.live.scanRepeat then .starting false else .idle)) .scanDone

/-- R98: the masked channel after one in ascending order. -/
def State.nextMasked (s : State) (c : Channel) : Option Channel := s.maskedChannels.find? fun d => c < d

/-- R98, R99, R100: an open window ends. -/
def State.endWindow (s : State) : State :=
  match s.sup.scan with
  | .sequential c _ n =>
    match s.nextMasked c with
    | some d => State.takeSample (s.putScan (.sequential d 0 0)) c n
    | none => (s.takeSample c n).sweepEnd
  | .parallel _ ns => (s.maskedChannels.foldl (fun s c => s.takeSample c ns[c]) s).sweepEnd
  | .idle => s
  | .starting _ => s

/-- WINDOW_END (R95, R98 to R102). -/
def execWindowEnd (s : State) : Host.Outcome State Fault Refusal := whenRunning s fun s => s.endWindow

end Sys2Proof.Machine
end

