-- ==== Sys2Proof/Machine/Site.lean ====
section
/-! DEFINITION. The Site Link Interface (chapter 8): valid frames, answers, silence, notices and the transmit side. -/

namespace Sys2Proof.Machine

/-! ## Taking a request (R164 to R168) -/

/-- R164, R166: a valid frame reloads the port's silence timer, makes the port LIVE, and leaves its receive stage waiting. -/
def State.validFrame (s : State) (p : SitePort) : State :=
  State.rxWait (s.putSite p { s.site p with live := true, timer := s.live.siteTimeout }) (siteLine p)

/-- R165: the answer queue has room, and a request is taken. -/
def State.takesRequests (s : State) (p : SitePort) : Bool := (s.site p).answers.length < answerQueueSize

/-- An answer is appended to the port's answer queue (R165). -/
def State.queueAnswer (s : State) (p : SitePort) (a : Answer) : State :=
  s.putSite p { s.site p with answers := (s.site p).answers ++ [a] }

/-- What the owner of a request returns (R168): the state after it, the answer, and the bytes of its result. -/
structure Verdict where
  state : State
  code : AnswerCode
  result : List Byte

/-- A request that is refused changes no state (R168). -/
def State.refuse (s : State) (k : AnswerCode) : Verdict := ⟨s, k, []⟩

/-- A request that is answered DONE. -/
def State.done (s : State) (result : List Byte) : Verdict := ⟨s, .done, result⟩

/-- R164, R165, R168: a valid frame's request is taken: its owner decides, and the answer is queued. -/
def State.answerBy (s : State) (p : SitePort) (code : Byte) (tag : Tag) (owner : State → Verdict) : State :=
  let t := s.validFrame p
  if t.takesRequests p then
    let v := owner t
    v.state.queueAnswer p ⟨tag, code, v.code, v.result⟩
  else t

/-- R168 step 2: a body that disagrees with its form is refused with BAD-VALUE; otherwise the owner takes its fields. -/
def State.request {α : Type} (s : State) (p : SitePort) (code : Byte) (r : Request α) (owner : α → State → Verdict) :
    State :=
  s.answerBy p code r.tag fun s =>
    match r with
    | .formed _ x => owner x s
    | .malformed _ => s.refuse .badValue

/-- R168 step 3: a channel number above 11 is refused with NO-CHANNEL. -/
def State.onChannel (s : State) (b : Byte) (owner : Channel → Verdict) : Verdict :=
  match channelOf b with
  | some c => owner c
  | none => s.refuse .noChannel

/-- UNKNOWN_REQUEST (R168, R192). -/
def execUnknownRequest (port : SitePort) (code : Byte) (tag : Tag) (s : State) : Host.Outcome State Fault Refusal :=
  whenRunning s fun s => s.answerBy port code tag fun s => s.refuse .unknownRequest

/-- SITE_FRAME_CHECK_FAIL (R164): the frame is discarded. -/
def execSiteFrameCheckFail (port : SitePort) (s : State) : Host.Outcome State Fault Refusal :=
  whenRunning s fun s => s.rxWait (siteLine port)

/-! ## Silence (R166, R167) -/

/-- The silence timer of a LIVE port has reached 0. -/
def State.silenceDue (s : State) (p : SitePort) : Bool := (s.site p).live && (s.site p).timer == 0

/-- R166, R167, R132: a port becomes SILENT, SITE-SILENT is set, and the port's holds lapse. -/
def State.siteSilent (s : State) (p : SitePort) : State :=
  State.lapseHolds ((s.putSite p { s.site p with live := false, timer := 0 }).raiseDevice (.siteSilent p)) p

/-- SITE_SILENCE_EXPIRY (R166). -/
def execSiteSilenceExpiry (port : SitePort) (s : State) : Host.Outcome State Fault Refusal :=
  whenRunning s fun s => if s.silenceDue port then s.siteSilent port else s

/-! ## Notices (R177) -/

/-- The code of a health state (10.3). -/
def Health.code : Health → Nat
  | .unknown => 0
  | .good => 1
  | .suspect => 2
  | .isolated => 3
  | .off => 4
  | .failing => 5
  | .failed => 6

/-- The value of the flag of a pair. -/
def State.flagOf (s : State) (kind : Nat) (channel : Option Channel) : Bool :=
  match channel with
  | none => ((deviceFlagOf kind).map fun k => s.deviceFlag k).getD false
  | some c => ((channelFlagOf kind).map fun k => s.channelFlag k c).getD false

/-- Station now as a day and timecode, absent in UNSET (R177, R21). -/
def State.stationTime (s : State) : Option Label :=
  if s.stc.state = .unset then none else some (stageB s.format s.stationNow)

/-- The detail byte of a notice (10.3). -/
def State.noticeDetail (s : State) (kind : Nat) (channel : Option Channel) : Nat :=
  match channel with
  | none => 0
  | some c =>
    if kind = ChannelFlag.healthChange.kind then (s.watched c).health.code
    else if kind = ChannelFlag.authorityChange.kind then (s.authority c).name.code
    else 0

/-- R177: the notice of a pair, formed now. -/
def State.formNotice (s : State) (q : PendingPair) : Notice :=
  ⟨q.kind, q.channel, s.flagOf q.kind q.channel, s.stationTime, s.noticeDetail q.kind q.channel⟩

/-- R177: the pair that is sent first; the set is in the order of kind and channel. -/
def firstPair (pairs : List PendingPair) : Option PendingPair :=
  (pairs.find? fun q => q.urgent).or pairs.head?

/-- R165: a notice may begin. -/
def SitePortState.noticeReady (k : SitePortState) : Bool :=
  k.sending.isNone && k.answers.isEmpty && k.live && !k.pairs.isEmpty

/-- NOTICE_TRANSMIT_BEGIN (R177). -/
def execNoticeTransmitBegin (port : SitePort) (s : State) : Host.Outcome State Fault Refusal :=
  whenRunning s fun s =>
    let k := s.site port
    match firstPair k.pairs with
    | some q =>
      if k.noticeReady then
        s.putSite port { k with sending := some (.notice (s.formNotice q)), pairs := k.pairs.filter fun x => !q.sameFlag x }
      else s
    | none => s

/-! ## Answers and the end of a transmission (R165) -/

/-- ANSWER_TRANSMIT_BEGIN (R165). -/
def execAnswerTransmitBegin (port : SitePort) (s : State) : Host.Outcome State Fault Refusal :=
  whenRunning s fun s =>
    let k := s.site port
    match k.sending, k.answers with
    | none, a :: rest => s.putSite port { k with sending := some (.answer a), answers := rest }
    | _, _ => s

/-- SITE_TRANSMIT_END (R165). -/
def execSiteTransmitEnd (port : SitePort) (s : State) : Host.Outcome State Fault Refusal :=
  whenRunning s fun s => s.putSite port { s.site port with sending := none }

end Sys2Proof.Machine
end

