-- ==== Sys2Proof/Machine/Reads.lean ====
section
/-! DEFINITION. The results of the site ports' requests as bytes (R66, R169, R193): the read items in their order, each in the width
of its kind. DESIGN CHOICE (log 16): what R193 leaves open in these layouts. -/

namespace Sys2Proof.Machine

/-! ## Codes by place (R193) -/

/-- "ACQUIRING, LOCKED or FREERUN" (1.2). -/
def RefState.code : RefState → Nat
  | .acquiring => 0
  | .locked => 1
  | .freerun => 2

/-- "UNSET, LOCKED, HOLDOVER or SET" (R14). -/
def OffsetState.code : OffsetState → Nat
  | .unset => 0
  | .locked => 1
  | .holdover => 2
  | .set => 3

/-- "LIVE or SILENT" (R91, R166). -/
def liveCode (live : Bool) : Nat := if live then 0 else 1

/-- "UNSCANNED, PRESENT or ABSENT" (R101). -/
def Presence.code : Presence → Nat
  | .unscanned => 0
  | .present => 1
  | .absent => 2

/-- "OK, FAULT or OFF" (4.5, 10.2). -/
def AirReport.code : AirReport → Nat
  | .ok => 0
  | .fault => 1
  | .off => 2

/-- "AUTO, SITE-A, SITE-B, KEY, LAPSE" (R113). -/
def Origin.code : Origin → Nat
  | .auto => 0
  | .site .A => 1
  | .site .B => 2
  | .key => 3
  | .lapse => 4

/-- A player, a site port: A is 0, B is 1. -/
def sideCode : Side → Nat
  | .A => 0
  | .B => 1

/-- "CLIP, LIVE or FILLER" (R43). -/
def SegContent.code : SegContent → Nat
  | .clip _ _ => 0
  | .live _ => 1
  | .filler => 2

/-- "CLIP, LIVE, FILL, GAP, ROUTED" (R113). -/
def AirKind.code : AirKind → Nat
  | .clip => 0
  | .live => 1
  | .fill => 2
  | .gap => 3
  | .routed => 4

/-- "NOW or NEXT-BOUNDARY" (R113). -/
def ReturnMode.code : ReturnMode → Nat
  | .now => 0
  | .nextBoundary => 1

/-- "STANDBY or HELD" (R113). DESIGN CHOICE (log 16): they are authorities, whose codes 10.2 gives, so they do not take their places in
R113's row. -/
def Prior.code : Prior → Nat
  | .standby => AuthorityName.code .standby
  | .held _ => AuthorityName.code .held

/-- "IDLE, CUED, ON-AIR" (R139). -/
def PlayerState.code : PlayerState → Nat
  | .idle => 0
  | .cued => 1
  | .onAir => 2

/-- "NONE, COMPLETE or FAILED" (R183). -/
def SaveOutcome.code : SaveOutcome → Nat
  | .none => 0
  | .complete => 1
  | .failed => 2

/-- Scan modes (10.3). -/
def ScanMode.code : ScanMode → Nat
  | .sequential => 0
  | .parallel => 1

/-! ## Lists and texts -/

/-- A list: a count byte, then its members (R193). -/
def listBytes {α : Type} (enc : α → List Byte) (xs : List α) : List Byte := nat8 xs.length ++ xs.flatMap enc

/-- A field of varying length (R190). -/
def textBytes (t : List Byte) : List Byte := nat8 t.length ++ t

/-! ## STATUS (R169) -/

/-- One feed port: enable, queue depth, state, watch timer. -/
def State.feedStatus (s : State) (p : FeedPort) : List Byte :=
  flag8 (s.feed p).enabled ++ nat16 (s.feed p).queue.length ++ nat8 (liveCode (s.sup.watch.get p).live)
    ++ nat16 (s.sup.watch.get p).timer

/-- The channel whose window is open in SEQUENTIAL mode (R104). -/
def Scan.openChannel : Scan → Option Channel
  | .sequential c _ _ => some c
  | .idle => none
  | .starting _ => none
  | .parallel _ _ => none

/-- The scan settings in the widths of CONFIGURE SCAN. -/
def State.scanSettings (s : State) : List Byte :=
  nat8 s.live.scanResolution ++ nat8 (ScanMode.code s.live.scanMode) ++ flag8 s.live.scanRepeat
    ++ nat16 s.live.scanMask.toNat

/-- The scanner's items (R104). -/
def State.scanStatus (s : State) : List Byte :=
  nat8 (if s.sup.scan = .idle then 0 else 1) ++ s.scanSettings ++ optional (fun c => nat8 c.val) s.sup.scan.openChannel

/-- The transaction in progress: channel and kind of its entry (R152). -/
def State.txnStatus (s : State) : List Byte :=
  optional (fun t => nat8 t.entry.channel.val ++ nat8 (if t.entry.action.isPlay then 0 else 1)) s.cus.txn

/-- One site port: state and silence timer. -/
def State.siteStatus (s : State) (p : SitePort) : List Byte := nat8 (liveCode (s.site p).live) ++ nat16 (s.site p).timer

/-- The SAVE's items (R183). -/
def State.saveStatus (s : State) : List Byte :=
  flag8 s.saving ++ optional (fun j => nat16 j.left) s.store.save ++ nat8 s.store.outcome.code

/-- The result of STATUS (R169). -/
def State.statusBytes (s : State) : List Byte :=
  nat8 s.cdu.refState.code ++ flag8 (s.cdu.refState == .locked && s.cdu.phase == .pending)
    ++ nat8 s.stc.state.code ++ nat16 s.slotsUsed
    ++ s.feedStatus .A ++ s.feedStatus .B ++ nat8 (if s.linkUp then 0 else 1) ++ flag8 (!s.intakeOpen)
    ++ s.scanStatus ++ nat8 (if s.sup.key.asserted then 0 else 1) ++ nat16 s.sup.key.count
    ++ (channels.flatMap fun c => nat8 (s.authority c).name.code)
    ++ nat16 s.cueEntries ++ s.txnStatus ++ (channels.flatMap fun c => flag8 s.xps.tally[c]) ++ flag8 s.xps.alarm
    ++ s.siteStatus .A ++ s.siteStatus .B ++ flag8 s.store.defaulted ++ s.saveStatus

/-! ## CHANNEL (R66, R169) -/

/-- The active page's items (R66). -/
def activeBytes (p : Option Page) : List Byte :=
  nat8 (if p.isSome then 1 else 0) ++ optional (fun p => nat8 p.baseDay) p ++ optional (fun p => bytes16 p.serial) p
    ++ optional (fun p => nat16 p.events.length) p ++ optional (fun p => nat16 p.dropped) p
    ++ optional (fun p => flag8 p.behind) p ++ optional (fun p => flag8 p.diverged) p

/-- The BROKEN mark of a LOADING page. -/
def NextPage.brokenMark : NextPage → Option Bool
  | .loading p => some p.broken
  | .empty => none
  | .committing _ => none
  | .ready _ => none

/-- The serial of a next page. -/
def NextPage.serial : NextPage → Option (BitVec 16)
  | .empty => none
  | .loading p => some p.serial
  | .committing p => some p.serial
  | .ready p => some p.serial

/-- The base day of a next page. -/
def NextPage.baseDay : NextPage → Option Nat
  | .empty => none
  | .loading p => some p.baseDay
  | .committing p => some p.baseDay
  | .ready p => some p.baseDay

/-- The declared count of a LOADING or COMMITTING page. -/
def NextPage.declared : NextPage → Option Nat
  | .empty => none
  | .loading p => some p.declared
  | .committing p => some p.declared
  | .ready _ => none

/-- The code of a next-page state (10.2). DESIGN CHOICE (log 16): without the 80h of a BROKEN page, since R66 gives that mark as an item of
its own. -/
def NextPage.code : NextPage → Nat
  | .empty => 0
  | .loading _ => 1
  | .committing _ => 2
  | .ready _ => 3

/-- The next page's items (R66). -/
def nextBytes (f : Format) (n : NextPage) : List Byte :=
  nat8 n.code ++ optional flag8 n.brokenMark ++ optional bytes16 n.serial ++ optional nat8 n.baseDay
    ++ optional nat16 (n.serial.map fun _ => n.events.length) ++ optional nat16 n.declared
    ++ optional (fun x => labelBytes (stageB f x)) n.flip

/-- A channel's place in the commit queue, counting from 1, in two bytes where it is reported (log 16). -/
def placeIn (q : List Channel) (c : Channel) : Option Nat :=
  if q.contains c then some ((q.takeWhile fun d => d != c).length + 1) else none

/-- The page items of a CHANNEL read (R66). -/
def State.pageBytes (s : State) (c : Channel) : List Byte :=
  activeBytes (s.pages c).active ++ nextBytes s.format (s.pages c).next ++ flag8 s.engineRunning
    ++ optional nat16 (placeIn s.sst.queue c)

/-- The run: value PRESENT, ABSENT or none, and count (R101). -/
def runBytes : Run → List Byte
  | some (v, n) => nat8 (if v then 0 else 1) ++ nat16 n
  | none => nat8 2 ++ nat16 0

/-- The confirm count while FAILING (R108). -/
def SupChannel.confirmCount (k : SupChannel) : Option Nat := if k.health = .failing then some k.confirm else none

/-- Health and presence (R94, R104, R110). -/
def State.healthBytes (s : State) (c : Channel) : List Byte :=
  let k := s.watched c
  nat8 k.health.code ++ optional (fun a => nat8 a.code) k.latestAir ++ nat8 k.presence.code
    ++ optional flag8 k.latestResume ++ nat8 (if s.linkUp then 0 else 1) ++ optional nat16 k.confirmCount
    ++ nat8 k.presence.code ++ runBytes k.run ++ optional nat16 k.lastCount ++ flag8 (s.masked c)

/-- The media point of a clip. -/
def SegContent.media : SegContent → Option Nat
  | .clip _ m => some m
  | .live _ => none
  | .filler => none

/-- The live source of a live segment. -/
def SegContent.source : SegContent → Option Nat
  | .live x => some x
  | .clip _ _ => none
  | .filler => none

/-- An on-air segment (R113). -/
def airBytes (a : OnAir) : List Byte :=
  nat8 a.kind.code ++ bytes32 a.id ++ optional nat16 a.source ++ optional (fun q => nat8 (sideCode q)) a.player
    ++ optional bytes32 a.stop

/-- The station frame that a local frame will have, with the wrap of the count (R15, R35). -/
def State.stationAt (s : State) (x : LocalFrame) : Nat :=
  (x.toNat + s.stc.offset + (if x.toNat < s.now.toNat then wrapShift s.format else 0)) % wf s.format

/-- A join plan in the order of R43, then its player (R113, R122). Its station time is that of jl by the offset as it now stands: "a
slew or step of O after the join [...] moves only the station times that a CHANNEL read reports for the plan" (R35). DESIGN CHOICE
(log 16): the player stands last, where R113 names it, and not where R122 lists it. -/
def State.planBytes (s : State) (p : JoinPlan) : List Byte :=
  bytes32 p.start ++ labelBytes (stageB s.format (s.stationAt p.start)) ++ nat8 p.content.code ++ bytes32 p.id
    ++ optional nat32 p.content.media ++ optional nat16 p.content.source ++ optional bytes32 p.stop
    ++ optional (fun x => bytes32 x.1 ++ bytes32 x.2) p.next ++ flag8 p.exhausted ++ optional (fun q => nat8 (sideCode q)) p.player

/-- The origin and join plan of an ARMED record. -/
def Authority.armedPart : Authority → Option (Origin × JoinPlan)
  | .armed o p => some (o, p)
  | .main => none
  | .standby _ => none
  | .held _ _ => none
  | .returning _ _ _ _ => none

/-- The holder of a HELD record, or of one that is RETURNING from HELD. -/
def Authority.holder : Authority → Option SitePort
  | .held h _ => some h
  | .returning (.held h) _ _ _ => some h
  | .returning .standby _ _ _ => none
  | .main => none
  | .armed _ _ => none
  | .standby _ => none

/-- The return mode, point and prior state of a RETURNING record. -/
def Authority.returnPart : Authority → Option (ReturnMode × LocalFrame × Prior)
  | .returning p m t _ => some (m, t, p)
  | .main => none
  | .armed _ _ => none
  | .standby _ => none
  | .held _ _ => none

/-- An authority record in the order of R113; the return point also as a station time (R137). -/
def State.authorityBytes (s : State) (c : Channel) : List Byte :=
  let r := s.authority c
  nat8 r.name.code ++ optional (fun x => nat8 x.1.code) r.armedPart ++ optional (fun x => s.planBytes x.2) r.armedPart
    ++ optional (fun h => nat8 (sideCode h)) r.holder ++ optional airBytes r.air
    ++ optional (fun x => nat8 x.1.code) r.returnPart
    ++ optional (fun x => bytes32 x.2.1 ++ labelBytes (stageB s.format (s.stationAt x.2.1))) r.returnPart
    ++ optional (fun x => nat8 x.2.2.code) r.returnPart

/-- "A, B or none" (R139). -/
def lastClipCode : Option Player → Nat
  | some p => sideCode p
  | none => 2

/-- The state of a segment's PLAY (R144). DESIGN CHOICE (log 16): 0 queued, 1 in transaction, 2 ended, by the order of R143's cases. -/
def State.playCode (s : State) (c : Channel) (start : LocalFrame) : Nat :=
  if s.playQueued c start then 0 else if s.playInTxn c start then 1 else 2

/-- The clip id and media point of a planned clip. -/
def PlannedContent.clipPart : PlannedContent → Option (List Byte × Nat)
  | .clip _ clipId media => some (clipId, media)
  | .live _ => none
  | .fill => none
  | .gap => none

/-- The live source of a planned live segment. -/
def PlannedContent.source : PlannedContent → Option Nat
  | .live x => some x
  | .clip _ _ _ => none
  | .fill => none
  | .gap => none

/-- A planned segment (R144). -/
def State.plannedBytes (s : State) (c : Channel) (seg : Planned) : List Byte :=
  nat8 seg.content.airKind.code ++ bytes32 seg.id ++ bytes32 seg.start ++ optional bytes32 seg.stop
    ++ optional (fun q => nat8 (sideCode q)) seg.content.player ++ optional (fun x => textBytes x.1) seg.content.clipPart
    ++ optional (fun x => nat32 x.2) seg.content.clipPart
    ++ optional (fun _ => nat8 (s.playCode c seg.start)) seg.content.player
    ++ optional nat16 seg.content.source ++ flag8 seg.placed

/-- The clip id, media point and attempt of a PLAY. -/
def CueAction.fields : CueAction → Option (List Byte × Nat × Nat)
  | .play clipId media attempt _ => some (clipId, media, attempt)
  | .cancel => none

/-- A cue entry with its place in the queue, counting from 1 (R141, R162). DESIGN CHOICE (log 16): the place and the attempt number
are counts of two bytes, and the place and then the kind, PLAY or CANCEL, stand before the fields of R141. A CANCEL has the fields of a
PLAY in their order, those that it does not carry absent, and has a withdrawn mark too, with no presence byte and always clear. -/
def entryBytes (place : Nat) (x : CueEntry) (withdrawn : Bool) : List Byte :=
  nat16 place ++ nat8 (if x.action.isPlay then 0 else 1) ++ nat8 x.channel.val ++ nat8 (sideCode x.player) ++ nat8 x.address
    ++ optional (fun y => textBytes y.1) x.action.fields ++ optional (fun y => nat32 y.2.1) x.action.fields
    ++ bytes32 x.start ++ bytes32 x.deadline ++ optional (fun y => nat16 y.2.2) x.action.fields ++ flag8 withdrawn

/-- Every entry with its place and withdrawn mark: the one in transaction first (R141). -/
def State.placedEntries (s : State) : List (Nat × CueEntry × Bool) :=
  (((s.cus.txn.map fun t => (t.entry, t.withdrawn)).toList ++ s.cus.queue.map fun x => (x, false)).zipIdx).map
    fun y => (y.2 + 1, y.1)

/-- The items of CUS and XPS (R162). DESIGN CHOICE (log 16): the pending crosspoints stand in the order in which they were placed. -/
def State.cueBytes (s : State) (c : Channel) : List Byte :=
  let k := s.cue c
  nat8 k.players.a.code ++ nat8 k.players.b.code ++ nat8 (lastClipCode k.lastClip)
    ++ listBytes (s.plannedBytes c) k.planned
    ++ listBytes (fun y => entryBytes y.1 y.2.1 y.2.2) (s.placedEntries.filter fun y => y.2.1.channel == c)
    ++ listBytes (fun x => nat16 x.source ++ bytes32 x.due ++ nat8 x.channel.val)
      (s.xps.pending.filter fun x => x.destination == (s.cfg c).destination)
    ++ optional nat16 (s.lastAckOf (s.cfg c).destination)

/-- The result of CHANNEL (R169). -/
def State.channelBytes (s : State) (c : Channel) : List Byte :=
  s.pageBytes c ++ optional bytes16 s.rpe.baseline[c] ++ s.healthBytes c ++ s.authorityBytes c ++ s.cueBytes c
    ++ channelFlags.flatMap fun k => flag8 (s.channelFlag k c)

/-! ## EVENT (R66) -/

/-- A stored record in the form of 10.2. -/
def storedRecord (e : Event) : EventRecord where
  id := e.id
  startMode := if e.isHard then 0 else 1
  kind := match e.kind with | .clip _ _ => 0 | .live _ => 1 | .fill => 2
  policy := if e.policy = .join then 0 else 1
  duration := BitVec.ofNat 32 e.duration
  start := match e.start with
    | .hard t _ => some ⟨BitVec.ofNat 8 t.day, BitVec.ofNat 8 t.hh, BitVec.ofNat 8 t.mm, BitVec.ofNat 8 t.ss, BitVec.ofNat 8 t.ff⟩
    | .follow => none
  trim := match e.kind with | .clip _ n => some (BitVec.ofNat 24 n) | .live _ => none | .fill => none
  live := match e.kind with | .live x => some (BitVec.ofNat 8 x) | .clip _ _ => none | .fill => none
  clipId := match e.kind with | .clip t _ => t | .live _ => [] | .fill => []

/-- R66: a relative frame of a page as a station time. -/
def pageTime (f : Format) (baseDay rel : Nat) : Label := stageB f ((pageBase f baseDay + rel) % wf f)

/-- The result of EVENT (R66). DESIGN CHOICE (log 16): the effective duration has the four bytes of a record's duration (10.2). -/
def eventBytes (f : Format) (baseDay : Nat) (e : Event) : List Byte :=
  recordBytes (storedRecord e) ++ flag8 e.adjusted ++ optional (fun r => flag8 r.truncated) e.res
    ++ optional (fun r => labelBytes (pageTime f baseDay r.start)) e.res
    ++ optional (fun r => labelBytes (pageTime f baseDay (r.start + r.dur))) e.res
    ++ optional (fun r => nat32 r.dur) e.res

/-! ## CLOCK and FLAGS (R169, R193) -/

/-- The result of CLOCK. -/
def State.clockBytes (s : State) : List Byte :=
  nat8 s.stc.state.code ++ optional labelBytes s.stationTime ++ nat8 s.cdu.refState.code ++ flag8 s.windowOpen

/-- The result of FLAGS. -/
def State.flagsBytes (s : State) : List Byte :=
  (deviceFlags.flatMap fun k => flag8 (s.deviceFlag k))
    ++ (channelFlags.flatMap fun k => channels.flatMap fun c => flag8 (s.channelFlag k c))
    ++ bytes32 (s.site .A).mask ++ bytes32 (s.site .B).mask ++ bytes32 s.live.alarmMask
    ++ nat8 (Polarity.code s.live.almPolarity)

/-! ## Answers of TAKE and RETURN, and the values in force (10.3, R194) -/

/-- TAKE (R119): jl, js, kind and event id of the first segment. -/
def takeBytesOf (f : Format) (p : JoinPlan) : List Byte :=
  bytes32 p.start ++ labelBytes (stageB f p.station) ++ nat8 p.content.code ++ bytes32 p.id

/-- A set of channels as a mask, bit c for channel c (R120). -/
def channelMask (cs : List Channel) : Nat := (cs.map fun c => 2 ^ c.val).sum

/-- CONFIGURE CADENCE (R13). -/
def State.cadenceBytes (s : State) : List Byte := nat8 (formatCode s.live.format) ++ nat8 s.live.swFirst ++ nat8 s.live.swLast

/-- CONFIGURE PORTS. -/
def State.portBytes (s : State) : List Byte :=
  nat16 s.live.hbTimeout ++ nat8 s.live.feedDelay ++ nat16 s.live.siteTimeout ++ nat8 s.live.replyTimeout

/-- CONFIGURE CHANNEL: the whole record, with mask 7FFFh (R194). -/
def State.cfgBytes (s : State) (c : Channel) : List Byte := nat16 0x7FFF ++ storedBytes (storeChannel (s.cfg c))

/-- SET NOTICE MASK: the mask in force on the port (R171; log 36). -/
def State.maskBytes (s : State) (p : SitePort) : List Byte := bytes32 (s.site p).mask

/-- SET ALARM MASK: the mask and the polarity in force (R171; log 36). -/
def State.alarmBytes (s : State) : List Byte := bytes32 s.live.alarmMask ++ nat8 (Polarity.code s.live.almPolarity)

/-- FEED ENABLE: the port named and its setting in force (R171; log 36). -/
def State.enableBytes (s : State) (p : FeedPort) : List Byte := nat8 (sideCode p) ++ flag8 (s.feed p).enabled

end Sys2Proof.Machine
end

