-- ==== Sys2Proof/Machine/Store.lean ====
section
/-! DEFINITION. The Settings Store (chapter 9): SAVE, its completion, and the resets. -/

namespace Sys2Proof.Machine

/-! ## SAVE (R182, R183) -/

/-- R183: the bank that a SAVE writes, and the generation it writes there. -/
def State.saveTarget (s : State) : BankId × BitVec 16 :=
  match s.store.current with
  | none => (.A, 1)
  | some b => (b.other, (((s.store.banks.get b).map fun k => k.generation).getD 0) + 1)

/-- The running SAVE replaced. -/
def State.putSave (s : State) (j : Option SaveJob) : State := { s with store := { s.store with save := j } }

/-- R182: a SAVE is accepted: the settings are copied, and it completes at the 50th frame start. -/
def State.beginSave (s : State) : State :=
  s.putSave (some ⟨s.saveTarget.1, ⟨s.saveTarget.2, storeImage s.live⟩, 50⟩)

/-- R183: the Settings Store at the completion of a SAVE, with what the written bank reads back as. -/
def Store.completed (k : Store) (j : SaveJob) (readBack : Option Bank) : Store :=
  if readBack = some j.content then
    { k with banks := k.banks.put j.bank readBack, current := some j.bank, defaulted := false, save := none,
             outcome := .complete }
  else { k with banks := k.banks.put j.bank readBack, save := none, outcome := .failed }

/-- SAVE_COMPLETE (R182, R183). -/
def execSaveComplete (readBack : Option Bank) (s : State) : Host.Outcome State Fault Refusal :=
  whenRunning s fun s =>
    match s.store.save with
    | some j => if j.left = 0 then { s with store := s.store.completed j readBack } else s
    | none => s

/-! ## Resets (R183, R184, R186, R187) -/

/-- R183: what a bank holds whose writing a reset cut short: nothing valid, or its older contents (log 4). -/
def State.tornBank (s : State) (b : BankId) : Option Bank :=
  if Config.tornBankKeepsOld s.freeUsed then s.store.banks.get b else none

/-- The banks that a reset finds. -/
def State.banksAtReset (s : State) : PerSide (Option Bank) :=
  match s.store.save with
  | some j => s.store.banks.put j.bank (s.tornBank j.bank)
  | none => s.store.banks

/-- R186, R187: a reset begins; the image is loaded, and every block stands at its reset values until the reset ends. -/
def State.heldInReset (s : State) (nrst : Bool) : State :=
  { State.loaded .held { s.pins with nrst := nrst } s.banksAtReset with
    incoming := s.incoming
    freeUsed := s.freeUsed + (if s.saving then 1 else 0)
    pending := s.pending }

/-- POWER_ON_RESET (R186). -/
def execPowerOnReset (s : State) : Host.Outcome State Fault Refusal := .next (s.heldInReset s.pins.nrst)

/-- NRST_ACCEPTED (R187). -/
def execNrstAccepted (s : State) : Host.Outcome State Fault Refusal := .next (s.heldInReset true)

/-- R186, R187: the reset ends, and the frame with count 0 begins. -/
def State.released (s : State) : State := { s with power := .running, pins := { s.pins with nrst := false } }

/-- RESET_END (R186, R187). -/
def execResetEnd (s : State) : Host.Outcome State Fault Refusal :=
  match s.power with
  | .held => .next s.released
  | .running => .next s

end Sys2Proof.Machine
end

