-- ==== Sys2Proof/Machine/Requests.lean ====
section
/-! DEFINITION. The requests of the site ports (8.3), each decided by the rule of its owner. -/

namespace Sys2Proof.Machine

/-! ## Reads (R66, R169) -/

/-- STATUS (R169). -/
def execStatus (port : SitePort) (r : Request Unit) (s : State) : Host.Outcome State Fault Refusal :=
  whenRunning s fun s => s.request port 0x20 r fun _ s => s.done s.statusBytes

/-- CHANNEL (R169). -/
def execChannel (port : SitePort) (r : Request Byte) (s : State) : Host.Outcome State Fault Refusal :=
  whenRunning s fun s => s.request port 0x21 r fun ch s => s.onChannel ch fun c => s.done (s.channelBytes c)

/-- The base day and the events of a page named by its code (R66, R192); none for a code that names no page. -/
def State.pageNamed (s : State) (c : Channel) (page : Byte) : Option (Nat × List Event) :=
  if page = 0 then some ((((s.pages c).active.map fun p => p.baseDay).getD 0), activeEvents (s.pages c).active)
  else if page = 1 then some ((s.pages c).next.baseDay.getD 0, (s.pages c).next.events)
  else none

/-- R66: the EVENT read of a channel. -/
def State.readEvent (s : State) (c : Channel) (x : EventReadFields) : Verdict :=
  match s.pageNamed c x.page with
  | some (day, es) =>
    match es[x.index.toNat]? with
    | some e => s.done (eventBytes s.format day e)
    | none => s.refuse .badValue
  | none => s.refuse .badValue

/-- EVENT_READ (R66): the EVENT request. -/
def execEventRead (port : SitePort) (r : Request EventReadFields) (s : State) : Host.Outcome State Fault Refusal :=
  whenRunning s fun s => s.request port 0x22 r fun x s => s.onChannel x.channel fun c => s.readEvent c x

/-- CLOCK (R169). -/
def execClock (port : SitePort) (r : Request Unit) (s : State) : Host.Outcome State Fault Refusal :=
  whenRunning s fun s => s.request port 0x23 r fun _ s => s.done s.clockBytes

/-- FLAGS (R169). -/
def execFlags (port : SitePort) (r : Request Unit) (s : State) : Host.Outcome State Fault Refusal :=
  whenRunning s fun s => s.request port 0x24 r fun _ s => s.done s.flagsBytes

/-! ## Taking and cancelling (R119, R120, R125) -/

/-- R119: TAKE of one channel. -/
def State.takeOne (s : State) (p : SitePort) (c : Channel) : Verdict :=
  if s.isMain c then
    match s.readiness c with
    | .notReady => s.refuse .notReady
    | .conflict => s.refuse .conflict
    | .ready =>
      let t := s.arm c (.site p)
      t.done (((t.authority c).armedPart.map fun x => takeBytesOf t.format x.2).getD [])
  else s.refuse .wrongState

/-- R120: one channel of TAKE ALL, with the channels armed so far. -/
def takeNext (p : SitePort) (x : State × List Channel) (c : Channel) : State × List Channel :=
  if x.1.isMain c && x.1.readiness c == .ready then (x.1.arm c (.site p), x.2 ++ [c])
  else (x.1.passOver (.site p) c, x.2)

/-- R120: TAKE ALL. -/
def State.takeEvery (s : State) (p : SitePort) : Verdict :=
  let x := channels.foldl (takeNext p) (s, [])
  if x.2.isEmpty then ⟨x.1, .notReady, []⟩ else x.1.done (nat16 (channelMask x.2))

/-- TAKE (R119); a channel byte of FFh names ALL (10.3). -/
def execTake (port : SitePort) (r : Request Byte) (s : State) : Host.Outcome State Fault Refusal :=
  whenRunning s fun s => s.request port 0x25 r fun ch s =>
    if ch = 0xFF then s.takeEvery port else s.onChannel ch fun c => s.takeOne port c

/-- TAKE_ALL (R120). -/
def execTakeAll (port : SitePort) (tag : Tag) (s : State) : Host.Outcome State Fault Refusal :=
  whenRunning s fun s => s.answerBy port 0x25 tag fun s => s.takeEvery port

/-- R125: CANCEL of a channel. -/
def State.cancelArming (s : State) (c : Channel) : Verdict :=
  match s.authority c with
  | .armed _ p => (s.abort c p).done []
  | .main => s.refuse .wrongState
  | .standby _ => s.refuse .wrongState
  | .held _ _ => s.refuse .wrongState
  | .returning _ _ _ _ => s.refuse .wrongState

/-- CANCEL (R125). -/
def execCancel (port : SitePort) (r : Request Byte) (s : State) : Host.Outcome State Fault Refusal :=
  whenRunning s fun s => s.request port 0x26 r fun ch s => s.onChannel ch fun c => s.cancelArming c

/-! ## Hold-scoped requests (R127 to R134) -/

/-- R127: a hold-scoped request from the port that does not hold the channel is refused with HELD-ELSEWHERE, before every other
check. -/
def State.asHolder (s : State) (p : SitePort) (c : Channel) (owner : Verdict) : Verdict :=
  match (s.authority c).holder with
  | some h => if h = p then owner else s.refuse .heldElsewhere
  | none => owner

/-- R128. -/
def State.holdRequest (s : State) (p : SitePort) (c : Channel) : Verdict :=
  match s.authority c with
  | .main => s.refuse .wrongState
  | .armed _ _ => s.refuse .busy
  | .returning _ _ _ _ => s.refuse .busy
  | .held _ _ => s.done []
  | .standby a => (s.hold c p a).done []

/-- HOLD (R127, R128). -/
def execHold (port : SitePort) (r : Request Byte) (s : State) : Host.Outcome State Fault Refusal :=
  whenRunning s fun s => s.request port 0x27 r fun ch s =>
    s.onChannel ch fun c => s.asHolder port c (s.holdRequest port c)

/-- R131. -/
def State.releaseRequest (s : State) (c : Channel) : Verdict :=
  match s.authority c with
  | .held _ _ => (s.release c).done []
  | .main => s.refuse .wrongState
  | .armed _ _ => s.refuse .wrongState
  | .standby _ => s.refuse .wrongState
  | .returning _ _ _ _ => s.refuse .wrongState

/-- RELEASE (R127, R131). -/
def execRelease (port : SitePort) (r : Request Byte) (s : State) : Host.Outcome State Fault Refusal :=
  whenRunning s fun s => s.request port 0x28 r fun ch s =>
    s.onChannel ch fun c => s.asHolder port c (s.releaseRequest c)

/-- The return mode of a code (10.3). -/
def returnModeOf (mode : Byte) : Option ReturnMode :=
  if mode = 0 then some .now else if mode = 1 then some .nextBoundary else none

/-- R133 step 3: health is GOOD and the latest RESUME-READY is set. -/
def State.mayReturn (s : State) (c : Channel) : Bool :=
  (s.watched c).health == .good && (s.watched c).latestResume == some true

/-- R133, R134: a RETURN in STANDBY or HELD. -/
def State.returnFrom (s : State) (c : Channel) (prior : Prior) (mode : ReturnMode) (a : OnAir) : Verdict :=
  if s.mayReturn c then (s.acceptReturn c prior mode a).done (bytes32 (returnPoint s.now mode a)) else s.refuse .notReady

/-- R133. -/
def State.returnRequest (s : State) (c : Channel) (mode : Byte) : Verdict :=
  match returnModeOf mode with
  | none => s.refuse .badValue
  | some m =>
    match s.authority c with
    | .main => s.refuse .wrongState
    | .armed _ _ => s.refuse .busy
    | .returning _ _ _ _ => s.refuse .busy
    | .standby a => s.returnFrom c .standby m a
    | .held h a => s.returnFrom c (.held h) m a

/-- RETURN (R127, R133, R134). -/
def execReturnToMain (port : SitePort) (r : Request ReturnFields) (s : State) : Host.Outcome State Fault Refusal :=
  whenRunning s fun s => s.request port 0x29 r fun x s =>
    s.onChannel x.channel fun c => s.asHolder port c (s.returnRequest c x.mode)

/-- R130. -/
def State.routeRequest (s : State) (c : Channel) (source : Nat) : Verdict :=
  match s.authority c with
  | .main => s.refuse .wrongState
  | .standby _ => s.refuse .wrongState
  | .armed _ _ => s.refuse .busy
  | .returning _ _ _ _ => s.refuse .busy
  | .held h _ => if 255 < source then s.refuse .badValue else (s.route c h source).done []

/-- ROUTE (R127, R130). -/
def execRoute (port : SitePort) (r : Request RouteFields) (s : State) : Host.Outcome State Fault Refusal :=
  whenRunning s fun s => s.request port 0x2A r fun x s =>
    s.onChannel x.channel fun c => s.asHolder port c (s.routeRequest c x.source.toNat)

/-! ## SET TIME (R20) -/

/-- R20. -/
def State.setTimeRequest (s : State) (t : TimeBytes) : Verdict :=
  match s.stc.state with
  | .locked => s.refuse .locked
  | .set => s.refuse .locked
  | .unset | .holdover =>
    match stageA s.format (labelOf t) with
    | some a => (s.setStation a.frame).done []
    | none => s.refuse .badTime

/-- SET_TIME (R20). -/
def execSetTime (port : SitePort) (r : Request TimeBytes) (s : State) : Host.Outcome State Fault Refusal :=
  whenRunning s fun s => s.request port 0x2B r fun t s => s.setTimeRequest t

/-! ## Configure requests (R171) -/

/-- A carried timing value is outside its range. -/
def outside (lo hi : Nat) (v : Option Nat) : Bool := v.any fun x => clamp lo hi x != x

/-- A timing setting after a request: the carried value clamped, or the value in force. -/
def timing (lo hi : Nat) (v : Option Nat) (old : Nat) : Nat := (v.map (clamp lo hi)).getD old

/-- The number in an optional byte. -/
def num8 (v : Option Byte) : Option Nat := v.map fun x => x.toNat

/-- The number in an optional two-byte field. -/
def num16 (v : Option (BitVec 16)) : Option Nat := v.map fun x => x.toNat

/-- R171: an accepted configure request is answered CLAMPED if a value was clamped, and DONE if not. -/
def State.configured (s : State) (clamped : Bool) (result : List Byte) : Verdict :=
  ⟨s, if clamped then .clamped else .done, result⟩

/-- A carried code is a value of its table: 0 or 1. -/
def codeOk (v : Option Byte) : Bool := v.all fun x => x ≤ 1

/-- R181, R194: every identity-type item of a record is in its range. -/
def itemsOk (x : ChannelItems) : Bool :=
  let source (v : Option (BitVec 16)) : Bool := v.all fun y => y ≤ 255
  let address (v : Option Byte) : Bool := v.all fun y => 1 ≤ y && y ≤ 31
  codeOk x.enable && (x.policy.all fun y => y ≤ 2) && (x.destination.all fun y => y ≤ 63) && source x.mainSource
    && (x.filler.all fun y => y ≤ 255 || y == 0xFFFF) && address x.addressA && source x.sourceA && address x.addressB
    && source x.sourceB && codeOk x.tallyPolarity

/-- R181: some timing-type item is clamped. -/
def itemsClamped (x : ChannelItems) : Bool :=
  outside 2 250 (num8 x.cueLead) || outside 0 250 (num8 x.minRemain) || outside 0 65535 (num16 x.threshold)
    || outside 1 8 (num8 x.absenceCount) || outside 25 3000 (num16 x.confirm)

/-- One player's setting after a request. -/
def playerAfter (k : PlayerSetting) (address : Option Byte) (source : Option (BitVec 16)) : PlayerSetting :=
  ⟨(num8 address).getD k.address, (num16 source).getD k.source⟩

/-- A channel's settings after a request, all its values together (R181). -/
def applyItems (k : ChannelSettings) (x : ChannelItems) : ChannelSettings where
  enabled := (x.enable.map fun b => b == 1).getD k.enabled
  policy := (x.policy.map policyOf).getD k.policy
  destination := (num8 x.destination).getD k.destination
  mainSource := (num16 x.mainSource).getD k.mainSource
  filler := (x.filler.map fillerOf).getD k.filler
  players := ⟨playerAfter k.players.a x.addressA x.sourceA, playerAfter k.players.b x.addressB x.sourceB⟩
  cueLead := timing 2 250 (num8 x.cueLead) k.cueLead
  minRemain := timing 0 250 (num8 x.minRemain) k.minRemain
  threshold := timing 0 65535 (num16 x.threshold) k.threshold
  absenceCount := timing 1 8 (num8 x.absenceCount) k.absenceCount
  confirm := timing 25 3000 (num16 x.confirm) k.confirm
  tallyPolarity := (x.tallyPolarity.map polarityOf).getD k.tallyPolarity

/-- R181: the settings are applied, and enabling or disabling acts on health (R105). -/
def State.applyChannel (s : State) (c : Channel) (k : ChannelSettings) : State :=
  if k.enabled = (s.cfg c).enabled then s.putCfg c k else (s.putCfg c k).enableChanged c

/-- R181, R137, R171: CONFIGURE CHANNEL at its owners. -/
def State.configureChannelRequest (s : State) (c : Channel) (x : ChannelItems) : Verdict :=
  let k := applyItems (s.cfg c) x
  if s.saving then s.refuse .busy
  else if !s.isMain c then s.refuse .wrongState
  else if !itemsOk x || k.players.a.address == k.players.b.address then s.refuse .badValue
  else
    let t := s.applyChannel c k
    t.configured (itemsClamped x) (t.cfgBytes c)

/-- CONFIGURE_CHANNEL (R181, R137). -/
def execConfigureChannel (port : SitePort) (r : Request ConfigureChannelFields) (s : State) :
    Host.Outcome State Fault Refusal :=
  whenRunning s fun s => s.request port 0x2C r fun x s =>
    s.onChannel x.channel fun c => s.configureChannelRequest c x.items

/-- R10 step 4: the window that a request starts from. -/
def State.windowBase (s : State) (f : Option Format) : Nat × Nat :=
  match f with
  | some f => presetWindow f
  | none => (s.live.swFirst, s.live.swLast)

/-- R10 step 2: the request carries a format or a window item. -/
def cadenceCarriesTiming (x : CadenceItems) : Bool := x.format.isSome || x.swFirst.isSome || x.swLast.isSome

/-- R10 step 3: a carried code is outside its table. -/
def cadenceBadCode (x : CadenceItems) : Bool := (x.format.any fun b => 2 < b) || !codeOk x.manualLock

/-- R10 step 5: the window and the manual lock. -/
def State.putWindow (s : State) (first last : Nat) (lock : Bool) : State :=
  let t := { s with live := { s.live with swFirst := first, swLast := last } }
  { t with cdu := { t.cdu with manualLock := lock } }

/-- R10, R12: the format, where a request carries one that differs from the one accepted last (log 6). -/
def State.takeFormat (s : State) (f : Option Format) : State :=
  match f with
  | some f => if f = s.live.format then s else s.changeFormat f
  | none => s

/-- R10. -/
def State.configureCadenceRequest (s : State) (x : CadenceItems) : Verdict :=
  let f := (num8 x.format).bind formatOf
  let base := s.windowBase f
  let first := timing 2 20 (num8 x.swFirst) base.1
  let last := timing 2 20 (num8 x.swLast) base.2
  if s.saving then s.refuse .busy
  else if cadenceCarriesTiming x && s.cadenceLocked then s.refuse .locked
  else if cadenceBadCode x then s.refuse .badValue
  else if last < first then s.refuse .badValue
  else
    let lock := (x.manualLock.map fun b => b == 1).getD s.cdu.manualLock
    let t := (s.takeFormat f).putWindow first last lock
    t.configured (outside 2 20 (num8 x.swFirst) || outside 2 20 (num8 x.swLast)) t.cadenceBytes

/-- CONFIGURE_CADENCE (R10 to R12). -/
def execConfigureCadence (port : SitePort) (r : Request CadenceItems) (s : State) : Host.Outcome State Fault Refusal :=
  whenRunning s fun s => s.request port 0x2D r fun x s => s.configureCadenceRequest x

/-- R170: the four timing settings after a request. -/
def State.putPorts (s : State) (x : PortItems) : State :=
  { s with live := { s.live with
      hbTimeout := timing 10 1000 (num16 x.hbTimeout) s.live.hbTimeout
      feedDelay := timing 0 15 (num8 x.feedDelay) s.live.feedDelay
      siteTimeout := timing 25 1500 (num16 x.siteTimeout) s.live.siteTimeout
      replyTimeout := timing 1 8 (num8 x.replyTimeout) s.live.replyTimeout } }

/-- R170: some value is clamped. -/
def portsClamped (x : PortItems) : Bool :=
  outside 10 1000 (num16 x.hbTimeout) || outside 0 15 (num8 x.feedDelay) || outside 25 1500 (num16 x.siteTimeout)
    || outside 1 8 (num8 x.replyTimeout)

/-- R170. -/
def State.configurePortsRequest (s : State) (x : PortItems) : Verdict :=
  if s.saving then s.refuse .busy
  else
    let t := s.putPorts x
    t.configured (portsClamped x) t.portBytes

/-- CONFIGURE_PORTS (R170). -/
def execConfigurePorts (port : SitePort) (r : Request PortItems) (s : State) : Host.Outcome State Fault Refusal :=
  whenRunning s fun s => s.request port 0x2E r fun x s => s.configurePortsRequest x

/-- R96: a carried code, or the mask, is out of its values. -/
def scanBadCode (x : ScanItems) : Bool :=
  !codeOk x.mode || !codeOk x.sweepRepeat || (x.mask.any fun m => 0x0FFF < m)

/-- R96: the scan settings after a request. -/
def State.putScanItems (s : State) (x : ScanItems) : State :=
  { s with live := { s.live with
      scanResolution := timing 9 16 (num8 x.resolution) s.live.scanResolution
      scanMode := (x.mode.map fun b => if b = 0 then ScanMode.sequential else .parallel).getD s.live.scanMode
      scanRepeat := (x.sweepRepeat.map fun b => b == 1).getD s.live.scanRepeat
      scanMask := (x.mask.map fun m => m.setWidth 12).getD s.live.scanMask } }

/-- R96: the settings are applied, and every channel removed from the mask becomes UNSCANNED. DESIGN CHOICE (log 27): several removed
channels are unscanned and evaluated one after another, in ascending order. -/
def State.applyScan (s : State) (x : ScanItems) : State :=
  (s.putScanItems x).eachChannel fun t c => if s.masked c && !t.masked c then t.unscan c else t

/-- R96. -/
def State.configureScanRequest (s : State) (x : ScanItems) : Verdict :=
  if s.saving then s.refuse .busy
  else if s.sup.scan ≠ .idle then s.refuse .busy
  else if scanBadCode x then s.refuse .badValue
  else
    let t := s.applyScan x
    t.configured (outside 9 16 (num8 x.resolution)) t.scanSettings

/-- CONFIGURE_SCAN (R96). -/
def execConfigureScan (port : SitePort) (r : Request ScanItems) (s : State) : Host.Outcome State Fault Refusal :=
  whenRunning s fun s => s.request port 0x2F r fun x s => s.configureScanRequest x

/-! ## The scanner and the feed ports (R74, R97, R103) -/

/-- R97. -/
def State.scanStartRequest (s : State) : Verdict :=
  if s.sup.scan ≠ .idle then s.refuse .busy
  else if s.live.scanMask = 0 then s.refuse .notReady
  else (s.putScan (.starting false)).done []

/-- SCAN_START (R97). -/
def execScanStart (port : SitePort) (r : Request Unit) (s : State) : Host.Outcome State Fault Refusal :=
  whenRunning s fun s => s.request port 0x30 r fun _ s => s.scanStartRequest

/-- SCAN_STOP (R103). -/
def execScanStop (port : SitePort) (r : Request Unit) (s : State) : Host.Outcome State Fault Refusal :=
  whenRunning s fun s => s.request port 0x31 r fun _ s => (s.putScan .idle).done []

/-- The feed port of a code: 0 is A, 1 is B (10.3). -/
def feedPortOf (b : Byte) : Option FeedPort := if b = 0 then some .A else if b = 1 then some .B else none

/-- R74. -/
def State.feedEnableRequest (s : State) (x : FeedEnableFields) : Verdict :=
  match feedPortOf x.port with
  | some p => if x.setting ≤ 1 then
      let t := s.setFeedEnabled p (x.setting == 1)
      t.done (t.enableBytes p)
    else s.refuse .badValue
  | none => s.refuse .badValue

/-- FEED_ENABLE (R74, R75). -/
def execFeedEnable (port : SitePort) (r : Request FeedEnableFields) (s : State) : Host.Outcome State Fault Refusal :=
  whenRunning s fun s => s.request port 0x32 r fun x s => s.feedEnableRequest x

/-! ## CLEAR CHANNEL (R138) -/

/-- R138: a channel in MAIN is cleared: the pages (R67), the baseline (R81) and health (R110). DESIGN CHOICE (log 48): the baseline goes
first, so a report that falls due where the engine's work is abandoned (R86) gives it as none. -/
def State.clearChannel (s : State) (c : Channel) : State := ((s.putBaseline c none).emptyPages c).unhear c

/-- CLEAR_CHANNEL (R138). -/
def execClearChannel (port : SitePort) (r : Request Byte) (s : State) : Host.Outcome State Fault Refusal :=
  whenRunning s fun s => s.request port 0x33 r fun ch s =>
    s.onChannel ch fun c => if s.isMain c then (s.clearChannel c).done [] else s.refuse .wrongState

/-! ## Flags and masks (R173, R174, R178) -/

/-- R173, R192: why a name is refused, if it is. -/
def nameFault (n : FlagName) : Option AnswerCode :=
  if n.kind = 0 || 29 < n.kind then some .badValue
  else if n.kind ≤ 15 then (if n.channel = 0xFF then none else some .badValue)
  else if n.channel = 0xFF then some .badValue
  else if n.channel = 0xFE || n.channel ≤ 11 then none
  else some .noChannel

/-- R173: the flag or flags of a name are cleared. -/
def State.clearName (s : State) (n : FlagName) : State :=
  match deviceFlagOf n.kind.toNat, channelFlagOf n.kind.toNat with
  | some k, _ => s.clearDevice k
  | none, some k =>
    match channelOf n.channel with
    | some c => s.clearFlag k c
    | none => s.eachChannel fun s c => s.clearFlag k c
  | none, none => s

/-- R173: no name names ALL; a refused request clears nothing. -/
def State.clearFlagsRequest (s : State) (names : List FlagName) : Verdict :=
  match names, names.findSome? nameFault with
  | [], _ => s.clearAllFlags.done []
  | _ :: _, some k => s.refuse k
  | _ :: _, none => (names.foldl State.clearName s).done []

/-- CLEAR_FLAGS (R173). -/
def execClearFlags (port : SitePort) (r : Request (List FlagName)) (s : State) : Host.Outcome State Fault Refusal :=
  whenRunning s fun s => s.request port 0x34 r fun names s => s.clearFlagsRequest names

/-- R174: a new notice mask; the pending pairs of kinds left out are removed. -/
def SitePortState.withMask (k : SitePortState) (m : BitVec 32) : SitePortState :=
  { k with mask := m, pairs := k.pairs.filter fun q => kindIn m q.kind }

/-- SET_NOTICE_MASK (R174). -/
def execSetNoticeMask (port : SitePort) (r : Request (BitVec 32)) (s : State) : Host.Outcome State Fault Refusal :=
  whenRunning s fun s => s.request port 0x35 r fun m s =>
    if kindMaskValid m then
      let t := s.putSite port ((s.site port).withMask m)
      t.done (t.maskBytes port)
    else s.refuse .badValue

/-- R178: the alarm mask and the ALM polarity, and ALM re-evaluated (R161). -/
def State.putAlarm (s : State) (x : AlarmMaskFields) : State :=
  State.evalAlarm { s with live := { s.live with
      alarmMask := x.mask
      almPolarity := (x.polarity.map polarityOf).getD s.live.almPolarity } }

/-- R178. -/
def State.alarmMaskRequest (s : State) (x : AlarmMaskFields) : Verdict :=
  if s.saving then s.refuse .busy
  else if kindMaskValid x.mask && codeOk x.polarity then (s.putAlarm x).done (s.putAlarm x).alarmBytes
  else s.refuse .badValue

/-- SET_ALARM_MASK (R178). -/
def execSetAlarmMask (port : SitePort) (r : Request AlarmMaskFields) (s : State) : Host.Outcome State Fault Refusal :=
  whenRunning s fun s => s.request port 0x36 r fun x s => s.alarmMaskRequest x

/-! ## SAVE and KEEPALIVE (R170, R182) -/

/-- R182. -/
def State.saveRequest (s : State) : Verdict := if s.saving then s.refuse .busy else s.beginSave.done []

/-- SAVE (R182). -/
def execSave (port : SitePort) (r : Request Unit) (s : State) : Host.Outcome State Fault Refusal :=
  whenRunning s fun s => s.request port 0x37 r fun _ s => s.saveRequest

/-- KEEPALIVE (R170). -/
def execKeepalive (port : SitePort) (r : Request Unit) (s : State) : Host.Outcome State Fault Refusal :=
  whenRunning s fun s => s.request port 0x38 r fun _ s => s.done []

end Sys2Proof.Machine
end

