-- ==== Sys2Proof/Machine/Dispatch.lean ====
section
/-! DEFINITION. What each command does, one arm for each constructor of `Instr`. -/

namespace Sys2Proof.Machine

def exec (i : Instr) (s : State) : Host.Outcome State Fault Refusal :=
  match i with
  | .powerOnReset => Sys2Proof.Machine.execPowerOnReset s
  | .nrstAccepted => Sys2Proof.Machine.execNrstAccepted s
  | .resetEnd => Sys2Proof.Machine.execResetEnd s
  | .refLinePulse => Sys2Proof.Machine.execRefLinePulse s
  | .refFramePulse => Sys2Proof.Machine.execRefFramePulse s
  | .lineSilence => Sys2Proof.Machine.execLineSilence s
  | .missingFramePulse => Sys2Proof.Machine.execMissingFramePulse s
  | .rePhasing distance => Sys2Proof.Machine.execRePhasing distance s
  | .frameStart tkey => Sys2Proof.Machine.execFrameStart tkey s
  | .switchWindowEvent => Sys2Proof.Machine.execSwitchWindowEvent s
  | .localFrameWrap => Sys2Proof.Machine.execLocalFrameWrap s
  | .turnRecordExpiry => Sys2Proof.Machine.execTurnRecordExpiry s
  | .feedFrameCompletion port frameType body check => Sys2Proof.Machine.execFeedFrameCompletion port frameType body check s
  | .partialFrameAbandon line => Sys2Proof.Machine.execPartialFrameAbandon line s
  | .listBegin => Sys2Proof.Machine.execListBegin s
  | .event => Sys2Proof.Machine.execEvent s
  | .listEnd => Sys2Proof.Machine.execListEnd s
  | .listAbort => Sys2Proof.Machine.execListAbort s
  | .insertAfter => Sys2Proof.Machine.execInsertAfter s
  | .replace => Sys2Proof.Machine.execReplace s
  | .delete => Sys2Proof.Machine.execDelete s
  | .flip => Sys2Proof.Machine.execFlip s
  | .heartbeat => Sys2Proof.Machine.execHeartbeat s
  | .commitStart => Sys2Proof.Machine.execCommitStart s
  | .commitEnd => Sys2Proof.Machine.execCommitEnd s
  | .editComplete => Sys2Proof.Machine.execEditComplete s
  | .flipPerform c => Sys2Proof.Machine.execFlipPerform c s
  | .reportTimerExpiry => Sys2Proof.Machine.execReportTimerExpiry s
  | .reportTransmitEnd port => Sys2Proof.Machine.execReportTransmitEnd port s
  | .feedEnable port r => Sys2Proof.Machine.execFeedEnable port r s
  | .feedWatchExpiry port => Sys2Proof.Machine.execFeedWatchExpiry port s
  | .presencePulse c line => Sys2Proof.Machine.execPresencePulse c line s
  | .windowEnd => Sys2Proof.Machine.execWindowEnd s
  | .sweepStart => Sys2Proof.Machine.execSweepStart s
  | .confirmExpiry c => Sys2Proof.Machine.execConfirmExpiry c s
  | .keyLevelAccepted => Sys2Proof.Machine.execKeyLevelAccepted s
  | .goToAir c => Sys2Proof.Machine.execGoToAir c s
  | .returnComplete c => Sys2Proof.Machine.execReturnComplete c s
  | .segmentStart c => Sys2Proof.Machine.execSegmentStart c s
  | .cueTake => Sys2Proof.Machine.execCueTake s
  | .cueSendEnd => Sys2Proof.Machine.execCueSendEnd s
  | .cueReply address result => Sys2Proof.Machine.execCueReply address result s
  | .cueReplyTimeout => Sys2Proof.Machine.execCueReplyTimeout s
  | .crosspointIssue => Sys2Proof.Machine.execCrosspointIssue s
  | .crosspointAck destination source result => Sys2Proof.Machine.execCrosspointAck destination source result s
  | .crosspointAckTimeout destination => Sys2Proof.Machine.execCrosspointAckTimeout destination s
  | .siteFrameCheckFail port => Sys2Proof.Machine.execSiteFrameCheckFail port s
  | .siteSilenceExpiry port => Sys2Proof.Machine.execSiteSilenceExpiry port s
  | .answerTransmitBegin port => Sys2Proof.Machine.execAnswerTransmitBegin port s
  | .noticeTransmitBegin port => Sys2Proof.Machine.execNoticeTransmitBegin port s
  | .siteTransmitEnd port => Sys2Proof.Machine.execSiteTransmitEnd port s
  | .unknownRequest port code tag => Sys2Proof.Machine.execUnknownRequest port code tag s
  | .status port r => Sys2Proof.Machine.execStatus port r s
  | .channel port r => Sys2Proof.Machine.execChannel port r s
  | .eventRead port r => Sys2Proof.Machine.execEventRead port r s
  | .clock port r => Sys2Proof.Machine.execClock port r s
  | .flags port r => Sys2Proof.Machine.execFlags port r s
  | .take port r => Sys2Proof.Machine.execTake port r s
  | .takeAll port tag => Sys2Proof.Machine.execTakeAll port tag s
  | .cancel port r => Sys2Proof.Machine.execCancel port r s
  | .hold port r => Sys2Proof.Machine.execHold port r s
  | .release port r => Sys2Proof.Machine.execRelease port r s
  | .returnToMain port r => Sys2Proof.Machine.execReturnToMain port r s
  | .route port r => Sys2Proof.Machine.execRoute port r s
  | .setTime port r => Sys2Proof.Machine.execSetTime port r s
  | .configureChannel port r => Sys2Proof.Machine.execConfigureChannel port r s
  | .configureCadence port r => Sys2Proof.Machine.execConfigureCadence port r s
  | .configurePorts port r => Sys2Proof.Machine.execConfigurePorts port r s
  | .configureScan port r => Sys2Proof.Machine.execConfigureScan port r s
  | .scanStart port r => Sys2Proof.Machine.execScanStart port r s
  | .scanStop port r => Sys2Proof.Machine.execScanStop port r s
  | .clearChannel port r => Sys2Proof.Machine.execClearChannel port r s
  | .clearFlags port r => Sys2Proof.Machine.execClearFlags port r s
  | .setNoticeMask port r => Sys2Proof.Machine.execSetNoticeMask port r s
  | .setAlarmMask port r => Sys2Proof.Machine.execSetAlarmMask port r s
  | .save port r => Sys2Proof.Machine.execSave port r s
  | .saveComplete readBack => Sys2Proof.Machine.execSaveComplete readBack s
  | .keepalive port r => Sys2Proof.Machine.execKeepalive port r s

end Sys2Proof.Machine
end

