-- ==== Sys2Proof/Machine/Idle.lean ====
section
/-! DEFINITION. What the part does when no command waits (log 2): the first internal event that has fallen due, else the next byte of
a serial line, else one nominal line period passes. -/

namespace Sys2Proof.Machine

/-- A command, where a condition holds. -/
def dueIf (b : Bool) (i : Instr) : Option Instr := if b then some i else none

/-! ## Events that have fallen due, block by block -/

/-- The Settings Store: an accepted NRST (R187), a SAVE's completion, which reads back what was written (R183). -/
def State.storeDue (s : State) : Option Instr :=
  (dueIf (16 ≤ s.store.nrstCount) .nrstAccepted).or
    (match s.store.save with
     | some j => dueIf (j.left == 0) (.saveComplete (some j.content))
     | none => none)

/-- The Station Clock (R14, R15). -/
def State.clockDue (s : State) : Option Instr :=
  (dueIf s.cdu.wrapDue .localFrameWrap).or (dueIf s.turnExpired .turnRecordExpiry)

/-- The commit engine (R53, R64). -/
def State.engineDue (s : State) : Option Instr :=
  match s.sst.engine with
  | .committing _ 0 => some .commitEnd
  | .editing _ _ 0 => some .editComplete
  | .committing _ (_ + 1) => none
  | .editing _ _ (_ + 1) => none
  | .idle => dueIf (s.sst.startDue && !s.sst.queue.isEmpty) .commitStart

/-- The scanner (R95, R97). -/
def State.scanDue (s : State) : Option Instr :=
  match s.sup.scan with
  | .starting r => dueIf r .sweepStart
  | .idle => none
  | .sequential _ _ _ => dueIf (!s.windowHasRoom) .windowEnd
  | .parallel _ _ => dueIf (!s.windowHasRoom) .windowEnd

/-- The watch, confirm and silence timers and the key (R91, R108, R111, R166). -/
def State.timersDue (s : State) : Option Instr :=
  ((dueIf (s.watchDue .A) (.feedWatchExpiry .A)).or (dueIf (s.watchDue .B) (.feedWatchExpiry .B))).or
    (((channels.find? fun c => s.confirmDue c).map Instr.confirmExpiry).or
      (((dueIf (8 ≤ s.sup.key.count) .keyLevelAccepted).or (dueIf (s.silenceDue .A) (.siteSilenceExpiry .A))).or
        (dueIf (s.silenceDue .B) (.siteSilenceExpiry .B))))

/-- The oldest crosspoint whose wait has ended (R158). -/
def State.ackTimeoutDue (s : State) : Option Instr :=
  (s.xps.awaiting.find? fun x => x.left == 0 && x.destination < 64).map fun x =>
    .crosspointAckTimeout (Fin.ofNat 64 x.destination)

/-- The Cue Scheduler's transactions (R151, R152). -/
def State.txnDue (s : State) : Option Instr :=
  match s.cus.txn with
  | none => dueIf (!s.cus.queue.isEmpty) .cueTake
  | some t => (dueIf (t.phase == .sending true) .cueSendEnd).or (dueIf (t.phase == .awaiting 0) .cueReplyTimeout)

/-- The parts of a switch-window event (R8, R58, R123, R135, R147, R157). -/
def State.windowDue (s : State) : Option Instr :=
  if s.cdu.windowEvent then
    ((channels.find? fun c => match s.authority c with
        | .armed _ p => atOrAfter s.now p.start
        | _ => false).map Instr.goToAir).or
      (((channels.find? fun c => match s.authority c with
          | .returning _ _ point _ => atOrAfter s.now point
          | _ => false).map Instr.returnComplete).or
        (((channels.find? fun c => (s.dueSegment c).isSome).map Instr.segmentStart).or
          (((channels.find? fun c => (s.flipDue c).isSome && s.flipAllowed c).map Instr.flipPerform).or
            (dueIf (!s.xps.eventTaken) .crosspointIssue))))
  else none

/-- The command that takes the frame whose turn it is (R72). -/
def FeedKind.command : FeedKind → Instr
  | .listBegin => .listBegin
  | .event => .event
  | .listEnd => .listEnd
  | .listAbort => .listAbort
  | .insertAfter => .insertAfter
  | .replace => .replace
  | .delete => .delete
  | .flip => .flip
  | .heartbeat => .heartbeat

/-- The Replication Engine (R72, R86). -/
def State.feedDue (s : State) : Option Instr :=
  (dueIf (s.rpe.reportTimer == 0) .reportTimerExpiry).or
    (if s.intakeOpen then s.nextFrame.map fun x => x.2.frame.kind.command else none)

/-- The transmit side of a site port (R165). -/
def State.siteDue (s : State) (p : SitePort) : Option Instr :=
  let k := s.site p
  (dueIf (k.sending.isNone && !k.answers.isEmpty) (.answerTransmitBegin p)).or (dueIf k.noticeReady (.noticeTransmitBegin p))

/-- The receive stages (R189). -/
def State.rxDue (s : State) : Option Instr :=
  ([.fa, .fb, .sa, .sb, .ml, .xl].find? fun l => (s.rx.get l).abandoned).map Instr.partialFrameAbandon

/-- R6: the line periods from the end of an internal line to the next in-place frame pulse, where the reference line in progress
ends with it. DESIGN CHOICE (log 38): past reference line L, with the pulse overdue, it is the pulse of the frame after that. -/
def Cdu.pulseDistance (k : Cdu) : Nat :=
  let n := k.refLine.getD 1
  if n ≤ k.frame.lines then k.frame.lines - n else 2 * k.frame.lines - n

/-- The Cadence Unit (R1, R2, R6, R8). A frame start comes after everything else that is due. -/
def State.cadenceDue (s : State) : Option Instr :=
  let k := s.cdu
  (dueIf (k.silentLines == 16) .lineSilence).or
    ((dueIf (k.refState == .locked && k.refLine.any fun n => k.frame.lines + 8 ≤ n) .missingFramePulse).or
      ((dueIf (!k.windowOpened && k.frame.swFirst ≤ k.line) .switchWindowEvent).or
        ((dueIf (k.rephaseDue && k.decides) (.rePhasing k.pulseDistance)).or
          (dueIf (k.frameDue || k.rephaseDue) (.frameStart s.pins.tkey)))))

/-- DESIGN CHOICE (log 3): the order in which events that are due together are taken. -/
def State.internalDue (s : State) : Option Instr :=
  s.storeDue.or (s.clockDue.or (s.engineDue.or (s.scanDue.or (s.timersDue.or (s.ackTimeoutDue.or (s.txnDue.or
    (s.windowDue.or (s.feedDue.or ((s.siteDue .A).or ((s.siteDue .B).or (s.rxDue.or s.cadenceDue)))))))))))

/-! ## Bytes of the serial lines (R189) -/

/-- A byte reaches its receive stage; a frame that it completes gives its command. -/
def State.takeByte (s : State) (l : LineId) (b : Byte) (rest : List (LineId × Byte)) : Host.Outcome State Fault Refusal :=
  let x := (s.rx.get l).byte b
  let t := { s with incoming := rest, rx := s.rx.put l x.1 }
  match x.2 with
  | none => .next t
  | some none => .next (t.abandonPartial l)
  | some (some f) =>
    match lineCommand l f.1 f.2.1 f.2.2 with
    | some i => exec i t
    | none => .next t

/-! ## A nominal line period (R1, R2, R187) -/

/-- R1: a nominal line period passes without a line pulse. -/
def Cdu.silentLine (k : Cdu) : Cdu := { k with silentLines := min 17 (k.silentLines + 1) }

/-- R1, R2, R187: a nominal line period passes, and the line in progress ends. -/
def State.lineTick (s : State) : State := (s.putCdu s.cdu.silentLine).endLine

/-! ## Idling -/

/-- What a step is while a reset holds the part and no command waits: the next byte of a serial line is lost, since a frame whose
opening comes before the end of the reset is not assembled (R68, R164, R186); with no byte left, a line period passes, and the reset
ends once NRST is released (R187). -/
def idleHeld (s : State) : Host.Outcome State Fault Refusal :=
  match s.incoming with
  | _ :: rest => .next { s with incoming := rest }
  | [] =>
    let t := { s with pins := s.pins.nextLine }
    if t.pins.nrst then .next t else exec .resetEnd t

/-- What a step is while no command waits (log 2). -/
def idle (s : State) : Host.Outcome State Fault Refusal :=
  match s.power with
  | .held => idleHeld s
  | .running =>
    match s.internalDue, s.incoming with
    | some i, _ => exec i s
    | none, (l, b) :: rest => s.takeByte l b rest
    | none, [] => .next s.lineTick

end Sys2Proof.Machine
end

