-- ==== Sys2Proof/Safety.lean ====
section
/-! DEFINITION. What statements about the part say: the parts of the state, one by one or channel by channel, and what it means
that only some of them change; and the conditions on the state that the spec states of the whole part. -/

namespace Sys2Proof.Machine

/-! ## The parts of the state -/

/-- The parts of the state. A part with a channel is that channel's share of it. -/
inductive Part where
  | power
  | pins
  | settings
  | cadence
  | clock
  | pages (c : Channel)
  /-- The commit engine and the commit queue. -/
  | engine
  /-- The receive queues of the feed ports, their enable settings and the turn. -/
  | intake
  | baseline (c : Channel)
  | reportTimer
  /-- The transmit sides of the feed ports. -/
  | reports
  | watch
  | scan
  /-- What SUP keeps of a channel. -/
  | watched (c : Channel)
  | key
  | authority (c : Channel)
  /-- What CUS keeps of a channel. -/
  | plan (c : Channel)
  /-- The cue queue and the ML transaction. -/
  | cueQueue
  /-- The pending and the awaiting crosspoints. -/
  | crosspoints
  /-- The last acknowledged sources. -/
  | acknowledged
  | tally (c : Channel)
  | alarm
  | deviceFlags
  | channelFlags (c : Channel)
  /-- The pending-notice sets of the site ports. -/
  | notices
  /-- The site ports but for their pending-notice sets. -/
  | sitePorts
  | store
  | rx
  | incoming
  | freeUsed
  | pending
deriving DecidableEq, Repr

/-- A feed port without its transmit side. -/
def FeedPortState.receiveSide (p : FeedPortState) : List QueuedFrame × Bool := (p.queue, p.enabled)

/-- A site port without its pending-notice set. -/
def SitePortState.withoutPairs (p : SitePortState) : SitePortState := { p with pairs := [] }

/-- A part is the same in two states. -/
def Part.same (s t : State) : Part → Prop
  | .power => t.power = s.power
  | .pins => t.pins = s.pins
  | .settings => t.live = s.live
  | .cadence => t.cdu = s.cdu
  | .clock => t.stc = s.stc
  | .pages c => t.pages c = s.pages c
  | .engine => (t.sst.engine, t.sst.queue, t.sst.startDue) = (s.sst.engine, s.sst.queue, s.sst.startDue)
  | .intake =>
    (t.rpe.port.a.receiveSide, t.rpe.port.b.receiveSide, t.rpe.turn)
      = (s.rpe.port.a.receiveSide, s.rpe.port.b.receiveSide, s.rpe.turn)
  | .baseline c => t.rpe.baseline[c] = s.rpe.baseline[c]
  | .reportTimer => t.rpe.reportTimer = s.rpe.reportTimer
  | .reports => (t.rpe.port.a.tx, t.rpe.port.b.tx) = (s.rpe.port.a.tx, s.rpe.port.b.tx)
  | .watch => t.sup.watch = s.sup.watch
  | .scan => t.sup.scan = s.sup.scan
  | .watched c => t.watched c = s.watched c
  | .key => t.sup.key = s.sup.key
  | .authority c => t.authority c = s.authority c
  | .plan c => t.cue c = s.cue c
  | .cueQueue => (t.cus.queue, t.cus.txn) = (s.cus.queue, s.cus.txn)
  | .crosspoints => (t.xps.pending, t.xps.awaiting, t.xps.eventTaken) = (s.xps.pending, s.xps.awaiting, s.xps.eventTaken)
  | .acknowledged => t.xps.lastAck = s.xps.lastAck
  | .tally c => t.xps.tally[c] = s.xps.tally[c]
  | .alarm => t.xps.alarm = s.xps.alarm
  | .deviceFlags => t.sli.device = s.sli.device
  | .channelFlags c => t.sli.channel[c] = s.sli.channel[c]
  | .notices => (t.sli.port.a.pairs, t.sli.port.b.pairs) = (s.sli.port.a.pairs, s.sli.port.b.pairs)
  | .sitePorts =>
    (t.sli.port.a.withoutPairs, t.sli.port.b.withoutPairs) = (s.sli.port.a.withoutPairs, s.sli.port.b.withoutPairs)
  | .store => t.store = s.store
  | .rx => t.rx = s.rx
  | .incoming => t.incoming = s.incoming
  | .freeUsed => t.freeUsed = s.freeUsed
  | .pending => t.pending = s.pending

/-- From the first state to the second only the listed parts change; every other part is the same. -/
def OnlyChanges (ps : List Part) (s t : State) : Prop := ∀ p, p ∉ ps → p.same s t

/-- The same parts for every channel. -/
def everyChannel (f : Channel → List Part) : List Part := channels.flatMap f

/-! ## Groups of parts -/

/-- What the setting of a device flag changes (R172, R175, R161). -/
def deviceFlagParts : List Part := [.deviceFlags, .notices, .alarm]

/-- What the setting of a flag of a channel changes. -/
def flagParts (c : Channel) : List Part := [.channelFlags c, .notices, .alarm]

/-- What the planning and the withdrawal of segments of a channel change: its plan, the cue queue and crosspoints. -/
def planParts (c : Channel) : List Part := [.plan c, .cueQueue, .crosspoints]

/-- What the Cue Scheduler changes for a channel: with that, the record of its on-air segment or join plan, and flags. -/
def cueParts (c : Channel) : List Part := .authority c :: (planParts c ++ flagParts c)

/-- What a change of a channel's authority changes, with what the Cue Scheduler does at it. -/
def authorityParts (c : Channel) : List Part := .tally c :: .reports :: cueParts c

/-- What a change of a channel's health changes. -/
def healthParts (c : Channel) : List Part := .watched c :: authorityParts c

/-! ## Conditions on the state that the spec states -/

/-- R160: each tally output is as the authority and the last acknowledged source say. -/
def State.TallyLaw (s : State) : Prop := ∀ c : Channel, s.xps.tally[c] = s.tallyValue c

/-- R161: ALM is as the health states and the masked flags say. -/
def State.AlarmLaw (s : State) : Prop := s.xps.alarm = s.alarmValue

/-- R116: no two channels on one router destination are off MAIN. -/
def State.DestinationsApart (s : State) : Prop :=
  ∀ c d : Channel, c ≠ d → s.isMain c = false → s.isMain d = false → (s.cfg c).destination ≠ (s.cfg d).destination

/-- R70, R165: the receive queues and the answer queues hold no more than they have room for. -/
def State.QueuesFit (s : State) : Prop :=
  (∀ p : FeedPort, (s.feed p).queue.length ≤ 2) ∧ (∀ p : SitePort, (s.site p).answers.length ≤ 4)

/-- R45, R46: no more than 6144 events are held in all, and no page holds more than 1024. -/
def State.EventsFit (s : State) : Prop :=
  s.slotsUsed ≤ 6144 ∧ ∀ c : Channel, (activeEvents (s.pages c).active).length ≤ 1024 ∧ (s.pages c).next.events.length ≤ 1024

/-- R46, R32: the events of a page that has been resolved: at most 1024, of distinct ids, each at least one and at most FPD frames long
and no longer than its record says, each start below 3·FPD and each HARD event at its own start; each ends before the next begins; and
the first is HARD. -/
def resolvedWell (f : Format) (es : List Event) : Prop :=
  es.length ≤ 1024 ∧ (es.map Event.id).Nodup
  ∧ (∀ e ∈ es, e.duration ≤ fpd f ∧ ∃ r, e.res = some r ∧ 1 ≤ r.dur ∧ r.dur ≤ e.duration ∧ r.start < 3 * fpd f
      ∧ ∀ h, e.hardRel = some h → r.start = h)
  ∧ es.Pairwise (fun e e' => ∀ r r', e.res = some r → e'.res = some r' → r.start + r.dur ≤ r'.start)
  ∧ ∀ e, es.head? = some e → e.isHard = true

/-- R50: the events that a page which is being loaded has taken: at most 1024, of distinct ids, with durations of 1 to FPD frames, and
HARD starts that lie below 3·FPD and do not fall. -/
def loadedWell (f : Format) (es : List Event) : Prop :=
  es.length ≤ 1024 ∧ (es.map Event.id).Nodup ∧ hardsInOrder es = true
  ∧ ∀ e ∈ es, 1 ≤ e.duration ∧ e.duration ≤ fpd f ∧ ∀ h, e.hardRel = some h → h < 3 * fpd f

/-- R46, R47, R52: every ACTIVE and READY page is resolved, and every page before its commit holds what R50 lets in; one that waits
for its commit begins with a HARD event. -/
def State.PagesSound (s : State) : Prop :=
  ∀ c : Channel, (∀ p, (s.pages c).active = some p → resolvedWell s.live.format p.events)
    ∧ match (s.pages c).next with
      | .empty => True
      | .loading g => loadedWell s.live.format g.events
      | .committing g => loadedWell s.live.format g.events ∧ ∀ e, g.events.head? = some e → e.isHard = true
      | .ready g => resolvedWell s.live.format g.events

/-- R180, R181: every live setting is within its range. -/
def State.SettingsLegal (s : State) : Prop := settingsValid s.live = true

/-- R14: the station offset is a residue of the station week, unless the format has changed since it was taken; in the rest of a frame
in which a format has been accepted it is one of the week in force or of the week to come (log 6). -/
def State.OffsetLegal (s : State) : Prop :=
  s.stc.state ≠ .unset → s.stc.offset < wf s.format ∨ s.stc.offset < wf s.live.format

/-- R144: the plan of each channel holds at most two segments. -/
def State.PlansFit (s : State) : Prop := ∀ c : Channel, (s.cue c).planned.length ≤ 2

/-- R174, R175, R177: the pending pairs of each site port stand in the order of kind and channel, no flag twice, and each is of a kind
that the port's notice mask holds. -/
def State.PairsRanked (s : State) : Prop :=
  ∀ p : SitePort, (s.site p).pairs.Pairwise (fun x y => x.rank < y.rank)
    ∧ ∀ x ∈ (s.site p).pairs, (s.site p).mask.getLsbD x.kind = true

/-! ## The cue queue's law (R142) -/

/-- Two local frames lie within 2^30 frames of each other. -/
def nearFrames (a b : LocalFrame) : Prop := (a - b).toNat ≤ 1073741824 ∨ (b - a).toNat ≤ 1073741824

/-- Every deadline in the cue queue is near the frame in progress. -/
def State.CuesNear (s : State) : Prop := ∀ x ∈ s.cus.queue, nearFrames x.deadline s.now

/-- The entries of a channel that CUS holds, the one in transaction included (R141). -/
def State.entriesOf (s : State) (c : Channel) : List CueEntry :=
  ((s.cus.txn.map Txn.entry).toList ++ s.cus.queue).filter fun x => x.channel == c

/-- The queued PLAYs of a channel. -/
def State.playsOf (s : State) (c : Channel) : List CueEntry := s.cus.queue.filter fun x => x.channel == c && x.action.isPlay

/-- The queued CANCELs of a channel. -/
def State.cancelsOf (s : State) (c : Channel) : List CueEntry := s.cus.queue.filter fun x => x.channel == c && !x.action.isPlay

/-- The entry in transaction is an obligation of the channel to cancel: a CANCEL, or a PLAY marked withdrawn (R142). -/
def State.cancelInTxn (s : State) (c : Channel) : Bool :=
  s.cus.txn.any fun k => k.entry.channel == c && (!k.entry.action.isPlay || k.withdrawn)

/-- The obligations of a channel to cancel (R142). -/
def State.obligations (s : State) (c : Channel) : Nat := (s.cancelsOf c).length + (if s.cancelInTxn c then 1 else 0)

/-- The clips that a channel expects to start, by start frame and player: that of its join plan, and those of its planned segments. -/
def State.expects (s : State) (c : Channel) : List (LocalFrame × Player) :=
  (match s.authority c with
    | .armed _ g => (g.player.map fun p => (g.start, p)).toList
    | .main => []
    | .standby _ => []
    | .held _ _ => []
    | .returning _ _ _ _ => [])
  ++ (s.cue c).planned.filterMap fun g => g.content.player.map fun p => (g.start, p)

/-- The plan of a channel has the form that its authority gives it: off STANDBY and RETURNING nothing is planned, nor in a return from
HELD; a join plan has a player where its first segment is a clip; and of two planned segments the first is a bridge (R144, R148). -/
def State.planShape (s : State) (c : Channel) : Prop :=
  (match s.authority c with
    | .main => (s.cue c).planned = []
    | .armed _ g => (s.cue c).planned = [] ∧ g.player.isSome = g.content.isClip
    | .standby _ => True
    | .held _ _ => (s.cue c).planned = []
    | .returning (.held _) _ _ _ => (s.cue c).planned = []
    | .returning .standby _ _ _ => True)
  ∧ ((s.cue c).planned.length ≤ 1 ∨ ∃ x y, (s.cue c).planned = [x, y] ∧ x.content.player = none)

/-- R142, R143, R151: what holds of the PLAYs, the obligations and the players of one channel. A queued PLAY is the only one, and is for
the clip that the channel expects, whose player is not CUED. There is at most one obligation, and none queued beside a PLAY in
transaction; a PLAY that is being sent is for the clip that the channel expects; and where a PLAY is in transaction for a segment that
has started, the PLAY of the clip that the channel expects is still queued. A CUED player is that of the clip that the channel expects,
whose PLAY has been sent, and once that PLAY's transaction has ended there is no obligation. -/
structure State.CueLawOf (s : State) (c : Channel) : Prop where
  shape : s.planShape c
  onePlay : (s.playsOf c).length ≤ 1
  playExpected : ∀ x ∈ s.playsOf c, (x.start, x.player) ∈ s.expects c ∧ s.playerState c x.player ≠ .cued
    ∧ ∀ k, s.cus.txn = some k → k.withdrawn = false → k.entry.isPlayOf c x.start = true → k.entry.player ≠ x.player
  oneObligation : s.obligations c ≤ 1
  noneBesideTxn : ∀ k, s.cus.txn = some k → k.withdrawn = false → k.entry.channel = c → k.entry.action.isPlay = true →
    s.cancelsOf c = [] ∧ (k.isSending = true → (k.entry.start, k.entry.player) ∈ s.expects c)
      ∧ ∀ e ∈ s.expects c, e ≠ (k.entry.start, k.entry.player) → ∃ x ∈ s.playsOf c, (x.start, x.player) = e
  cuedExpected : ∀ p, s.playerState c p = .cued →
    (∃ e ∈ s.expects c, e.2 = p
      ∧ ((∃ k, s.cus.txn = some k ∧ k.withdrawn = false ∧ k.isSending = false ∧ k.entry.isPlayOf c e.1 = true ∧ k.entry.player = p)
        ∨ s.obligations c = 0 ∧ ∀ k, s.cus.txn = some k → k.withdrawn = false → k.entry.channel = c → k.entry.action.isPlay = false))

/-- R142: the queue is in its order, no CANCEL's deadline is to come, and every channel keeps to its law. -/
structure State.CueLaw (s : State) : Prop where
  ordered : s.cus.queue.Pairwise fun x y => y.ahead x = false
  cancelsDue : ∀ x ∈ s.cus.queue, x.action = .cancel → atOrAfter s.now x.deadline = true
  channels : ∀ c, s.CueLawOf c

end Sys2Proof.Machine
end

