-- ==== Sys2Proof/Certificates/Slice0/Obligations.lean ====
section
/-! DEFINITION. The statements about the part, for the provers. Each docstring names the rules of spec/ it rests on. -/

open Sys2Proof Sys2Proof.Machine

/-! ## The whole part -/

/-- Asked of a block: a step takes the command at the front of the queue and runs it on the state with the queue's rest. -/
def Obligations.StepRunsFrontCommand : Prop :=
  ∀ (i : Instr) (rest : List Instr) (s : State), step { s with pending := i :: rest } = exec i { s with pending := rest }

/-- The spec names no way for the part to stop: every command completes from every state, and so does every step. While a reset holds
the part (R186, R187), every command but the resets and RESET_END leaves the state as it is: that is the model's reading of those two
rules, which name no such effect command by command (log 11, DEDUCED). -/
def Obligations.EveryCommandCompletes : Prop :=
  (∀ (i : Instr) (s : State), ∃ t, exec i s = .next t) ∧ (∀ s : State, ∃ t, step s = .next t)
  ∧ ∀ (i : Instr) (s : State), s.power = .held → i ≠ .powerOnReset → i ≠ .nrstAccepted → i ≠ .resetEnd → exec i s = .next s

/-- What a reset can change: everything but the commands and bytes that have still to come. -/
def resetParts : List Part :=
  [.power, .pins, .settings, .cadence, .clock, .engine, .intake, .reportTimer, .reports, .watch, .scan, .key, .cueQueue,
    .crosspoints, .acknowledged, .alarm, .deviceFlags, .notices, .sitePorts, .store, .rx, .freeUsed]
  ++ everyChannel fun c => [.pages c, .baseline c, .watched c, .authority c, .plan c, .tally c, .channelFlags c]

/-- What every site request changes: its port, which is reloaded and queues an answer, and the receive stage (R164 to R166). -/
def requestParts : List Part := [.sitePorts, .rx]

/-- The parts of the state that each command can change, by the rules of its chapter. A command that names its channel in an operand
lists the parts of every channel here; the statement about the command says that only the named channel's change. -/
def Sys2Proof.Instr.reach : Instr → List Part
  | .powerOnReset => resetParts
  | .nrstAccepted => resetParts
  | .resetEnd => [.power, .pins]
  | .refLinePulse => [.pins, .cadence, .scan, .store]
  | .refFramePulse => [.cadence, .scan] ++ deviceFlagParts
  | .lineSilence => .cadence :: deviceFlagParts
  | .missingFramePulse => .cadence :: deviceFlagParts
  | .rePhasing _ => [.pins, .cadence, .store]
  | .frameStart _ =>
    [.pins, .cadence, .clock, .engine, .reportTimer, .watch, .scan, .key, .cueQueue, .crosspoints, .sitePorts, .store, .rx]
      ++ everyChannel fun c => [.watched c]
  | .switchWindowEvent => .cadence :: everyChannel fun c => [.plan c]
  | .localFrameWrap => [.cadence, .clock]
  | .turnRecordExpiry => [.clock]
  | .feedFrameCompletion _ _ _ _ => [.rx, .intake, .watch] ++ deviceFlagParts ++ everyChannel healthParts
  | .partialFrameAbandon _ => .rx :: deviceFlagParts
  | .listBegin => [.intake, .engine] ++ everyChannel fun c => [.baseline c, .pages c] ++ flagParts c
  | .event => .intake :: deviceFlagParts ++ everyChannel fun c => [.baseline c, .pages c] ++ flagParts c
  | .listEnd => [.intake, .engine] ++ everyChannel fun c => [.baseline c, .pages c] ++ flagParts c
  | .listAbort => [.intake, .engine] ++ everyChannel fun c => [.baseline c, .pages c] ++ flagParts c
  | .insertAfter => [.intake, .engine, .reports] ++ deviceFlagParts ++ everyChannel fun c => [.baseline c, .pages c] ++ cueParts c
  | .replace => [.intake, .engine, .reports] ++ deviceFlagParts ++ everyChannel fun c => [.baseline c, .pages c] ++ cueParts c
  | .delete => [.intake, .engine, .reports] ++ deviceFlagParts ++ everyChannel fun c => [.baseline c, .pages c] ++ cueParts c
  | .flip => .intake :: everyChannel fun c => [.baseline c, .pages c] ++ flagParts c
  | .heartbeat => [.intake, .clock] ++ deviceFlagParts ++ everyChannel fun c => .pages c :: healthParts c
  | .commitStart => [.engine, .reports]
  | .commitEnd => [.engine, .reports] ++ everyChannel fun c => .pages c :: flagParts c
  | .editComplete => [.engine, .reports] ++ deviceFlagParts ++ everyChannel fun c => .pages c :: cueParts c
  | .flipPerform c => [.pages c, .engine] ++ authorityParts c
  | .reportTimerExpiry => [.reportTimer, .reports]
  | .reportTransmitEnd _ => [.reports]
  | .feedEnable _ _ => [.intake, .reports] ++ requestParts
  | .feedWatchExpiry _ => [.watch, .clock] ++ deviceFlagParts ++ everyChannel healthParts
  | .presencePulse _ _ => [.scan]
  | .windowEnd => .scan :: deviceFlagParts ++ everyChannel healthParts
  | .sweepStart => [.scan]
  | .confirmExpiry c => healthParts c
  | .keyLevelAccepted => .key :: deviceFlagParts ++ everyChannel authorityParts
  | .goToAir c => authorityParts c
  | .returnComplete c => authorityParts c
  | .segmentStart c => cueParts c
  | .cueTake => everyChannel cueParts
  | .cueSendEnd => everyChannel fun c => planParts c
  | .cueReply _ _ => everyChannel cueParts
  | .cueReplyTimeout => everyChannel cueParts
  | .crosspointIssue => [.crosspoints]
  | .crosspointAck _ _ _ => [.crosspoints, .acknowledged] ++ everyChannel fun c => .tally c :: flagParts c
  | .crosspointAckTimeout _ => .crosspoints :: everyChannel flagParts
  | .siteFrameCheckFail _ => [.rx]
  | .siteSilenceExpiry _ => .sitePorts :: deviceFlagParts ++ everyChannel authorityParts
  | .answerTransmitBegin _ => [.sitePorts]
  | .noticeTransmitBegin _ => [.sitePorts, .notices]
  | .siteTransmitEnd _ => [.sitePorts]
  | .unknownRequest _ _ _ => requestParts
  | .status _ _ => requestParts
  | .channel _ _ => requestParts
  | .eventRead _ _ => requestParts
  | .clock _ _ => requestParts
  | .flags _ _ => requestParts
  | .take _ _ => requestParts ++ everyChannel authorityParts
  | .takeAll _ _ => requestParts ++ everyChannel authorityParts
  | .cancel _ _ => requestParts ++ everyChannel authorityParts
  | .hold _ _ => requestParts ++ everyChannel authorityParts
  | .release _ _ => requestParts ++ everyChannel authorityParts
  | .returnToMain _ _ => requestParts ++ everyChannel authorityParts
  | .route _ _ => requestParts ++ everyChannel fun c => [.authority c, .plan c, .crosspoints]
  | .setTime _ _ => .clock :: requestParts
  | .configureChannel _ _ => .settings :: requestParts ++ everyChannel healthParts
  | .configureCadence _ _ =>
    [.settings, .cadence, .clock, .engine, .reports] ++ requestParts ++ everyChannel fun c => [.pages c, .baseline c]
  | .configurePorts _ _ => .settings :: requestParts
  | .configureScan _ _ => .settings :: requestParts ++ everyChannel healthParts
  | .scanStart _ _ => .scan :: requestParts
  | .scanStop _ _ => .scan :: requestParts
  | .clearChannel _ _ => [.engine, .reports] ++ requestParts ++ everyChannel fun c => [.baseline c, .pages c] ++ healthParts c
  | .clearFlags _ _ => requestParts ++ [.alarm, .deviceFlags] ++ everyChannel fun c => [.channelFlags c]
  | .setNoticeMask _ _ => .notices :: requestParts
  | .setAlarmMask _ _ => [.settings, .alarm] ++ requestParts
  | .save _ _ => .store :: requestParts
  | .saveComplete _ => [.store]
  | .keepalive _ _ => requestParts

/-- The frame of every command: it changes no part of the state but those listed for it by the rules of its chapter, where a command
that names a channel lists the parts of every channel; and the parts are the whole state: two states that agree on every part are
equal. -/
def Obligations.EachCommandChangesOnlyItsParts : Prop :=
  (∀ (i : Instr) (s t : State), exec i s = .next t → OnlyChanges i.reach s t)
  ∧ ∀ s t : State, (∀ p : Part, p.same s t) → t = s


/-! ## What every step keeps -/

/-- R160: from every state whose tallies are as the authority and the last acknowledged source say, a step leaves them so; and
the level of TLc, which is driven while no reset holds the part, follows the channel's tally polarity. -/
def Obligations.TalliesStayRight : Prop :=
  (∀ s t : State, s.TallyLaw → step s = .next t → t.TallyLaw)
  ∧ ∀ (s : State) (c : Channel), s.power = .running →
    s.tallyLevel c = some (if (s.cfg c).tallyPolarity = .activeHigh then s.xps.tally[c] else !s.xps.tally[c])

/-- R161: from every state whose ALM is as the health states and the masked flags say, a step leaves it so; and
the level of ALM, which is driven while no reset holds the part, follows the ALM polarity. -/
def Obligations.AlarmStaysRight : Prop :=
  (∀ s t : State, s.AlarmLaw → step s = .next t → t.AlarmLaw)
  ∧ ∀ s : State, s.power = .running →
    s.alarmLevel = some (if s.live.almPolarity = .activeHigh then s.xps.alarm else !s.xps.alarm)

/-- R116: a step never brings two channels on one router destination off MAIN at the same time; a channel in MAIN whose destination
another channel off MAIN has is not ready, and where it fails on nothing else the failure is a conflict. -/
def Obligations.DestinationsStayApart : Prop :=
  (∀ s t : State, s.DestinationsApart → step s = .next t → t.DestinationsApart)
  ∧ ∀ (s : State) (c d : Channel), c ≠ d → s.isMain d = false → (s.cfg c).destination = (s.cfg d).destination →
    s.readiness c ≠ .ready ∧ (s.readyAlone c = true → s.readiness c = .conflict)

/-- R70, R144, R165, R174, R175: the feed ports' receive queues never hold more than two frames, the answer queues never more than four
answers, and the plan of a channel never more than two segments. The pairs of each port's pending-notice set stay in the order of kind
and channel, none held twice, each naming a flag of a kind that the port's notice mask holds. -/
def Obligations.QueuesStayWithinRoom : Prop :=
  (∀ s t : State, s.QueuesFit → step s = .next t → t.QueuesFit) ∧ (∀ s t : State, s.PlansFit → step s = .next t → t.PlansFit)
  ∧ ∀ s t : State, s.PairsRanked → step s = .next t → t.PairsRanked


/-- R45, R46: the pages never hold more than 6144 events in all, and no page more than 1024; and every page in the ACTIVE or READY state
holds its events in strictly increasing order of relative start, with distinct ids, no overlaps, each effective duration at least one
frame, and every relative start below 3·FPD. -/
def Obligations.PagesStayOrderedAndWithinRoom : Prop :=
  (∀ s t : State, s.EventsFit → step s = .next t → t.EventsFit) ∧ ∀ s t : State, s.PagesSound → step s = .next t → t.PagesSound

/-- R171, R180, R181: every live setting stays within its range. R14 to R18, R20: outside UNSET the station offset stays below the
station week; in the rest of a frame in which a format has been accepted it may still be one of the week in force (log 6). -/
def Obligations.SettingsAndOffsetStayLegal : Prop :=
  (∀ s t : State, s.SettingsLegal → step s = .next t → t.SettingsLegal)
  ∧ ∀ s t : State, s.OffsetLegal → step s = .next t → t.OffsetLegal


/-- R141 to R144, R151, R156: the cue queue stays in order of deadline, of channel, and of CANCEL before PLAY, and each channel keeps to
its law: at most one PLAY queued, which is for the clip the channel expects; at most one obligation to cancel; and none beside a PLAY
that is being sent. Such a queue holds, with the entry in transaction, at most two entries of any channel and 24 in all. The deadlines
are taken to lie within 2^30 frames of the frame in progress, where R30 orders local frames. -/
def Obligations.CueQueueStaysOrderedAndWithinRoom : Prop :=
  (∀ s t : State, s.CueLaw → s.CuesNear → t.CuesNear → step s = .next t → t.CueLaw)
  ∧ ∀ s : State, s.CueLaw → (∀ c, (s.entriesOf c).length ≤ 2) ∧ s.cueEntries ≤ 24


/-- The state after reset meets every condition that the statements above keep. -/
def Obligations.ResetMeetsEveryCondition : Prop :=
  State.reset.TallyLaw ∧ State.reset.AlarmLaw ∧ State.reset.DestinationsApart ∧ State.reset.QueuesFit
    ∧ State.reset.EventsFit ∧ State.reset.PagesSound ∧ State.reset.SettingsLegal ∧ State.reset.OffsetLegal ∧ State.reset.PlansFit
    ∧ State.reset.PairsRanked ∧ State.reset.CueLaw


/-! ## Chapter 1: frame cadence -/

/-- R1, R3, R5: in ACQUIRING an in-place frame pulse adds one to the qualifying count, the 25th makes LOCKED with re-phasing pending,
any other frame pulse clears the count, a line silence clears it and leaves no previous frame pulse, and a missing frame pulse leaves
it as it is. A line pulse adds one to the reference line number, where there is one. In FREERUN the first pulse of either kind makes
ACQUIRING with the count at 0 and no previous frame pulse; where it is a frame pulse the reference line number is then 1 (log 42,
DESIGN CHOICE). That MISSING_FRAME_PULSE leaves the number at L + 8 or above is log 8 (DESIGN CHOICE), and that LINE_SILENCE leaves the
count of silent lines at 17 is log 13 (DEDUCED). Nothing but the Cadence Unit's reference state changes. -/
def Obligations.PulsesQualifyTheReference : Prop :=
  ∀ s : State, s.power = .running →
    (s.cdu.refState = .acquiring →
      (s.cdu.refLine = some s.cdu.frame.lines → s.cdu.qualifying < 24 →
        exec .refFramePulse s = .next { s with cdu := { s.cdu with
          refLine := some 1, silentLines := 0, qualifying := s.cdu.qualifying + 1 } })
      ∧ (s.cdu.refLine = some s.cdu.frame.lines → s.cdu.qualifying = 24 →
        exec .refFramePulse s = .next { s with cdu := { s.cdu with
          refLine := some 1, silentLines := 0, qualifying := 25, refState := .locked, phase := .pending } })
      ∧ (s.cdu.refLine ≠ some s.cdu.frame.lines →
        exec .refFramePulse s = .next { s with cdu := { s.cdu with refLine := some 1, silentLines := 0, qualifying := 0 } })
      ∧ exec .lineSilence s = .next { s with cdu := { s.cdu with refLine := none, silentLines := 17, qualifying := 0 } }
      ∧ (∀ n, s.cdu.refLine = some n →
        exec .missingFramePulse s = .next { s with cdu := { s.cdu with refLine := some (max n (s.cdu.frame.lines + 8)) } })
      ∧ exec .refLinePulse s = .next { s with cdu := { s.cdu with refLine := s.cdu.refLine.map (· + 1), silentLines := 0 } })
    ∧ (s.cdu.refState = .freerun →
      exec .refLinePulse s = .next { s with cdu := { s.cdu with
          refState := .acquiring, qualifying := 0, refLine := none, silentLines := 0 } }
      ∧ exec .refFramePulse s = .next { s with cdu := { s.cdu with
          refState := .acquiring, qualifying := 0, refLine := some 1, silentLines := 0 } })

/-- R4, R6: in LOCKED a misplaced frame pulse, a line silence and a missing frame pulse are each a loss of reference: the reference
state becomes FREERUN, the phase PENDING and unadjusted, REF-LOST is set, and the local frame count and the line in progress stay as they
were. A stretched frame, which has passed line L, ends at once; so does a frame at the end of whose line L re-phasing was still to be
decided; and any other frame, one that is cut among them, goes on to its nominal end. That the line pulse of a misplaced frame pulse ends no internal line is log 44
(DESIGN CHOICE). -/
def Obligations.LossOfReferenceRunsFree : Prop :=
  ∀ (s : State) (i : Instr), s.power = .running → s.cdu.refState = .locked →
    ((i = .refFramePulse ∧ (∃ n, s.cdu.refLine = some n ∧ n ≠ s.cdu.frame.lines)) ∨ i = .lineSilence
      ∨ (i = .missingFramePulse ∧ s.cdu.refLine.isSome)) →
    ∃ t, exec i s = .next t
      ∧ t.cdu.refState = .freerun ∧ t.cdu.phase = .pending ∧ t.cdu.adjust = .none ∧ t.cdu.rephaseDue = false
      ∧ t.cdu.now = s.cdu.now ∧ t.cdu.line = s.cdu.line ∧ t.cdu.frame = s.cdu.frame
      ∧ (s.cdu.adjust = .stretching ∨ s.cdu.rephaseDue = true → t.cdu.frameDue = true)
      ∧ (s.cdu.adjust ≠ .stretching → s.cdu.rephaseDue = false → t.cdu.frameDue = s.cdu.frameDue)
      ∧ t.deviceFlag .refLost = true ∧ (∀ k, k ≠ .refLost → t.deviceFlag k = s.deviceFlag k)
      ∧ OnlyChanges (.cadence :: deviceFlagParts) s t

/-- R187: a line period has begun: NRST has the next level that is given for it, or stays as it was, and its sample counts the line
starts at which it has been asserted without a break, up to 16. That a released sample drops an acceptance that is due is log 52. -/
def nrstSampled (s t : State) : Prop :=
  t.pins = (match s.pins.nrstLater with
    | [] => s.pins
    | b :: later => ⟨s.pins.tkey, b, later⟩)
  ∧ t.store = { s.store with nrstCount := if t.pins.nrst = true then min 16 (s.store.nrstCount + 1) else 0 }

/-- R2, R187: with the phase aligned in LOCKED, a line pulse ends the internal line and an in-place frame pulse the internal frame; the
line that ends is given to the scanner where it is a gated line (R9), and NRST is sampled as the next line begins. R6: the in-place frame
pulse that comes in a stretched or a cut frame, in any line of it, ends that frame and makes the phase ALIGNED; so does one that comes
while the decision at the end of line L is still to be made (log 49, DEDUCED). That the line in progress then counts as a whole line is
log 43 (DESIGN CHOICE). R2: with the phase pending and no such frame, pulses end no internal line and no frame. -/
def Obligations.AlignedTimingFollowsPulses : Prop :=
  ∀ s : State, s.power = .running → s.cdu.refState = .locked →
    (s.cdu.phase = .aligned → s.cdu.adjust = .none → s.cdu.frameDue = false → s.cdu.rephaseDue = false →
      (s.cdu.line < s.cdu.frame.lines →
        ∃ t, exec .refLinePulse s = .next t
          ∧ t.cdu = { s.cdu with refLine := s.cdu.refLine.map (· + 1), silentLines := 0, line := s.cdu.line + 1, windowEvent := false }
          ∧ t.sup.scan = (if s.cdu.gated then s.sup.scan.gatedLine else s.sup.scan) ∧ nrstSampled s t
          ∧ OnlyChanges [.pins, .cadence, .scan, .store] s t)
      ∧ (s.cdu.refLine = some s.cdu.frame.lines → s.cdu.line ≠ 1 →
        ∃ t, exec .refFramePulse s = .next t
          ∧ t.cdu = { s.cdu with refLine := some 1, silentLines := 0, frameDue := true, windowEvent := false }
          ∧ t.sup.scan = (if s.cdu.gated then s.sup.scan.gatedLine else s.sup.scan)
          ∧ OnlyChanges [.cadence, .scan] s t))
    ∧ (s.cdu.refLine = some s.cdu.frame.lines →
      (s.cdu.adjust = .stretching ∨ s.cdu.adjust = .cutting ∨ s.cdu.phase = .pending ∧ s.cdu.rephaseDue = true) →
      ∃ t, exec .refFramePulse s = .next t
        ∧ t.cdu = { s.cdu with refLine := some 1, silentLines := 0, phase := .aligned, adjust := .none, rephaseDue := false,
                               frameDue := true, windowEvent := false }
        ∧ t.sup.scan = (if s.cdu.gated = true ∧ s.cdu.frameDue = false ∧ s.cdu.rephaseDue = false then s.sup.scan.gatedLine
            else s.sup.scan)
        ∧ OnlyChanges [.cadence, .scan] s t)
    ∧ (s.cdu.phase = .pending →
      exec .refLinePulse s = .next { s with cdu := { s.cdu with refLine := s.cdu.refLine.map (· + 1), silentLines := 0 } }
      ∧ (s.cdu.refLine = some s.cdu.frame.lines → (s.cdu.adjust = .none ∨ s.cdu.adjust = .cutNext) → s.cdu.rephaseDue = false →
        exec .refFramePulse s = .next { s with cdu := { s.cdu with refLine := some 1, silentLines := 0 } }))


/-- R6, R7: at the end of line L, in LOCKED with re-phasing pending, with the next in-place frame pulse `d` line periods later. A
`d` of 0 aligns the phase, whatever channel is ARMED or RETURNING: no frame is adjusted, and R7's two tests speak only of a cut and of a
stretch (log 49, DEDUCED). Up to half a frame stretches the frame in progress, whose next line then begins, at which NRST is sampled
(R187); more than that has the next frame cut, each only where no channel was ARMED or RETURNING as R7 says; otherwise the frame ends and
the question is asked again. That the command acts whatever the line in progress is log 8 (DESIGN CHOICE). -/
def Obligations.RePhasingIsDecidedAtLineEnd : Prop :=
  ∀ (s : State) (d : Nat), s.power = .running → s.cdu.refState = .locked → s.cdu.phase = .pending → s.cdu.adjust = .none →
    (d = 0 → exec (.rePhasing d) s = .next { s with cdu := { s.cdu with
        rephaseDue := false, frameDue := true, windowEvent := false, phase := .aligned } })
    ∧ (0 < d → d ≤ s.cdu.frame.lines / 2 → s.cdu.quietStart = true → (∀ c, (s.authority c).busy = false) →
      ∃ t, exec (.rePhasing d) s = .next t
        ∧ t.cdu = { s.cdu with rephaseDue := false, adjust := .stretching, line := s.cdu.frame.lines + 1, windowEvent := false }
        ∧ (s.cdu.frameDue = false → nrstSampled s t) ∧ OnlyChanges [.pins, .cadence, .store] s t)
    ∧ (s.cdu.frame.lines / 2 < d → s.cdu.quietStart = true →
      exec (.rePhasing d) s = .next { s with cdu := { s.cdu with
        rephaseDue := false, frameDue := true, windowEvent := false, adjust := .cutNext } })
    ∧ (0 < d → (s.cdu.quietStart = false ∨ d ≤ s.cdu.frame.lines / 2 ∧ ∃ c, (s.authority c).busy = true) →
      exec (.rePhasing d) s = .next { s with cdu := { s.cdu with
        rephaseDue := false, frameDue := true, windowEvent := false } })


/-- R2, R10, R14, R53, R64, R86, R91, R97, R108, R111, R151, R152, R157, R158, R166, R182, R187, R189: a frame start advances the count by
exactly one, begins line 1 with the values of the live settings, and moves every count of frame starts by one: those of the commit
engine's frames left, the report timer, the watch, confirm and silence timers, the key filter, the reply wait of the transaction, the
waits for acknowledgements, and the frames left of a SAVE. The message that was being sent on ML has been sent, a receive stage that has
had no byte since the last frame start is to be abandoned, a sweep's first window may open, and NRST is sampled. That O is taken modulo
the week of the format that the frame begins with is log 6 (DEDUCED). That a cut which no pulse has ended is not carried on is log 50, and
that a sample of the accepted key level, or a released NRST, drops an acceptance that is due is log 51 and log 52 (each DESIGN CHOICE). -/
def Obligations.FrameStartAdvancesEveryCount : Prop :=
  ∀ (s : State) (k : Bool), s.power = .running →
    ∃ t, exec (.frameStart k) s = .next t
      ∧ t.cdu.now = s.cdu.now + 1 ∧ t.cdu.line = 1
      ∧ t.cdu.frame = ⟨s.live.format, s.live.swFirst, s.live.swLast⟩
      ∧ t.cdu.windowOpened = false ∧ t.cdu.windowEvent = false ∧ t.cdu.frameDue = false ∧ t.cdu.rephaseDue = false
      ∧ (t.cdu.wrapDue = true ↔ s.cdu.wrapDue = true ∨ s.cdu.now = 4294967295)
      ∧ (t.cdu.quietStart = true ↔ ∀ c, (s.authority c).busy = false)
      ∧ t.cdu.adjust = (if s.cdu.adjust = .cutNext then .cutting else .none)
      ∧ t.cdu.refState = s.cdu.refState ∧ t.cdu.refLine = s.cdu.refLine ∧ t.cdu.phase = s.cdu.phase
      ∧ t.stc = { s.stc with offset := s.stc.offset % wf s.live.format }
      ∧ t.sst.engine = (match s.sst.engine with
          | .idle => .idle
          | .committing c n => .committing c (n - 1)
          | .editing c op n => .editing c op (n - 1))
      ∧ (t.sst.startDue = true ↔ s.sst.queue ≠ []) ∧ t.sst.queue = s.sst.queue ∧ t.sst.pages = s.sst.pages
      ∧ t.rpe.reportTimer = s.rpe.reportTimer - 1
      ∧ (∀ p, t.sup.watch.get p =
          if (s.sup.watch.get p).live then ⟨true, (s.sup.watch.get p).timer - 1⟩ else s.sup.watch.get p)
      ∧ t.sup.scan = (match s.sup.scan with
          | .starting _ => .starting true
          | .idle => .idle
          | .sequential c g n => .sequential c g n
          | .parallel g ns => .parallel g ns)
      ∧ (∀ c, t.watched c =
          if (s.watched c).health = .failing then { s.watched c with confirm := (s.watched c).confirm - 1 } else s.watched c)
      ∧ (t.sup.key.asserted = s.sup.key.asserted
          ∧ t.sup.key.count = if k = s.sup.key.asserted then 0 else min 8 (s.sup.key.count + 1))
      ∧ t.cus.txn = s.cus.txn.map (fun x => { x with phase := match x.phase with
          | .sending _ => .sending true
          | .awaiting n => .awaiting (n - 1) })
      ∧ (∀ p, t.site p = if (s.site p).live then { s.site p with timer := (s.site p).timer - 1 } else s.site p)
      ∧ t.xps.awaiting = s.xps.awaiting.map (fun x => { x with left := x.left - 1 }) ∧ t.xps.eventTaken = false
      ∧ t.store.save = s.store.save.map (fun j => { j with left := j.left - 1 })
      ∧ t.store.nrstCount = (if t.pins.nrst = true then min 16 (s.store.nrstCount + 1) else 0)
      ∧ t.pins = (match s.pins.nrstLater with
          | [] => ⟨k, s.pins.nrst, []⟩
          | b :: later => ⟨k, b, later⟩)
      ∧ (∀ l, s.rx.get l = .waiting → t.rx.get l = .waiting)
      ∧ (∀ l bs fresh stale, s.rx.get l = .gathering bs fresh stale → t.rx.get l = .gathering bs false (stale || !fresh))
      ∧ t.cus.queue = s.cus.queue ∧ t.xps.pending = s.xps.pending
      ∧ OnlyChanges (Instr.frameStart k).reach s t


/-- R8: the switch-window event of a frame happens once, and the window is then open to the end of line SW_LAST. The event is that of
the start of line SW_FIRST; that the command acts at any line, and moves the line in progress to SW_FIRST where it was before it, is
log 8 (DESIGN CHOICE). -/
def Obligations.WindowOpensOncePerFrame : Prop :=
  ∀ s : State, s.power = .running →
    (s.cdu.windowOpened = false →
      ∃ t, exec .switchWindowEvent s = .next t
        ∧ t.cdu = { s.cdu with line := max s.cdu.line s.cdu.frame.swFirst, windowOpened := true, windowEvent := true }
        ∧ (t.windowOpen = true ↔ max s.cdu.line s.cdu.frame.swFirst ≤ s.cdu.frame.swLast)
        ∧ (∀ c, t.cue c = { s.cue c with boundary := false })
        ∧ OnlyChanges (.cadence :: everyChannel fun c => [.plan c]) s t)
    ∧ (s.cdu.windowOpened = true → exec .switchWindowEvent s = .next s)

/-! ## Chapter 1: the Station Clock -/

/-- R15: at the frame start at which the count wraps to 0, LOCAL_FRAME_WRAP adds W to O in every offset state, and station now,
frame start and wrap taken together, runs on by exactly one frame, as long as the format stays in force. R14: the turn record is cleared
when its frame is more than 250 frames past, and kept until then. -/
def Obligations.StationNowRunsOnAcrossTheWrap : Prop :=
  ∀ s : State, s.power = .running →
    (∀ k : Bool, s.cdu.wrapDue = false → s.cdu.now = 4294967295 →
      ∃ t u, exec (.frameStart k) s = .next t ∧ exec .localFrameWrap t = .next u
        ∧ u.cdu.now = 0 ∧ u.stationNow = (s.cdu.now.toNat + 1 + s.stc.offset) % wf s.live.format
        ∧ (s.live.format = s.format → u.stationNow = (s.stationNow + 1) % wf s.format)
        ∧ u.stc = { s.stc with offset := (s.stc.offset + 2 ^ 32 % wf s.live.format) % wf s.live.format }
        ∧ u.cdu.wrapDue = false ∧ OnlyChanges [.cadence, .clock] t u)
    ∧ (∀ f : LocalFrame, s.stc.turn = some f → 250 < (s.cdu.now - f).toNat →
      exec .turnRecordExpiry s = .next { s with stc := { s.stc with turn := none } })
    ∧ (∀ f : LocalFrame, s.stc.turn = some f → (s.cdu.now - f).toNat ≤ 250 → exec .turnRecordExpiry s = .next s)


/-- R16: the offset that a heartbeat of stamp h measures: (h + P − n) mod WF, with W added where the count has wrapped since. -/
def measuredOffset (s : State) (h : Nat) (n : LocalFrame) : Nat :=
  let w := (wf s.live.format : Int)
  (((h + s.live.feedDelay : Int) - n.toNat + if s.cdu.now.toNat < n.toNat then (2 ^ 32 : Int) else 0) % w).toNat

/-- R64, R72, R73: RPE takes this frame of this port next: intake is open, with the engine idle and no commit to begin at this frame
start, and the frame heads the queue that the turn names, or the other one when that is empty. -/
def takesNext (s : State) (p : FeedPort) (q : QueuedFrame) : Prop :=
  s.power = .running ∧ s.sst.engine = .idle ∧ (s.sst.startDue = true → s.sst.queue = []) ∧ (p = s.rpe.turn ∨ (s.feed s.rpe.turn).queue = [] ∧ p = s.rpe.turn.other)
    ∧ (s.feed p).queue.head? = some q

/-- R72: the frame has left its queue, and the turn has gone to the other port. -/
def frameTaken (s t : State) (p : FeedPort) : Prop :=
  (t.feed p).queue = (s.feed p).queue.tail ∧ (t.feed p.other).queue = (s.feed p.other).queue ∧ t.rpe.turn = p.other

/-- R84, R105 to R107: the channel has taken its items of a matching heartbeat: they are its latest air report and RESUME-READY, it is
heard, and its health is that of an evaluation where its air report is another one or it has become heard, for a channel that is
enabled. -/
def itemsHeard (s t : State) (c : Channel) (x : HeartbeatItem) : Prop :=
  let k := s.watched c
  (t.watched c).latestAir = some x.air ∧ (t.watched c).latestResume = some x.resumeReady ∧ (t.watched c).heard = true
  ∧ (t.watched c).presence = k.presence ∧ (t.watched c).run = k.run ∧ (t.watched c).lastCount = k.lastCount
  ∧ (t.watched c).health = (if (s.cfg c).enabled = true ∧ (k.heard = false ∨ k.latestAir ≠ some x.air) then
      (classOf s.linkUp (some x.air) k.presence).health k.health else k.health)
  ∧ ((t.watched c).health ≠ k.health → t.channelFlag .healthChange c = true)

/-- R85: the divergence check of a channel: in MAIN, an on-air event id that is not 0 and that neither the active page nor a READY next
page holds marks the active page DIVERGED and sets the flag; an id that is found or is 0, an EMPTY active page, and another authority
leave both as they were. -/
def checked (s t : State) (c : Channel) (id : EventId) : Prop :=
  let found (page : Page) : Prop := (∃ e ∈ page.events, e.id = id) ∨ ∃ g, (s.pages c).next = .ready g ∧ ∃ e ∈ g.events, e.id = id
  (∀ page, (s.pages c).active = some page → s.isMain c = true → id ≠ 0 → ¬ found page →
    t.pages c = { s.pages c with active := some { page with diverged := true } } ∧ t.channelFlag .diverged c = true)
  ∧ (id = 0 ∨ (s.pages c).active = none ∨ (∃ page, (s.pages c).active = some page ∧ found page)
      ∨ (s.isMain c = false ∧ t.isMain c = false) →
    t.pages c = s.pages c ∧ t.channelFlag .diverged c = s.channelFlag .diverged c)

/-- R16, R17, R18: what a matching heartbeat does to the offset. In UNSET and SET it is taken whole. In HOLDOVER and LOCKED an error
of 1 to 25 frames slews O by one frame, an error of 0 leaves it, and a larger one is a candidate, of which the third that agrees
steps O and sets OFFSET-STEP. The offset state is LOCKED afterwards. R84, R85: its items become the latest air report and RESUME-READY of
every channel, which is heard from then on, and its on-air event ids are looked for in the pages. (Of a channel whose arming the same
heartbeat aborts by health nothing is stated about the pages: log 23, DEDUCED.) R82: a heartbeat whose format code is
not the one in force sets FORMAT-MISMATCH and does nothing more. -/
def Obligations.HeartbeatMovesTheOffset : Prop :=
  ∀ (s : State) (p : FeedPort) (h : Heartbeat) (n : LocalFrame), takesNext s p ⟨n, .heartbeat h⟩ →
    (h.format.toNat ≠ formatCode s.live.format →
      ∃ t, exec .heartbeat s = .next t ∧ frameTaken s t p ∧ t.deviceFlag .formatMismatch = true
        ∧ (∀ k, k ≠ .formatMismatch → t.deviceFlag k = s.deviceFlag k) ∧ OnlyChanges (.intake :: deviceFlagParts) s t)
    ∧ (h.format.toNat = formatCode s.live.format →
    let m := measuredOffset s h.stamp.toNat n
    let e := stationSigned s.live.format m s.stc.offset
    ∃ t, exec .heartbeat s = .next t ∧ frameTaken s t p ∧ t.stc.state = .locked
      ∧ (∀ c : Channel, itemsHeard s t c h.items[c] ∧ checked s t c (h.items[c]).onAir)
      ∧ (s.stc.state = .unset ∨ s.stc.state = .set → t.stc = ⟨m, .locked, none, none, 0, none⟩)
      ∧ (s.stc.state = .locked ∨ s.stc.state = .holdover →
        (e = 0 → t.stc = { s.stc with state := .locked, candidates := 0, lastCandidate := none })
        ∧ (0 < e → e ≤ 25 → t.stc.offset = (s.stc.offset + 1) % wf s.live.format ∧ t.stc.slew = some .up
            ∧ t.stc.candidates = 0 ∧ t.stc.lastCandidate = none
            ∧ t.stc.turn = (if s.stc.slew = some .down then some s.cdu.now else s.stc.turn)
            ∧ (s.stc.slew = some .down → s.stc.turn.isSome → t.deviceFlag .offsetWander = true))
        ∧ (e < 0 → -25 ≤ e → t.stc.offset = (s.stc.offset + wf s.live.format - 1) % wf s.live.format ∧ t.stc.slew = some .down
            ∧ t.stc.candidates = 0 ∧ t.stc.lastCandidate = none
            ∧ t.stc.turn = (if s.stc.slew = some .up then some s.cdu.now else s.stc.turn)
            ∧ (s.stc.slew = some .up → s.stc.turn.isSome → t.deviceFlag .offsetWander = true))
        ∧ (25 < e ∨ e < -25 →
          (∀ l, s.stc.lastCandidate = some l → s.stc.candidates = 2 → (stationSigned s.live.format m l).natAbs ≤ 1 →
              t.stc = ⟨m, .locked, none, none, 0, none⟩ ∧ t.deviceFlag .offsetStep = true)
          ∧ (∀ l, s.stc.lastCandidate = some l → s.stc.candidates = 1 → (stationSigned s.live.format m l).natAbs ≤ 1 →
              t.stc = { s.stc with state := .locked, candidates := 2, lastCandidate := some m })
          ∧ (∀ l, s.stc.lastCandidate = some l → 1 < (stationSigned s.live.format m l).natAbs →
              t.stc = { s.stc with state := .locked, candidates := 1, lastCandidate := some m })
          ∧ (s.stc.candidates = 0 ∨ s.stc.lastCandidate = none →
              t.stc = { s.stc with state := .locked, candidates := 1, lastCandidate := some m })))
      ∧ OnlyChanges Instr.heartbeat.reach s t)

/-! ## Requests of a site port -/

/-- A site port whose next valid frame is taken: the part runs and the answer queue has room (R165, R186). -/
def canTake (s : State) (p : SitePort) : Prop := s.power = .running ∧ (s.site p).answers.length < 4

/-- The request has been answered at its instant: the answer is appended, the port is LIVE with its silence timer reloaded, its
receive stage waits, and nothing else of the site ports changes (R164 to R166). -/
def answered (s t : State) (p : SitePort) (tag : Tag) (code : Byte) (k : AnswerCode) (result : List Byte) : Prop :=
  (t.site p).withoutPairs
      = { (s.site p).withoutPairs with live := true, timer := s.live.siteTimeout,
                                       answers := (s.site p).answers ++ [⟨tag, code, k, result⟩] }
    ∧ (t.site p.other).withoutPairs = (s.site p.other).withoutPairs
    ∧ t.rx = s.rx.put (siteLine p) .waiting

/-- The request is answered with this code and no result, and nothing but its port changes: it is refused (R168), or it is DONE and
changes nothing (R128). -/
def onlyAnswered (i : Instr) (s : State) (p : SitePort) (tag : Tag) (code : Byte) (k : AnswerCode) : Prop :=
  ∃ t, exec i s = .next t ∧ answered s t p tag code k [] ∧ OnlyChanges requestParts s t

/-- The channel is RETURNING, and no other port than this one holds it (R127). -/
def returningOwn (s : State) (c : Channel) (p : SitePort) : Prop :=
  ∃ pr m point a, s.authority c = .returning pr m point a ∧ (pr = .standby ∨ pr = .held p)

/-- The items of STATUS in the order of R169, each in the width of R193. -/
def statusItems (s : State) : List Byte :=
  nat8 s.cdu.refState.code ++ flag8 (s.cdu.refState == .locked && s.cdu.phase == .pending) ++ nat8 s.stc.state.code
    ++ nat16 s.slotsUsed
    ++ ([Side.A, .B].flatMap fun q => flag8 (s.feed q).enabled ++ nat16 (s.feed q).queue.length
        ++ nat8 (if (s.sup.watch.get q).live then 0 else 1) ++ nat16 (s.sup.watch.get q).timer)
    ++ nat8 (if (s.sup.watch.get .A).live ∨ (s.sup.watch.get .B).live then 0 else 1)
    ++ flag8 (decide (s.sst.engine ≠ .idle ∨ s.sst.startDue = true ∧ s.sst.queue ≠ []))
    ++ nat8 (if s.sup.scan = .idle then 0 else 1)
    ++ nat8 s.live.scanResolution ++ nat8 (if s.live.scanMode = .sequential then 0 else 1) ++ flag8 s.live.scanRepeat
    ++ nat16 s.live.scanMask.toNat
    ++ (show List Byte from match s.sup.scan with
        | .sequential c _ _ => [1, BitVec.ofNat 8 c.val]
        | .idle => [0]
        | .starting _ => [0]
        | .parallel _ _ => [0])
    ++ nat8 (if s.sup.key.asserted then 0 else 1) ++ nat16 s.sup.key.count
    ++ (channels.flatMap fun c => nat8 (s.authority c).name.code)
    ++ nat16 (s.cus.queue.length + if s.cus.txn.isSome then 1 else 0)
    ++ optional (fun k => nat8 k.entry.channel.val ++ nat8 (if k.entry.action = .cancel then 1 else 0)) s.cus.txn
    ++ (channels.flatMap fun c => flag8 s.xps.tally[c]) ++ flag8 s.xps.alarm
    ++ ([Side.A, .B].flatMap fun q => nat8 (if (s.site q).live then 0 else 1) ++ nat16 (s.site q).timer)
    ++ flag8 s.store.defaulted ++ flag8 s.store.save.isSome ++ optional (fun j => nat16 j.left) s.store.save
    ++ nat8 s.store.outcome.code

/-- The page items of a CHANNEL read (R66): the active page, the next page, the engine and the place in the commit queue. -/
def pageItems (s : State) (c : Channel) : List Byte :=
  (show List Byte from match (s.pages c).active with
    | none => [0, 0, 0, 0, 0, 0, 0]
    | some g => [1] ++ (1 :: nat8 g.baseDay) ++ (1 :: bytes16 g.serial) ++ (1 :: nat16 g.events.length) ++ (1 :: nat16 g.dropped)
        ++ (1 :: flag8 g.behind) ++ (1 :: flag8 g.diverged))
    ++ (show List Byte from match (s.pages c).next with
        | .empty => [0, 0, 0, 0, 0, 0]
        | .loading g => [1] ++ (1 :: flag8 g.broken) ++ (1 :: bytes16 g.serial) ++ (1 :: nat8 g.baseDay)
            ++ (1 :: nat16 g.events.length) ++ (1 :: nat16 g.declared)
        | .committing g => [2, 0] ++ (1 :: bytes16 g.serial) ++ (1 :: nat8 g.baseDay) ++ (1 :: nat16 g.events.length)
            ++ (1 :: nat16 g.declared)
        | .ready g => [3, 0] ++ (1 :: bytes16 g.serial) ++ (1 :: nat8 g.baseDay) ++ (1 :: nat16 g.events.length) ++ [0])
    ++ optional (fun x => labelBytes (stageB s.format x)) (s.pages c).next.flip
    ++ flag8 (decide (s.sst.engine ≠ .idle)) ++ optional (fun i => nat16 (i + 1)) (s.sst.queue.findIdx? (· == c))

/-- The health and presence items of a CHANNEL read (R94, R104, R110). -/
def healthItems (s : State) (c : Channel) : List Byte :=
  let k := s.watched c
  nat8 k.health.code ++ optional (fun a => nat8 a.code) k.latestAir ++ nat8 k.presence.code ++ optional flag8 k.latestResume
    ++ nat8 (if (s.sup.watch.get .A).live ∨ (s.sup.watch.get .B).live then 0 else 1)
    ++ optional nat16 (if k.health = .failing then some k.confirm else none)
    ++ nat8 k.presence.code
    ++ (show List Byte from match k.run with
        | some (true, n) => nat8 0 ++ nat16 n
        | some (false, n) => nat8 1 ++ nat16 n
        | none => nat8 2 ++ nat16 0)
    ++ optional nat16 k.lastCount ++ flag8 (s.live.scanMask.getLsbD c.val)

/-- The station time of a local frame that is in progress or to come: it moves with O (R35), and takes the wrap of the count with it
(R15). -/
def stationTimeOf (s : State) (x : LocalFrame) : List Byte :=
  labelBytes (stageB s.format ((x.toNat + s.stc.offset + if x.toNat < s.cdu.now.toNat then 2 ^ 32 % wf s.format else 0) % wf s.format))

/-- A player or a port, where there is one. -/
def sideItem (q : Option Side) : List Byte := optional (fun q => nat8 (sideCode q)) q

/-- An on-air segment in the order of R113. -/
def airItems (a : OnAir) : List Byte :=
  nat8 a.kind.code ++ bytes32 a.id ++ optional nat16 a.source ++ sideItem a.player ++ optional bytes32 a.stop

/-- A join plan in the order of R43, with its player (R122). -/
def planItems (s : State) (g : JoinPlan) : List Byte :=
  bytes32 g.start ++ stationTimeOf s g.start ++ nat8 g.content.code ++ bytes32 g.id
    ++ (show List Byte from match g.content with
        | .clip _ m => (1 :: nat32 m) ++ [0]
        | .live x => [0] ++ (1 :: nat16 x)
        | .filler => [0, 0])
    ++ optional bytes32 g.stop ++ optional (fun x => bytes32 x.1 ++ bytes32 x.2) g.next ++ flag8 g.exhausted ++ sideItem g.player

/-- An authority record in the order of R113: authority, origin, join plan, holder, on-air segment, return mode, return point and prior
state, each but the first where the record has it. -/
def authorityItems (s : State) (c : Channel) : List Byte :=
  match s.authority c with
  | .main => nat8 0 ++ [0, 0, 0, 0, 0, 0, 0]
  | .armed o g => nat8 1 ++ (1 :: nat8 o.code) ++ (1 :: planItems s g) ++ [0, 0, 0, 0, 0]
  | .standby a => nat8 2 ++ [0, 0, 0] ++ (1 :: airItems a) ++ [0, 0, 0]
  | .held p a => nat8 3 ++ [0, 0] ++ sideItem (some p) ++ (1 :: airItems a) ++ [0, 0, 0]
  | .returning .standby m point a =>
    nat8 4 ++ [0, 0, 0] ++ (1 :: airItems a) ++ (1 :: nat8 m.code) ++ (1 :: (bytes32 point ++ stationTimeOf s point)) ++ (1 :: nat8 2)
  | .returning (.held p) m point a =>
    nat8 4 ++ [0, 0] ++ sideItem (some p) ++ (1 :: airItems a) ++ (1 :: nat8 m.code) ++ (1 :: (bytes32 point ++ stationTimeOf s point))
      ++ (1 :: nat8 3)

/-- A planned segment in the order of R144: the state of a clip's PLAY is queued, in transaction, or ended. -/
def plannedItems (s : State) (c : Channel) (g : Planned) : List Byte :=
  nat8 g.content.airKind.code ++ bytes32 g.id ++ bytes32 g.start ++ optional bytes32 g.stop
    ++ (show List Byte from match g.content with
        | .clip q clipId media => sideItem (some q) ++ (1 :: (nat8 clipId.length ++ clipId)) ++ (1 :: nat32 media)
            ++ (1 :: nat8 (if s.playQueued c g.start then 0 else if s.playInTxn c g.start then 1 else 2)) ++ [0]
        | .live x => [0, 0, 0, 0] ++ (1 :: nat16 x)
        | .fill => [0, 0, 0, 0, 0]
        | .gap => [0, 0, 0, 0, 0])
    ++ flag8 g.placed

/-- A cue entry in the order of R141, after its place in the queue. That a CANCEL has a withdrawn byte too is log 16 (DESIGN CHOICE). -/
def entryItems (place : Nat) (x : CueEntry) (withdrawn : Bool) : List Byte :=
  let head := nat16 place ++ nat8 (if x.action.isPlay then 0 else 1) ++ nat8 x.channel.val ++ nat8 (sideCode x.player) ++ nat8 x.address
  let frames := bytes32 x.start ++ bytes32 x.deadline
  match x.action with
  | .cancel => head ++ [0, 0] ++ frames ++ [0] ++ flag8 withdrawn
  | .play clipId media attempt _ =>
    head ++ (1 :: (nat8 clipId.length ++ clipId)) ++ (1 :: nat32 media) ++ frames ++ (1 :: nat16 attempt) ++ flag8 withdrawn

/-- Player use, planned segments, cue entries, pending crosspoints and last acknowledged source of a CHANNEL read (R162). -/
def cueItems (s : State) (c : Channel) : List Byte :=
  let k := s.cue c
  let held := (s.cus.txn.map fun t => (t.entry, t.withdrawn)).toList ++ s.cus.queue.map fun x => (x, false)
  let mine := held.zipIdx.filter fun y => y.1.1.channel == c
  let pending := s.xps.pending.filter fun x => x.destination == (s.cfg c).destination
  nat8 k.players.a.code ++ nat8 k.players.b.code ++ nat8 (lastClipCode k.lastClip)
    ++ nat8 k.planned.length ++ k.planned.flatMap (plannedItems s c)
    ++ nat8 mine.length ++ (mine.flatMap fun y => entryItems (y.2 + 1) y.1.1 y.1.2)
    ++ nat8 pending.length ++ (pending.flatMap fun x => nat16 x.source ++ bytes32 x.due ++ nat8 x.channel.val)
    ++ optional nat16 (s.lastAckOf (s.cfg c).destination)

/-- R66, R164, R165, R166, R168, R169, R170: each read, KEEPALIVE, and a request of an unknown type is answered at once and changes
nothing but its port. STATUS and CHANNEL return their items in the order of R169, CHANNEL with the items of R66, R94, R104, R110, R137
and R162 and the channel's flags; FLAGS returns every flag, the masks and the ALM polarity. CLOCK returns the offset state, station now,
absent in UNSET, the reference state and whether the switch window is open. An EVENT read of an event that a page holds is answered with
the event; any other index, and a page code that names no page, is answered BAD-VALUE. What R193 leaves open in these layouts is log 16
(DESIGN CHOICE). -/
def Obligations.ReadsAnswerAndChangeNothing : Prop :=
  ∀ (s : State) (p : SitePort) (tag : Tag), canTake s p →
    (∃ t, exec (.status p (.formed tag ())) s = .next t ∧ OnlyChanges requestParts s t
        ∧ answered s t p tag 0x20 .done (statusItems { s with sli := { s.sli with
            port := s.sli.port.put p { s.site p with live := true, timer := s.live.siteTimeout } } }))
    ∧ (∀ (ch : Byte) (c : Channel), ch.toNat = c.val →
      ∃ t, exec (.channel p (.formed tag ch)) s = .next t ∧ OnlyChanges requestParts s t
        ∧ answered s t p tag 0x21 .done (pageItems s c ++ optional bytes16 s.rpe.baseline[c] ++ healthItems s c
            ++ authorityItems s c ++ cueItems s c ++ channelFlags.flatMap fun k => flag8 (s.channelFlag k c)))
    ∧ (∃ t, exec (.clock p (.formed tag ())) s = .next t ∧ OnlyChanges requestParts s t
        ∧ answered s t p tag 0x23 .done
            ((match s.stc.state with | .unset => ([0] : List Byte) | .locked => [1] | .holdover => [2] | .set => [3])
              ++ (if s.stc.state = .unset then [0] else 1 :: labelBytes (stageB s.format s.stationNow))
              ++ (match s.cdu.refState with | .acquiring => ([0] : List Byte) | .locked => [1] | .freerun => [2])
              ++ (if s.windowOpen then [1] else [0])))
    ∧ (∃ t, exec (.flags p (.formed tag ())) s = .next t ∧ OnlyChanges requestParts s t
        ∧ answered s t p tag 0x24 .done ((deviceFlags.flatMap fun k => flag8 (s.deviceFlag k))
            ++ (channelFlags.flatMap fun k => channels.flatMap fun c => flag8 (s.channelFlag k c))
            ++ bytes32 (s.site .A).mask ++ bytes32 (s.site .B).mask ++ bytes32 s.live.alarmMask
            ++ (if s.live.almPolarity = .activeHigh then [0] else [1])))
    ∧ (∃ t, exec (.keepalive p (.formed tag ())) s = .next t ∧ answered s t p tag 0x38 .done [] ∧ OnlyChanges requestParts s t)
    ∧ (∀ code : Byte, ∃ t, exec (.unknownRequest p code tag) s = .next t
        ∧ answered s t p tag code .unknownRequest [] ∧ OnlyChanges requestParts s t)
    ∧ (∀ (x : EventReadFields) (c : Channel), x.channel.toNat = c.val →
      (∀ page e, x.page = 0 → (s.pages c).active = some page → page.events[x.index.toNat]? = some e →
        ∃ t, exec (.eventRead p (.formed tag x)) s = .next t
          ∧ answered s t p tag 0x22 .done (eventBytes s.format page.baseDay e) ∧ OnlyChanges requestParts s t)
      ∧ (∀ day e, x.page = 1 → (s.pages c).next.baseDay = some day → (s.pages c).next.events[x.index.toNat]? = some e →
        ∃ t, exec (.eventRead p (.formed tag x)) s = .next t
          ∧ answered s t p tag 0x22 .done (eventBytes s.format day e) ∧ OnlyChanges requestParts s t)
      ∧ ((x.page = 0 ∧ (activeEvents (s.pages c).active).length ≤ x.index.toNat
          ∨ x.page = 1 ∧ (s.pages c).next.events.length ≤ x.index.toNat ∨ 1 < x.page.toNat) →
        ∃ t, exec (.eventRead p (.formed tag x)) s = .next t
          ∧ answered s t p tag 0x22 .badValue [] ∧ OnlyChanges requestParts s t))


/-- Every request that carries fields, with a body that disagrees with its form, and its frame type. -/
def malformedRequests (p : SitePort) (tag : Tag) : List (Instr × Byte) :=
  [(.status p (.malformed tag), 0x20), (.channel p (.malformed tag), 0x21), (.eventRead p (.malformed tag), 0x22),
   (.clock p (.malformed tag), 0x23), (.flags p (.malformed tag), 0x24), (.take p (.malformed tag), 0x25),
   (.cancel p (.malformed tag), 0x26), (.hold p (.malformed tag), 0x27), (.release p (.malformed tag), 0x28),
   (.returnToMain p (.malformed tag), 0x29), (.route p (.malformed tag), 0x2A), (.setTime p (.malformed tag), 0x2B),
   (.configureChannel p (.malformed tag), 0x2C), (.configureCadence p (.malformed tag), 0x2D),
   (.configurePorts p (.malformed tag), 0x2E), (.configureScan p (.malformed tag), 0x2F), (.scanStart p (.malformed tag), 0x30),
   (.scanStop p (.malformed tag), 0x31), (.feedEnable p (.malformed tag), 0x32), (.clearChannel p (.malformed tag), 0x33),
   (.clearFlags p (.malformed tag), 0x34), (.setNoticeMask p (.malformed tag), 0x35), (.setAlarmMask p (.malformed tag), 0x36),
   (.save p (.malformed tag), 0x37), (.keepalive p (.malformed tag), 0x38)]

/-- The request commands of a site port. -/
inductive IsRequest (p : SitePort) : Instr → Prop where
  | unknownRequest (code tag) : IsRequest p (.unknownRequest p code tag)
  | status (r) : IsRequest p (.status p r)
  | channel (r) : IsRequest p (.channel p r)
  | eventRead (r) : IsRequest p (.eventRead p r)
  | clock (r) : IsRequest p (.clock p r)
  | flags (r) : IsRequest p (.flags p r)
  | take (r) : IsRequest p (.take p r)
  | takeAll (tag) : IsRequest p (.takeAll p tag)
  | cancel (r) : IsRequest p (.cancel p r)
  | hold (r) : IsRequest p (.hold p r)
  | release (r) : IsRequest p (.release p r)
  | returnToMain (r) : IsRequest p (.returnToMain p r)
  | route (r) : IsRequest p (.route p r)
  | setTime (r) : IsRequest p (.setTime p r)
  | configureChannel (r) : IsRequest p (.configureChannel p r)
  | configureCadence (r) : IsRequest p (.configureCadence p r)
  | configurePorts (r) : IsRequest p (.configurePorts p r)
  | configureScan (r) : IsRequest p (.configureScan p r)
  | scanStart (r) : IsRequest p (.scanStart p r)
  | scanStop (r) : IsRequest p (.scanStop p r)
  | feedEnable (r) : IsRequest p (.feedEnable p r)
  | clearChannel (r) : IsRequest p (.clearChannel p r)
  | clearFlags (r) : IsRequest p (.clearFlags p r)
  | setNoticeMask (r) : IsRequest p (.setNoticeMask p r)
  | setAlarmMask (r) : IsRequest p (.setAlarmMask p r)
  | save (r) : IsRequest p (.save p r)
  | keepalive (r) : IsRequest p (.keepalive p r)

/-- R168 steps 2 and 3: every request whose body disagrees with its form is answered BAD-VALUE, and every request that names a channel
number above 11 is answered NO-CHANNEL, whatever its other fields (a TAKE that names FFh is TAKE ALL); a refused request changes no
state. R164, R165, R166: a valid frame of any request that completes while four answers are queued is not taken and gets no answer. It
reloads the silence timer, as every valid frame does, and by that a SILENT port becomes LIVE; that it does so here too, and does nothing
more, is log 17 (DEDUCED). -/
def Obligations.RefusedRequestsChangeNothing : Prop :=
  ∀ (s : State) (p : SitePort) (tag : Tag),
    (canTake s p → ∀ x ∈ malformedRequests p tag,
      ∃ t, exec x.1 s = .next t ∧ answered s t p tag x.2 .badValue [] ∧ OnlyChanges requestParts s t)
    ∧ (canTake s p → ∀ (ch page mode : Byte) (index source : BitVec 16) (items : ChannelItems), 11 < ch.toNat →
      ∀ x ∈ [(Instr.channel p (.formed tag ch), 0x21#8), (.eventRead p (.formed tag ⟨ch, page, index⟩), 0x22#8),
             (.cancel p (.formed tag ch), 0x26#8), (.hold p (.formed tag ch), 0x27#8), (.release p (.formed tag ch), 0x28#8),
             (.returnToMain p (.formed tag ⟨ch, mode⟩), 0x29#8), (.route p (.formed tag ⟨ch, source⟩), 0x2A#8),
             (.configureChannel p (.formed tag ⟨ch, items⟩), 0x2C#8), (.clearChannel p (.formed tag ch), 0x33#8)],
        ∃ t, exec x.1 s = .next t ∧ answered s t p tag x.2 .noChannel [] ∧ OnlyChanges requestParts s t)
    ∧ (canTake s p → ∀ ch : Byte, 11 < ch.toNat → ch ≠ 0xFF →
      ∃ t, exec (.take p (.formed tag ch)) s = .next t ∧ answered s t p tag 0x25 .noChannel [] ∧ OnlyChanges requestParts s t)
    ∧ (s.power = .running → (s.site p).answers.length = 4 → ∀ i, IsRequest p i →
        ∃ t, exec i s = .next t ∧ t.site p = { s.site p with live := true, timer := s.live.siteTimeout }
          ∧ t.site p.other = s.site p.other ∧ t.rx = s.rx.put (siteLine p) .waiting ∧ OnlyChanges requestParts s t)


/-- R20, R26: SET TIME. In LOCKED and SET it is refused with LOCKED; in UNSET and HOLDOVER a label in range is accepted with O =
(s − local frame) mod WF and the state SET, and one out of range is refused with BAD-TIME. -/
def Obligations.SetTimeSetsTheOffset : Prop :=
  ∀ (s : State) (p : SitePort) (tag : Tag) (x : TimeBytes), canTake s p →
    (s.stc.state = .locked ∨ s.stc.state = .set →
      ∃ t, exec (.setTime p (.formed tag x)) s = .next t ∧ answered s t p tag 0x2B .locked [] ∧ OnlyChanges requestParts s t)
    ∧ (s.stc.state = .unset ∨ s.stc.state = .holdover →
      (∀ a, stageA s.format (labelOf x) = some a →
        ∃ t, exec (.setTime p (.formed tag x)) s = .next t ∧ answered s t p tag 0x2B .done []
          ∧ t.stc = ⟨(((a.frame : Int) - s.cdu.now.toNat) % wf s.format).toNat, .set, none, none, 0, none⟩
          ∧ t.stationNow = a.frame ∧ OnlyChanges (.clock :: requestParts) s t)
      ∧ (stageA s.format (labelOf x) = none →
        ∃ t, exec (.setTime p (.formed tag x)) s = .next t ∧ answered s t p tag 0x2B .badTime [] ∧ OnlyChanges requestParts s t))

/-! ## Chapter 2: timecode and joins -/

/-- R28, R29: stage B splits a station frame into the station day and a label of the frame of the day, which counts the labels that
F30D skips: the label's own count of labels is the frame of the day, and in F30D the count g that R29 gives for it. Every field is in
its range and the label exists. Stage A applied to the result gives the station frame back, with the label as it stands. -/
def Obligations.StageAInvertsStageB : Prop :=
  ∀ (f : Format) (x : Nat), x < wf f →
    let t := stageB f x
    let d := x % fpd f
    t.day = x / fpd f ∧ t.hh ≤ 23 ∧ t.mm ≤ 59 ∧ t.ss ≤ 59 ∧ t.ff < base f
    ∧ (f ≠ .f30d → ((t.hh * 60 + t.mm) * 60 + t.ss) * base f + t.ff = d)
    ∧ (f = .f30d → ((t.hh * 60 + t.mm) * 60 + t.ss) * 30 + t.ff
        = d + 18 * (d / 17982) + (if d % 17982 < 2 then 0 else 2 * ((d % 17982 - 2) / 1798)))
    ∧ (f = .f30d → t.mm % 10 ≠ 0 → t.ss = 0 → 2 ≤ t.ff)
    ∧ stageA f t = some ⟨x, t, false⟩

/-- R23 to R27: stage A converts exactly the labels whose fields are in range. A label that F30D skips is taken as frame 2 of the same
second, with the adjusted indication. The station frame is the label's day times FPD plus the frame of the day, which in F30D leaves
out two labels for each minute but every tenth; it lies in the week, and stage B gives the label back for it. -/
def Obligations.StageAConvertsLabelsInRange : Prop :=
  ∀ (f : Format) (l : Label),
    ((l.day ≤ 6 ∧ l.hh ≤ 23 ∧ l.mm ≤ 59 ∧ l.ss ≤ 59 ∧ l.ff < base f) ↔ (stageA f l).isSome)
    ∧ ∀ a, stageA f l = some a →
      a.frame < wf f ∧ a.frame / fpd f = l.day ∧ stageB f a.frame = a.label
      ∧ (f ≠ .f30d → a.frame = l.day * fpd f + (3600 * l.hh + 60 * l.mm + l.ss) * base f + l.ff)
      ∧ (f = .f30d → a.frame + 2 * (60 * l.hh + l.mm - (60 * l.hh + l.mm) / 10)
          = l.day * fpd f + (3600 * l.hh + 60 * l.mm + l.ss) * 30 + a.label.ff)
      ∧ (a.adjusted = true ↔ f = .f30d ∧ l.ss = 0 ∧ l.ff < 2 ∧ l.mm % 10 ≠ 0)
      ∧ a.label = (if a.adjusted then { l with ff := 2 } else l)

/-- R34, R35: where a join is placed: the send estimate counts 1 + REPLY_TIMEOUT frames for every cue entry, jl lies K frames after
it, and js is station now at jl, the wrap of the count on the way included. -/
def Obligations.JoinIsPlacedBySendEstimate : Prop :=
  ∀ (s : State) (c : Channel),
    let entries := s.cus.queue.length + (if s.cus.txn.isSome then 1 else 0)
    let ahead := entries * (1 + s.live.replyTimeout) + (s.cfg c).cueLead
    (s.join c).plan.start = s.cdu.now + BitVec.ofNat 32 ahead
    ∧ (ahead < 4294967296 → (s.join c).plan.station = (s.stationNow + ahead) % wf s.format)
    ∧ (∀ page, (s.pages c).active = some page →
        (s.join c).rel = some (((s.join c).plan.station + wf s.format - page.baseDay * fpd s.format % wf s.format)
          % wf s.format))

/-- R36, R37, R39 to R42: what a position on a page gives. A clip keeps its cue bound: its media point is the event's trim plus an
offset of at most the effective duration less max(MIN_REMAIN, 1). On a resolved page an event that covers the position decides the
content: from its start, or past it with policy JOIN, a clip with that bound kept, its live source, or filler; past its start with
NO-JOIN, filler; the segment carries the event's id, ends with it, and the next event is the one after it. A position that no event
covers gives filler of event id 0 up to the next event, also from before the base, and with no end past the last event or after the page.
R145: a boundary lookup at a local frame e is the position rj + (e − jl), modulo WF, through the anchor (jl, rj), for e on either side
of jl. -/
def Obligations.PositionsGiveTheirSegments : Prop :=
  (∀ (f : Format) (minRemain : Nat) (es : List Event) (p : Nat),
    let x := placeOn f (max minRemain 1) es p
    (∀ (clipId : List Byte) (media : Nat), x.content = .clip clipId media →
      ∃ e ∈ es, ∃ (r : Resolution) (trim : Nat), e.res = some r ∧ e.kind = .clip clipId trim ∧ e.id = x.id
        ∧ trim ≤ media ∧ media - trim + max minRemain 1 ≤ r.dur ∧ r.start + (media - trim) = p)
    ∧ (resolvedWell f es → ∀ (pre post : List Event) (e : Event) (r : Resolution), es = pre ++ e :: post → e.res = some r →
      r.start ≤ p → p < r.start + r.dur →
      x.id = e.id ∧ x.length = some (r.start + r.dur - p)
      ∧ (post = [] → x.next = none)
      ∧ (∀ e' post' r', post = e' :: post' → e'.res = some r' → x.next = some (e'.id, r'.start - p))
      ∧ (p = r.start ∨ e.policy = .join →
        (∀ clipId trim, e.kind = .clip clipId trim →
          x.content = if max minRemain 1 ≤ r.start + r.dur - p then .clip clipId (trim + (p - r.start)) else .filler)
        ∧ (∀ source, e.kind = .live source → x.content = .live source)
        ∧ (e.kind = .fill → x.content = .filler))
      ∧ (r.start < p → e.policy = .noJoin → x.content = .filler))
    ∧ (p < wf f → (∀ e ∈ es, ∃ r, e.res = some r ∧ r.start < 3 * fpd f) →
      (∀ e ∈ es, ∀ r, e.res = some r → ¬(r.start ≤ p ∧ p < r.start + r.dur)) →
      x.content = .filler ∧ x.id = 0
      ∧ (x.exhausted = true ↔ (es = [] ∨ (p < 4 * fpd f ∧ ∀ e ∈ es, ∀ r, e.res = some r → r.start ≤ p)
          ∨ (4 * fpd f ≤ p ∧ p < 6 * fpd f)))
      ∧ (∀ i n, x.next = some (i, n) → x.length = some n
          ∧ ∃ e ∈ es, ∃ r, e.res = some r ∧ e.id = i ∧ (p + n) % wf f = r.start)
      ∧ (∀ (pre post : List Event) (e : Event) (r : Resolution), es = pre ++ e :: post → e.res = some r →
        (p < r.start ∧ ∀ e' ∈ pre, ∀ r', e'.res = some r' → r'.start ≤ p) →
          p < 4 * fpd f → x.next = some (e.id, r.start - p) ∧ x.length = some (r.start - p))
      ∧ (∀ (post : List Event) (e : Event) (r : Resolution), es = e :: post → e.res = some r → 6 * fpd f ≤ p →
          x.next = some (e.id, r.start + wf f - p) ∧ x.length = some (r.start + wf f - p))))
  ∧ ∀ (s : State) (c : Channel) (e jl : LocalFrame) (rj : Nat) (page : Page),
    (s.cue c).anchor = some (jl, rj) → (s.pages c).active = some page → (e - jl).toNat ≠ 2147483648 →
    s.lookupPlace c e
      = some (placeOn s.format (max (s.cfg c).minRemain 1) page.events (((rj : Int) + (e - jl).toInt) % wf s.format).toNat)

/-! ## Segments, their cues and their crosspoints (6.3, 7.3, 7.5) -/

/-- R157: a crosspoint has been placed: it replaces the one pending on its destination for its due frame, and the others are kept. In the
open window of its due frame, once XPS has taken that window's event, it is issued at once and awaits its acknowledgement; otherwise it is
pending. -/
def placed (s t : State) (x : Crosspoint) : Prop :=
  let kept := s.xps.pending.filter fun y => !(y.destination == x.destination && y.due == x.due)
  (x.due = s.cdu.now ∧ s.windowOpen = true ∧ s.xps.eventTaken = true →
    t.xps.pending = kept ∧ t.xps.awaiting = s.xps.awaiting ++ [⟨x.destination, x.source, x.channel, 2⟩])
  ∧ (x.due ≠ s.cdu.now ∨ s.windowOpen = false ∨ s.xps.eventTaken = false →
    t.xps.pending = kept ++ [x] ∧ t.xps.awaiting = s.xps.awaiting)

/-- R113, R147: the segment on air that a planned one becomes at its start: its kind, its event id, its source, its player for a clip, its
end and its start. -/
def airOfPlanned (s : State) (c : Channel) (seg : Planned) : OnAir :=
  match seg.content with
  | .clip q _ _ => ⟨.clip, seg.id, some ((s.cfg c).players.get q).source, some q, seg.stop, seg.start⟩
  | .live x => ⟨.live, seg.id, some x, none, seg.stop, seg.start⟩
  | .fill => ⟨.fill, seg.id, (s.cfg c).filler, none, seg.stop, seg.start⟩
  | .gap => ⟨.gap, seg.id, (s.cfg c).filler, none, seg.stop, seg.start⟩

/-- R117, R141, R145: a first segment or a planned one that is a clip has its PLAY in the queue: on its player, with its start and the
deadline K frames before it. -/
def playHeld (s t : State) (c : Channel) (content : SegContent) (start : LocalFrame) (id : EventId) (q : Player) (attempt : Nat) : Prop :=
  ∀ clipId media, content = .clip clipId media →
    ∃ y ∈ t.cus.queue, y.channel = c ∧ y.player = q ∧ y.start = start ∧ y.deadline = start - BitVec.ofNat 32 (s.cfg c).cueLead
      ∧ y.action = .play clipId media attempt id

/-- R157: a crosspoint is pending, or, where it was placed for the frame in progress in the open window whose event XPS has taken, it has
been issued and awaits its acknowledgement. -/
def sentOrPending (s t : State) (x : Crosspoint) : Prop :=
  (x.due = s.cdu.now ∧ s.windowOpen = true ∧ s.xps.eventTaken = true → ⟨x.destination, x.source, x.channel, 2⟩ ∈ t.xps.awaiting)
  ∧ (x.due ≠ s.cdu.now ∨ s.windowOpen = false ∨ s.xps.eventTaken = false → x ∈ t.xps.pending)

/-- R145, R159: the crosspoint of a planned segment, from the source in use of the segment before it. A clip's is placed later, at the end
of its send. A live source's or filler's has been placed, due at its start, but where the source is the one before or there is none; then
no crosspoint of the channel for that frame has been added. -/
def segmentRouted (s t : State) (c : Channel) (g : Planned) (before : Option Nat) : Prop :=
  let source := (airOfPlanned s c g).source
  let none' : Prop := g.start ≠ s.cdu.now → ∀ x ∈ t.xps.pending, x.channel = c → x.due = g.start → x ∈ s.xps.pending
  (g.content.player.isSome → g.placed = false ∧ none')
  ∧ (g.content.player = none →
    (∀ x, source = some x → source ≠ before →
      g.placed = true ∧ sentOrPending s t ⟨(s.cfg c).destination, g.start, x, c⟩)
    ∧ (source = none ∨ source = before → g.placed = false ∧ none'))

/-- R159: the source in use of the segment before the last planned one: planned, or on air. -/
def sourceBeforeLast (t : State) (c : Channel) : Option Nat :=
  match (t.cue c).planned.dropLast.getLast? with
  | some b => (airOfPlanned t c b).source
  | none => (t.authority c).air.bind fun a => a.source

/-- R145: this planned segment, the last, is the one that a boundary lookup at a frame gives: a clip's PLAY is queued, and the crosspoint
of any other is placed; past the end of the list LIST-EXHAUSTED is set. -/
def lookedUp (s t : State) (c : Channel) (e : LocalFrame) (y : Placed) (g : Planned) : Prop :=
  g.start = e ∧ g.id = y.id ∧ g.stop = y.length.map (fun l => e + BitVec.ofNat 32 l)
  ∧ (∃ q, g.content = plannedContent y.content y.id q ∧ playHeld s t c y.content e y.id q 1)
  ∧ (y.length = none → t.channelFlag .listExhausted c = true) ∧ segmentRouted s t c g (sourceBeforeLast t c)

/-- R146: this planned segment, the last, is the first segment of a join, cued or routed as one that a boundary lookup gives, and the
anchor is the join's. -/
def joinPlanned (s t : State) (c : Channel) (j : Join) (g : Planned) : Prop :=
  g.start = j.plan.start ∧ g.id = j.plan.id ∧ g.stop = j.plan.stop
  ∧ (t.cue c).anchor = j.rel.map (fun rj => (j.plan.start, rj))
  ∧ (∃ q, g.content = plannedContent j.plan.content j.plan.id q ∧ playHeld s t c j.plan.content j.plan.start j.plan.id q 1)
  ∧ segmentRouted s t c g (sourceBeforeLast t c)

/-- R43, R117: the source that the first segment of an arming routes: none for a clip, whose crosspoint CUS places at the end of its send,
and none for filler of a channel with no filler source. -/
def firstRoute (s : State) (c : Channel) : SegContent → Option Nat
  | .clip _ _ => none
  | .live x => some x
  | .filler => (s.cfg c).filler

/-- R117: what is handed on of a join plan's first segment: a clip's PLAY to the cue queue, and any other's crosspoint, due at jl. -/
def handedOn (s t : State) (c : Channel) (plan : JoinPlan) (attempt : Nat) : Prop :=
  (∀ clipId media, plan.content = .clip clipId media →
    ∃ q, plan.player = some q ∧ playHeld s t c plan.content plan.start plan.id q attempt)
  ∧ ∀ x, firstRoute s c plan.content = some x → sentOrPending s t ⟨(s.cfg c).destination, plan.start, x, c⟩

/-- R34, R117: the join plan that arming records, and what it hands on: a clip's PLAY, or the crosspoint of a live source or of filler,
and no crosspoint where there is nothing to route. -/
def armedNow (s t : State) (c : Channel) (o : Origin) : Prop :=
  ∃ plan, t.authority c = .armed o plan ∧ plan.start = (s.join c).plan.start ∧ plan.content = (s.join c).plan.content
    ∧ plan.stop = (s.join c).plan.stop ∧ plan.id = (s.join c).plan.id
    ∧ (plan.content.isClip = true → (s.cue c).players.a ≠ .onAir → plan.player = some .A)
    ∧ handedOn s t c plan 1
    ∧ (∀ x, firstRoute s c plan.content = some x → placed s t ⟨(s.cfg c).destination, plan.start, x, c⟩)
    ∧ (firstRoute s c plan.content = none → t.xps.pending = s.xps.pending ∧ t.xps.awaiting = s.xps.awaiting)
    ∧ t.channelFlag .authorityChange c = true ∧ (∀ p, (s.feed p).enabled = true → (t.feed p).tx.sending.isSome)

/-- R143: the segment of a channel that starts at a frame, with its clip on this player, has been withdrawn from cueing: a queued PLAY is
removed; one in transaction is marked withdrawn, and a player CUED for it is not any more; and after its transaction a CANCEL is queued
for the CUED player, which is IDLE. -/
def cueWithdrawn (s t : State) (c : Channel) (q : Player) (start : LocalFrame) : Prop :=
  (s.playQueued c start = true → ∀ x ∈ t.cus.queue, x.isPlayOf c start = false)
  ∧ (∀ k, s.playQueued c start = false → s.cus.txn = some k → k.isPlayOf c start = true →
      t.cus.txn = some { k with withdrawn := true } ∧ t.playerState c q ≠ .cued)
  ∧ (s.playQueued c start = false → (∀ k, s.cus.txn = some k → k.isPlayOf c start = false) → s.playerState c q = .cued →
      t.playerState c q = .idle
      ∧ ∃ x ∈ t.cus.queue, x.action = .cancel ∧ x.channel = c ∧ x.player = q ∧ x.address = ((s.cfg c).players.get q).address
          ∧ x.start = s.cdu.now ∧ x.deadline = s.cdu.now)

/-- R143, R157: no crosspoint of the channel is pending on its destination for a frame. -/
def routeWithdrawn (s t : State) (c : Channel) (start : LocalFrame) : Prop :=
  ∀ x ∈ t.xps.pending, ¬(x.channel = c ∧ x.destination = (s.cfg c).destination ∧ x.due = start)

/-- R143: every planned segment of the channel that meets a test has been withdrawn from cueing, where no other planned segment has its
player. -/
def planWithdrawn (s t : State) (c : Channel) (p : Planned → Prop) : Prop :=
  ∀ g ∈ (s.cue c).planned, p g → ∀ q, g.content.player = some q →
    (∀ y ∈ (s.cue c).planned, y = g ∨ y.content.player ≠ some q) → cueWithdrawn s t c q g.start

/-! ## Chapter 3: the schedule store -/

/-- R76, R77, R79: the sequence number is accepted for the channel without a gap: there is no baseline, or it is the next one. -/
def acceptedNumber (s : State) (c : Channel) (seq : SeqNo) : Prop :=
  s.rpe.baseline[c] = none ∨ s.rpe.baseline[c] = some (seq - 1)

/-- R49: LIST BEGIN discards the channel's next page, with FLIP-MISSED where it carried a flip, and opens a LOADING page with the
values carried, BROKEN from the start where they are out of range. -/
def Obligations.ListBeginOpensALoadingPage : Prop :=
  ∀ (s : State) (p : FeedPort) (n : LocalFrame) (c : Channel) (seq : SeqNo) (serial : BitVec 16) (day : Byte) (count : BitVec 16),
    takesNext s p ⟨n, .replication c seq (.listBegin serial day count)⟩ → acceptedNumber s c seq →
    ∃ t, exec .listBegin s = .next t ∧ frameTaken s t p ∧ t.rpe.baseline[c] = some seq
      ∧ t.pages c = ⟨(s.pages c).active, .loading ⟨day.toNat, serial, count.toNat, [],
          decide (6 < day.toNat ∨ count.toNat = 0 ∨ 1024 < count.toNat), none⟩⟩
      ∧ t.sst.queue = s.sst.queue.filter (· != c)
      ∧ ((s.pages c).next.flip.isSome → t.channelFlag .flipMissed c = true)
      ∧ ((s.pages c).next.flip = none → t.sli.channel[c] = s.sli.channel[c])
      ∧ (∀ k, k ≠ .flipMissed → t.channelFlag k c = s.channelFlag k c)
      ∧ OnlyChanges ([.intake, .engine, .baseline c, .pages c] ++ flagParts c) s t

/-- R44, R191: a record that is well formed, with a HARD start that stage A converts and a duration of 1 to FPD frames. -/
def recordGood (f : Format) (r : EventRecord) : Prop :=
  r.id ≠ 0 ∧ r.startMode.toNat ≤ 1 ∧ r.kind.toNat ≤ 2 ∧ r.policy.toNat ≤ 1 ∧ r.clipId.length ≤ 32
  ∧ (r.startMode = 0 → ∃ x a, r.start = some x ∧ stageA f ⟨x.day.toNat, x.hh.toNat, x.mm.toNat, x.ss.toNat, x.ff.toNat⟩ = some a)
  ∧ (r.kind = 0 → r.clipId ≠ []) ∧ (r.kind = 1 → r.live.isSome)
  ∧ 1 ≤ r.duration.toNat ∧ r.duration.toNat ≤ fpd f

/-- R31, R44, R191: the event that such a record gives on a page of a base day. A HARD one has the label that stage A gives, ADJUSTED or
not, and the relative start of its station frame; a FOLLOW one has neither. Each kind keeps its own fields, an absent trim being 0, and
nothing of its resolution is there yet. -/
def eventOf (f : Format) (day : Nat) (r : EventRecord) (e : Event) : Prop :=
  e.id = r.id ∧ e.duration = r.duration.toNat ∧ e.res = none ∧ e.policy = (if r.policy = 0 then .join else .noJoin)
  ∧ (r.startMode = 0 → ∀ x a, r.start = some x →
      stageA f ⟨x.day.toNat, x.hh.toNat, x.mm.toNat, x.ss.toNat, x.ff.toNat⟩ = some a →
      e.start = .hard a.label (((a.frame : Int) - day * fpd f) % wf f).toNat ∧ e.adjusted = a.adjusted)
  ∧ (r.startMode = 1 → e.start = .follow ∧ e.adjusted = false)
  ∧ (r.kind = 0 → e.kind = .clip r.clipId (match r.trim with | some n => n.toNat | none => 0))
  ∧ (r.kind = 1 → ∀ x, r.live = some x → e.kind = .live x.toNat)
  ∧ (r.kind = 2 → e.kind = .fill)

/-- R44, R45, R50: a record that is well formed with times in their ranges, and no other, gives an event, with its relative start on the
page, its ADJUSTED mark and the fields of its kind. An EVENT whose record passes every check joins the LOADING page at its end; one that
fails a check marks the page BROKEN and is not stored, and one that finds no free pool slot also sets POOL-FULL; a BROKEN page takes no
event. -/
def Obligations.EventJoinsTheLoadingPage : Prop :=
  (∀ (f : Format) (day : Nat) (r : EventRecord),
    (recordGood f r → ∃ e, formEvent f day r = some e ∧ eventOf f day r e) ∧ (¬ recordGood f r → formEvent f day r = none))
  ∧ ∀ (s : State) (p : FeedPort) (n : LocalFrame) (c : Channel) (seq : SeqNo) (r : EventRecord) (g : LoadPage),
    takesNext s p ⟨n, .replication c seq (.event r)⟩ → acceptedNumber s c seq → (s.pages c).next = .loading g →
    ∃ t, exec .event s = .next t ∧ frameTaken s t p ∧ t.rpe.baseline[c] = some seq
      ∧ (t.pages c).active = (s.pages c).active
      ∧ (g.broken = true → t.pages c = s.pages c ∧ OnlyChanges [.intake, .baseline c] s t)
      ∧ (g.broken = false → formEvent s.live.format g.baseDay r = none → (t.pages c).next = .loading { g with broken := true })
      ∧ (g.broken = false → ∀ e, formEvent s.live.format g.baseDay r = some e →
        ((∃ x, e.hardRel = some x ∧ (3 * fpd s.live.format ≤ x
              ∨ ∃ e' y, (g.events.filter Event.isHard).getLast? = some e' ∧ e'.hardRel = some y ∧ x < y))
            ∨ (∃ e' ∈ g.events, e'.id = e.id) ∨ 1024 ≤ g.events.length →
          (t.pages c).next = .loading { g with broken := true } ∧ t.sli.device = s.sli.device)
        ∧ ((∀ x, e.hardRel = some x → x < 3 * fpd s.live.format
              ∧ ∀ e' y, (g.events.filter Event.isHard).getLast? = some e' → e'.hardRel = some y → y ≤ x) →
            (∀ e' ∈ g.events, e'.id ≠ e.id) → g.events.length < 1024 →
          (s.slotsUsed < 6144 → (t.pages c).next = .loading { g with events := g.events ++ [e] } ∧ t.sli.device = s.sli.device)
          ∧ (6144 ≤ s.slotsUsed → (t.pages c).next = .loading { g with broken := true } ∧ t.deviceFlag .poolFull = true)))
      ∧ OnlyChanges ([.intake, .baseline c, .pages c] ++ deviceFlagParts) s t

/-- R51, R52, R59: LIST END puts a page that agrees with it into COMMITTING at the tail of the commit queue, and rejects any other,
with LIST-REJECTED; LIST ABORT discards a LOADING page without it; a discarded page's flip sets FLIP-MISSED. For a channel that is
not LOADING these and EVENT are discarded. -/
def Obligations.ListEndAndAbortCloseTheLoadingPage : Prop :=
  ∀ (s : State) (p : FeedPort) (n : LocalFrame) (c : Channel) (seq : SeqNo), acceptedNumber s c seq →
    (∀ (serial count : BitVec 16) (g : LoadPage), takesNext s p ⟨n, .replication c seq (.listEnd serial count)⟩ →
      (s.pages c).next = .loading g →
      ∃ t, exec .listEnd s = .next t ∧ frameTaken s t p ∧ t.rpe.baseline[c] = some seq
        ∧ (t.pages c).active = (s.pages c).active
        ∧ (g.broken = false → serial = g.serial → count.toNat = g.declared → g.events.length = g.declared →
            (∀ e, g.events.head? = some e → e.isHard = true) →
          (t.pages c).next = .committing g ∧ t.sst.queue = s.sst.queue ++ [c] ∧ t.sli.channel[c] = s.sli.channel[c])
        ∧ (g.broken = true ∨ serial ≠ g.serial ∨ count.toNat ≠ g.declared ∨ g.events.length ≠ count.toNat
              ∨ (∃ e, g.events.head? = some e ∧ e.isHard = false) →
          (t.pages c).next = .empty ∧ t.channelFlag .listRejected c = true
            ∧ (g.flip.isSome → t.channelFlag .flipMissed c = true))
        ∧ OnlyChanges ([.intake, .engine, .baseline c, .pages c] ++ flagParts c) s t)
    ∧ (∀ g : LoadPage, takesNext s p ⟨n, .replication c seq .listAbort⟩ → (s.pages c).next = .loading g →
      ∃ t, exec .listAbort s = .next t ∧ frameTaken s t p ∧ t.rpe.baseline[c] = some seq
        ∧ t.pages c = ⟨(s.pages c).active, .empty⟩ ∧ (g.flip.isSome → t.channelFlag .flipMissed c = true)
        ∧ (∀ k, k ≠ .flipMissed → t.channelFlag k c = s.channelFlag k c)
        ∧ OnlyChanges ([.intake, .engine, .baseline c, .pages c] ++ flagParts c) s t)
    ∧ (∀ b : FeedBody, takesNext s p ⟨n, .replication c seq b⟩ → (∀ g, (s.pages c).next ≠ .loading g) →
      (b = .listAbort ∨ (∃ x y, b = .listEnd x y) ∨ ∃ r, b = .event r) →
      ∃ t, exec (FeedFrame.replication c seq b).kind.command s = .next t ∧ frameTaken s t p ∧ OnlyChanges [.intake, .baseline c] s t)

/-- R57, R26: a FLIP whose time stage A converts is recorded on a next page that is not EMPTY, in any of its states, replacing the one
before; otherwise it is discarded, with FLIP-MISSED. -/
def Obligations.FlipIsRecordedOrMissed : Prop :=
  ∀ (s : State) (p : FeedPort) (n : LocalFrame) (c : Channel) (seq : SeqNo) (x : TimeBytes),
    takesNext s p ⟨n, .replication c seq (.flip x)⟩ → acceptedNumber s c seq →
    (∀ a, stageA s.live.format (labelOf x) = some a → (s.pages c).next ≠ .empty →
      ∃ t, exec .flip s = .next t ∧ frameTaken s t p ∧ t.rpe.baseline[c] = some seq
        ∧ (t.pages c).active = (s.pages c).active ∧ (t.pages c).next.flip = some a.frame
        ∧ (t.pages c).next.events = (s.pages c).next.events ∧ (t.pages c).next.name = (s.pages c).next.name
        ∧ OnlyChanges [.intake, .baseline c, .pages c] s t)
    ∧ (stageA s.live.format (labelOf x) = none ∨ (s.pages c).next = .empty →
      ∃ t, exec .flip s = .next t ∧ frameTaken s t p ∧ t.channelFlag .flipMissed c = true
        ∧ (∀ k, k ≠ .flipMissed → t.channelFlag k c = s.channelFlag k c)
        ∧ OnlyChanges ([.intake, .baseline c] ++ flagParts c) s t)

/-- R76, R78, R80: a replication frame whose number is 2 to 32767 ahead of the baseline is a gap: REPLICA-GAP is set, the active page is
marked BEHIND and a LOADING page BROKEN, before the frame is handled, and the number is accepted. So after a gap a LIST END rejects the
page that was LOADING, an EVENT is not stored, an EDIT and a FLIP leave the page BROKEN, a LIST ABORT discards it, and a LIST BEGIN opens
a page that its own values alone can break. One whose number equals the baseline or is 32768 or more ahead is old: it leaves its queue
and changes nothing else. -/
def Obligations.SequenceNumbersGateFrames : Prop :=
  ∀ (s : State) (p : FeedPort) (n : LocalFrame) (c : Channel) (seq base : SeqNo) (b : FeedBody),
    takesNext s p ⟨n, .replication c seq b⟩ → s.rpe.baseline[c] = some base →
    ((seq - base = 0 ∨ 32768 ≤ (seq - base).toNat) →
      ∃ t, exec (FeedFrame.replication c seq b).kind.command s = .next t ∧ frameTaken s t p ∧ OnlyChanges [.intake] s t)
    ∧ (2 ≤ (seq - base).toNat → (seq - base).toNat ≤ 32767 →
      ∃ t, exec (FeedFrame.replication c seq b).kind.command s = .next t ∧ frameTaken s t p
        ∧ t.rpe.baseline[c] = some seq ∧ t.channelFlag .replicaGap c = true
        ∧ (∀ g, (s.pages c).active = some g → (∀ op, b ≠ .edit op) → (t.pages c).active = some { g with behind := true })
        ∧ (∀ g op, (s.pages c).active = some g → b = .edit op →
            ∃ g', (t.pages c).active = some g' ∧ g'.behind = true ∧ g'.baseDay = g.baseDay ∧ g'.serial = g.serial)
        ∧ (∀ g, (s.pages c).next = .loading g →
            ((∃ r, b = .event r) ∨ (∃ op, b = .edit op) → (t.pages c).next = .loading { g with broken := true })
            ∧ (∀ x, b = .flip x → ∃ f, (t.pages c).next = .loading { g with broken := true, flip := f })
            ∧ (∀ x y, b = .listEnd x y → (t.pages c).next = .empty ∧ t.channelFlag .listRejected c = true)
            ∧ (b = .listAbort → (t.pages c).next = .empty))
        ∧ (∀ serial day count, b = .listBegin serial day count →
            (t.pages c).next = .loading ⟨day.toNat, serial, count.toNat, [],
              decide (6 < day.toNat ∨ count.toNat = 0 ∨ 1024 < count.toNat), none⟩))


/-- R55: the effective start of an event, from the effective end of the event before it. -/
def startsAt (before : Nat) (e : Event) (start : Nat) : Prop :=
  (∀ h, e.hardRel = some h → start = h) ∧ (e.hardRel = none → start = before)

/-- R55: the effective duration of an event, and its TRUNCATED mark, under its limit: the start of the first HARD event after it. -/
def lastsFor (e : Event) (after : List Event) (start dur : Nat) (truncated : Bool) : Prop :=
  ((∀ x ∈ after, x.hardRel = none) → dur = e.duration ∧ truncated = false)
  ∧ ∀ pre x post limit, after = pre ++ x :: post → (∀ y ∈ pre, y.hardRel = none) → x.hardRel = some limit →
    (start + e.duration ≤ limit → dur = e.duration ∧ truncated = false)
    ∧ (limit < start + e.duration → dur = limit - start ∧ truncated = true)

/-- R55, in its own words: a walk from an effective end over a list leaves these events and removes this many. -/
inductive Walk : Nat → List Event → List Event → Nat → Prop where
  | done (before : Nat) : Walk before [] [] 0
  | keep (before : Nat) (e : Event) (es rs : List Event) (n start dur : Nat) (truncated : Bool) (hs : startsAt before e start)
    (hd : lastsFor e es start dur truncated) (hp : dur ≠ 0) (hw : Walk (start + dur) es rs n) :
    Walk before (e :: es) ({ e with res := some ⟨start, dur, truncated⟩ } :: rs) n
  | remove (before : Nat) (e : Event) (es rs : List Event) (n start : Nat) (truncated : Bool) (hs : startsAt before e start)
    (hd : lastsFor e es start 0 truncated) (hw : Walk start es rs n) : Walk before (e :: es) rs (n + 1)

/-- R55: resolution is the walk over the list, in order: a HARD event starts at its own start and a FOLLOW event at the effective end of
the one before it, each lasts its duration or to the start of the next HARD event, TRUNCATED, and one left with no length is removed and
counted. Where the HARD starts of the list do not fall, the events that remain keep the list's order and do not overlap, and each is at
least one frame long. -/
def Obligations.ResolutionKeepsEventsApart : Prop :=
  (∀ (before : Nat) (es : List Event), Walk before es (resolveFrom before es).1 (resolveFrom before es).2)
  ∧ ∀ es : List Event, hardsInOrder es = true →
    let r := resolveFrom 0 es
    r.1.length + r.2 = es.length
    ∧ (r.1.map fun e => { e with res := none }).Sublist (es.map fun e => { e with res := none })
    ∧ (∀ e ∈ r.1, ∃ x, e.res = some x ∧ 1 ≤ x.dur ∧ x.dur ≤ e.duration ∧ (x.truncated = true ↔ x.dur < e.duration)
        ∧ ∀ h, e.hardRel = some h → x.start = h)
    ∧ r.1.Pairwise (fun e e' => ∀ x y, e.res = some x → e'.res = some y → x.start + x.dur ≤ y.start)

/-- R53, R55, R56, R86: a commit begins at a frame start that finds the engine idle and the queue not empty, takes the channel at its
head and runs for ⌈N/256⌉ frames. At its end the page is resolved: it becomes READY where every effective start is within the span,
and otherwise it is discarded with LIST-REJECTED; the engine is idle again. -/
def Obligations.CommitRunsAndResolves : Prop :=
  ∀ s : State, s.power = .running →
    (∀ (c : Channel) (q : List Channel), s.sst.engine = .idle → s.sst.startDue = true → s.sst.queue = c :: q →
      ∃ t, exec .commitStart s = .next t ∧ t.sst.engine = .committing c (((s.pages c).next.events.length + 255) / 256)
        ∧ t.sst.queue = q ∧ (∀ d, t.pages d = s.pages d) ∧ OnlyChanges [.engine, .reports] s t)
    ∧ (∀ (c : Channel) (g : LoadPage), s.sst.engine = .committing c 0 → (s.pages c).next = .committing g →
      ∃ t, exec .commitEnd s = .next t ∧ t.sst.engine = .idle ∧ (t.pages c).active = (s.pages c).active
        ∧ ((∀ e ∈ (resolveFrom 0 g.events).1, ∀ r, e.res = some r → r.start < 3 * fpd s.live.format) →
          (t.pages c).next = .ready ⟨g.baseDay, g.serial, (resolveFrom 0 g.events).1, min 65535 (resolveFrom 0 g.events).2, g.flip⟩
            ∧ t.sst.queue = s.sst.queue ∧ OnlyChanges [.engine, .reports, .pages c] s t)
        ∧ ((∃ e ∈ (resolveFrom 0 g.events).1, ∃ r, e.res = some r ∧ 3 * fpd s.live.format ≤ r.start) →
          (t.pages c).next = .empty ∧ t.channelFlag .listRejected c = true ∧ (g.flip.isSome → t.channelFlag .flipMissed c = true))
        ∧ OnlyChanges ([.engine, .reports, .pages c] ++ flagParts c) s t)

/-- The command that takes an edit, with the frame that carries it. -/
def editCommand : EditOp → Instr
  | .insertAfter _ _ => .insertAfter
  | .replace _ _ => .replace
  | .delete _ => .delete

/-- R61: an edit of a page whose events stand around its place, with the edited list and its edit point. -/
inductive EditOf (f : Format) (page : Page) : EditOp → Edited → Prop where
  | insertHead (r : EventRecord) (e : Event) (he : formEvent f page.baseDay r = some e) :
    EditOf f page (.insertAfter 0 r) ⟨e :: page.events, 0⟩
  | insertAfter (r : EventRecord) (e at' : Event) (pre post : List Event) (he : formEvent f page.baseDay r = some e)
    (hp : page.events = pre ++ at' :: post) (hn : ∀ x ∈ pre, x.id ≠ at'.id) (h0 : at'.id ≠ 0) :
    EditOf f page (.insertAfter at'.id r) ⟨pre ++ at' :: e :: post, pre.length + 1⟩
  | replace (r : EventRecord) (e at' : Event) (pre post : List Event) (he : formEvent f page.baseDay r = some e)
    (hp : page.events = pre ++ at' :: post) (hn : ∀ x ∈ pre, x.id ≠ at'.id) :
    EditOf f page (.replace at'.id r) ⟨pre ++ e :: post, pre.length⟩
  | delete (at' : Event) (pre post : List Event) (hp : page.events = pre ++ at' :: post) (hn : ∀ x ∈ pre, x.id ≠ at'.id) :
    EditOf f page (.delete at'.id) ⟨pre ++ post, pre.length⟩

/-- R63: an event is locked: it is that of the join plan's first segment or of the segment on air, an entry of the channel is queued or
in transaction for it, or it is that of a planned clip whose player is CUED. -/
def lockedEvent (s : State) (c : Channel) (id : EventId) : Prop :=
  (∃ o g, s.authority c = .armed o g ∧ g.id = id) ∨ (∃ a, (s.authority c).air = some a ∧ a.id = id)
  ∨ (∃ x, (x ∈ s.cus.queue ∨ ∃ k, s.cus.txn = some k ∧ k.entry = x) ∧ x.channel = c
      ∧ ∃ clipId media n, x.action = .play clipId media n id)
  ∨ ∃ g ∈ (s.cue c).planned, g.id = id ∧ ∃ q, g.content.player = some q ∧ s.playerState c q = .cued

/-- R63: an edit deletes or replaces an event of the page, removes it, or moves its effective start or end. The event is looked for among
those that the page had: a new record that repeats its id is another event, and has id 0 in `newApart`. -/
def disturbedBy (page : Page) (op : EditOp) (x : Edited) (id : EventId) : Prop :=
  (∃ e ∈ page.events, e.id = id) ∧ (op.target = some id ∨ extentOf (x.newApart op).resolved.1 id ≠ extentOf page.events id)

/-- R149: what CUS does when an edit has been applied to the active page of a channel. Off STANDBY, nothing. In STANDBY the last planned
segment is planned again where it is no clip, by a boundary lookup at the end of the segment before it; a planned clip, and a segment on
air with nothing planned after it, stay. Exhausted filler with no end has a fresh join, at whose frame it ends, unless that too is
exhausted. -/
def replanned (s t : State) (c : Channel) (page : Page) : Prop :=
  let u : State := s.putPages c ⟨some page, (s.pages c).next⟩
  let stays : Prop := t.authority c = s.authority c ∧ t.cue c = s.cue c
  ((∀ a, s.authority c ≠ .standby a) → stays)
  ∧ ∀ a, s.authority c = .standby a →
    let exhausted : Prop := (s.cue c).exhausted = true ∧ a.stop = none ∧ (a.kind = .gap ∨ a.kind = .fill)
    (¬ exhausted →
      ((s.cue c).planned = [] → stays)
      ∧ ∀ pre seg, (s.cue c).planned = pre ++ [seg] →
        (seg.content.player.isSome → stays)
        ∧ ∀ e y, seg.content.player = none → (match pre.getLast? with | some b => b.stop | none => a.stop) = some e →
          u.lookupPlace c e = some y →
          ∃ g, (t.cue c).planned = pre ++ [g] ∧ lookedUp s t c e y g ∧ t.authority c = s.authority c)
    ∧ (exhausted → (s.cue c).planned = [] →
      let j := u.join c
      (j.plan.stop = none →
        t.authority c = s.authority c ∧ (t.cue c).planned = [] ∧ t.channelFlag .listExhausted c = true
          ∧ t.xps.pending = s.xps.pending)
      ∧ (j.plan.stop.isSome →
        t.authority c = .standby { a with stop := some j.plan.start } ∧ ∃ g, (t.cue c).planned = [g] ∧ joinPlanned s t c j g))

/-- R61 to R63, R149: what an edit of a channel off MAIN does as it completes. One that disturbs a locked event is refused with
EDIT-LOCKED, and one that cannot stand without it; each marks the page DIVERGED. Any other is applied, and the plan is reviewed. -/
def completedOffMain (s t : State) (c : Channel) (page : Page) (op : EditOp) (x : Edited) : Prop :=
  let disturbs : Prop := ∃ id, lockedEvent s c id ∧ disturbedBy page op x id
  let fits : Prop := x.stands s.live.format = true ∧ (op.takesSlot = true → s.slotsUsed < 6144)
  let edited : Page := { page with events := x.resolved.1, dropped := min 65535 (page.dropped + x.resolved.2) }
  (disturbs ∨ ¬ fits → t.pages c = { s.pages c with active := some { page with diverged := true } }
    ∧ t.channelFlag .diverged c = true ∧ t.authority c = s.authority c ∧ t.cue c = s.cue c)
  ∧ (disturbs → t.channelFlag .editLocked c = true)
  ∧ (¬ disturbs → t.channelFlag .editLocked c = s.channelFlag .editLocked c)
  ∧ (¬ disturbs → fits → t.pages c = { s.pages c with active := some edited }
    ∧ t.channelFlag .diverged c = s.channelFlag .diverged c ∧ replanned s t c edited)

/-- R61, R62, R64, on a channel in MAIN, where nothing is locked: an edit (INSERT_AFTER, REPLACE or DELETE) of at most 256 re-resolved
events completes as it is taken, and a longer one occupies the engine for ⌈R/256⌉ − 1 frame starts and completes by EDIT_COMPLETE. It is
applied where the edited list can stand and an insertion finds a free slot; otherwise the events stay as they were, and the page and the
flag DIVERGED are set. (POOL-FULL is set also where another case refuses the edit: log 19, DEDUCED.) R62, in every authority: an edit of
an EMPTY active page, one that names an id that is not in the page, and one whose record is malformed or fails as BAD-TIME are refused in
the same way. R63, R149, off MAIN, in one frame or by EDIT_COMPLETE: an edit that disturbs a locked event is refused, with EDIT-LOCKED;
one that disturbs none is applied as in MAIN, and the plan of a STANDBY channel is then reviewed. -/
def Obligations.EditsApplyOrDiverge : Prop :=
  (∀ (s : State) (c : Channel) (page : Page) (op : EditOp) (x : Edited), s.isMain c = true → (s.pages c).active = some page →
    EditOf s.live.format page op x →
    let fits : Prop := x.stands s.live.format = true ∧ (op.takesSlot = true → s.slotsUsed < 6144)
    let applied (t : State) : Prop :=
      (fits → (t.pages c).active = some { page with events := x.resolved.1, dropped := min 65535 (page.dropped + x.resolved.2) }
          ∧ t.sli = s.sli)
      ∧ (¬ fits → (t.pages c).active = some { page with diverged := true } ∧ t.channelFlag .diverged c = true
          ∧ (op.takesSlot = true → 6144 ≤ s.slotsUsed → t.deviceFlag .poolFull = true))
      ∧ (t.pages c).next = (s.pages c).next
    (∀ (p : FeedPort) (n : LocalFrame) (seq : SeqNo), takesNext s p ⟨n, .replication c seq (.edit op)⟩ → acceptedNumber s c seq →
      ∃ t, exec (editCommand op) s = .next t ∧ frameTaken s t p ∧ t.rpe.baseline[c] = some seq
        ∧ (x.count ≤ 256 → applied t ∧ t.sst.engine = .idle
            ∧ OnlyChanges ([.intake, .baseline c, .pages c] ++ deviceFlagParts ++ flagParts c) s t)
        ∧ (256 < x.count → t.sst.engine = .editing c op ((x.count + 255) / 256 - 1)
            ∧ OnlyChanges [.intake, .baseline c, .engine, .reports] s t))
    ∧ (s.power = .running → s.sst.engine = .editing c op 0 →
      ∃ t, exec .editComplete s = .next t ∧ applied t ∧ t.sst.engine = .idle
        ∧ OnlyChanges ([.engine, .reports, .pages c] ++ deviceFlagParts ++ flagParts c) s t))
  ∧ (∀ (s : State) (c : Channel) (op : EditOp) (p : FeedPort) (n : LocalFrame) (seq : SeqNo),
    takesNext s p ⟨n, .replication c seq (.edit op)⟩ → acceptedNumber s c seq →
    ((s.pages c).active = none →
      ∃ t, exec (editCommand op) s = .next t ∧ frameTaken s t p ∧ t.rpe.baseline[c] = some seq ∧ t.pages c = s.pages c
        ∧ t.channelFlag .diverged c = true ∧ OnlyChanges ([.intake, .baseline c] ++ flagParts c) s t)
    ∧ (∀ page, (s.pages c).active = some page →
      (∃ id, (op.target = some id ∨ id ≠ 0 ∧ ∃ r, op = .insertAfter id r) ∧ ∀ e ∈ page.events, e.id ≠ id)
          ∨ (∃ id r, (op = .insertAfter id r ∨ op = .replace id r) ∧ formEvent s.live.format page.baseDay r = none) →
        ∃ t, exec (editCommand op) s = .next t ∧ frameTaken s t p ∧ t.rpe.baseline[c] = some seq
          ∧ t.pages c = { s.pages c with active := some { page with diverged := true } }
          ∧ t.channelFlag .diverged c = true ∧ OnlyChanges ([.intake, .baseline c, .pages c] ++ flagParts c) s t))
  ∧ ∀ (s : State) (c : Channel) (page : Page) (op : EditOp) (x : Edited), s.isMain c = false → (s.pages c).active = some page →
    EditOf s.live.format page op x →
    (∀ (p : FeedPort) (n : LocalFrame) (seq : SeqNo), takesNext s p ⟨n, .replication c seq (.edit op)⟩ → acceptedNumber s c seq →
      ∃ t, exec (editCommand op) s = .next t ∧ frameTaken s t p ∧ t.rpe.baseline[c] = some seq
        ∧ (x.count ≤ 256 → completedOffMain s t c page op x ∧ t.sst.engine = .idle
            ∧ OnlyChanges ([.intake, .baseline c, .pages c] ++ deviceFlagParts ++ cueParts c) s t)
        ∧ (256 < x.count → t.sst.engine = .editing c op ((x.count + 255) / 256 - 1)
            ∧ OnlyChanges [.intake, .baseline c, .engine, .reports] s t))
    ∧ (s.power = .running → s.sst.engine = .editing c op 0 →
      ∃ t, exec .editComplete s = .next t ∧ completedOffMain s t c page op x ∧ t.sst.engine = .idle
        ∧ OnlyChanges ([.engine, .reports, .pages c] ++ deviceFlagParts ++ cueParts c) s t)


/-- R147: the PLAY of the clip that starts at a frame has not been sent: it is in the queue, or in transaction, not marked withdrawn, and
still being sent. -/
def unsentPlay (s : State) (c : Channel) (start : LocalFrame) : Prop :=
  let its (x : CueEntry) : Prop := x.channel = c ∧ x.start = start ∧ ∃ clipId media n i, x.action = .play clipId media n i
  (∃ x ∈ s.cus.queue, its x) ∨ ∃ k b, s.cus.txn = some k ∧ k.withdrawn = false ∧ k.phase = .sending b ∧ its k.entry

/-- R150: after the flip of a STANDBY channel at a boundary the plan is the first segment of a join on the new page, whose pair is the
anchor, at the end of the segment on air, or behind a bridge from that end, whose crosspoint is placed. R150 gives the bridge no kind: that
it is GAP with event id 0 is the model's reading (log 29, DEDUCED). -/
def planOnNewPage (s t : State) (c : Channel) : Prop :=
  ∃ first rj air, t.authority c = .standby air ∧ (t.cue c).anchor = some (first.start, rj)
    ∧ ((t.cue c).planned = [first] ∧ air.stop = some first.start
      ∨ ∃ bridge, (t.cue c).planned = [bridge, first] ∧ bridge.content = .gap ∧ bridge.id = 0 ∧ air.stop = some bridge.start
          ∧ bridge.stop = some first.start ∧ 2147483648 < (bridge.start - first.start).toNat
          ∧ segmentRouted s t c bridge air.source)

/-- R58, R48, R60, R150: at a switch-window event at which station now has reached the flip time of a READY page, with an offset that is not
UNSET, a channel in MAIN or HELD flips: the READY page becomes the active page with clear marks, and the next page is EMPTY; on a HELD
channel the anchor becomes none. A STANDBY or a RETURNING channel flips at a boundary: at the end frame of the segment on air, at this
event where that segment has no end, and at an event at which a planned segment has been started, which `boundary` marks (R60, R150;
that these three are the boundaries is log 22, DEDUCED); a STANDBY channel then has a fresh join on the new page in its plan, behind a bridge
where the segment on air ends earlier (R150). A planned segment whose PLAY has not been sent at its start is late (R147), and the filler
in its place is on air up to the join's frame. That the bridge is GAP with event id 0, and that such filler is itself the bridge, is the
model's reading of R150, which gives neither (log 29, DEDUCED). Away from a boundary
the flip waits, in ARMED until the end frame of the join plan's first segment. With the offset UNSET, or before the flip time, nothing
happens. -/
def Obligations.FlipSwapsThePages : Prop :=
  ∀ (s : State) (c : Channel) (g : ReadyPage) (f : Nat), s.power = .running → s.cdu.windowEvent = true →
    (s.pages c).next = .ready g → g.flip = some f →
    let swapped (t : State) : Prop := t.pages c = ⟨some ⟨g.baseDay, g.serial, g.events, g.dropped, false, false⟩, .empty⟩
    (s.stc.state ≠ .unset → 2 * stationDiff s.format s.stationNow f ≤ wf s.format →
      (s.isMain c = true →
        ∃ t, exec (.flipPerform c) s = .next t ∧ swapped t
          ∧ ((∀ op k, s.sst.engine ≠ .editing c op k) → OnlyChanges [.pages c] s t)
          ∧ OnlyChanges [.pages c, .engine, .reports] s t)
      ∧ (∀ p a, s.authority c = .held p a →
        ∃ t, exec (.flipPerform c) s = .next t ∧ swapped t ∧ t.cue c = { s.cue c with anchor := none }
          ∧ OnlyChanges [.pages c, .engine, .reports, .plan c] s t)
      ∧ (∀ a, s.authority c = .standby a → (a.stop = none ∨ a.stop = some s.cdu.now ∨ (s.cue c).boundary = true) →
        ∃ t, exec (.flipPerform c) s = .next t ∧ swapped t ∧ planOnNewPage s t c
          ∧ ((s.cue c).planned = [] →
            let j := State.join (s.putPages c (t.pages c)) c
            ∃ g, (t.cue c).planned.getLast? = some g ∧ joinPlanned s t c j g)
          ∧ (∀ seg rest, (s.cue c).planned = seg :: rest → seg.start = s.cdu.now →
            (seg.content.player.isSome → unsentPlay s c seg.start →
              t.channelFlag .cueLate c = true ∧ ∃ first, (t.cue c).planned = [first]
                ∧ t.authority c = .standby ⟨.fill, seg.id, (s.cfg c).filler, none, some first.start, seg.start⟩)
            ∧ (seg.content.player = none ∨ ¬ unsentPlay s c seg.start →
              ∃ e, t.authority c = .standby { airOfPlanned s c seg with stop := some e }))
          ∧ OnlyChanges ([.pages c, .engine, .reports] ++ authorityParts c) s t)
      ∧ (∀ pr m point a, s.authority c = .returning pr m point a →
          (a.stop = none ∨ a.stop = some s.cdu.now ∨ (s.cue c).boundary = true) →
        ∃ t, exec (.flipPerform c) s = .next t ∧ swapped t ∧ t.cue c = { s.cue c with anchor := none }
          ∧ OnlyChanges [.pages c, .engine, .reports, .plan c] s t)
      ∧ (∀ a e, (s.authority c = .standby a ∨ ∃ pr m point, s.authority c = .returning pr m point a) → a.stop = some e →
          e ≠ s.cdu.now → (s.cue c).boundary = false → exec (.flipPerform c) s = .next s)
      ∧ (∀ o plan, s.authority c = .armed o plan →
        (∀ e, plan.stop = some e → e ≠ s.cdu.now → exec (.flipPerform c) s = .next s)
        ∧ (plan.stop = none → 2147483648 < (s.cdu.now - plan.start).toNat → exec (.flipPerform c) s = .next s)
        ∧ (plan.stop = none → plan.start = s.cdu.now → ∃ t, exec (.flipPerform c) s = .next t ∧ swapped t
            ∧ (t.authority c).name = .standby)))
    ∧ (s.stc.state = .unset ∨ wf s.format < 2 * stationDiff s.format s.stationNow f →
      exec (.flipPerform c) s = .next s)


/-! ## Chapter 4: the replication feed -/

/-- R93, R105 to R107: a channel has been evaluated with this Link state, from this latest air report: where it is heard and enabled its
health is that of its evaluated class, with HEALTH-CHANGE set where it moved and CONFIRM loaded on entry to FAILING; its presence and what
the scanner keeps of it stay. -/
def evaluatedAt (s t : State) (c : Channel) (link : Bool) (air : Option AirReport) : Prop :=
  let k := s.watched c
  let h := if k.heard = true ∧ (s.cfg c).enabled = true then (classOf link air k.presence).health k.health else k.health
  (t.watched c).health = h
  ∧ (t.watched c).confirm = (if h = k.health then k.confirm else if h = .failing then (s.cfg c).confirm else 0)
  ∧ (h ≠ k.health → t.channelFlag .healthChange c = true)
  ∧ (t.watched c).presence = k.presence ∧ (t.watched c).run = k.run ∧ (t.watched c).lastCount = k.lastCount
  ∧ (t.watched c).heard = k.heard

/-- R69, R70, R71, R75, R189: a frame that completes on a disabled port is discarded; on an enabled port one that fails its check or its
form is discarded with FEED-CHECK, and one that passes joins the queue with its arrival frame where fewer than two wait, and is
discarded with FEED-OVERRUN where two do. A heartbeat gives heartbeat seen in either case; R93: where that brings Link UP every channel is
evaluated, with its latest air report as it stands, and where Link is UP already none is. A frame of which no byte has come from one
frame start to the next is abandoned, with FEED-CHECK on an enabled feed port and no flag on another line; a site frame that fails its
check is discarded (R164). -/
def Obligations.CompletedFramesAreQueued : Prop :=
  (∀ (s : State) (p : FeedPort) (ty : Byte) (body : List Byte) (check : BitVec 16), s.power = .running →
    ((s.feed p).enabled = false →
      ∃ t, exec (.feedFrameCompletion p ty body check) s = .next t ∧ t.rx = s.rx.put (feedLine p) .waiting
        ∧ OnlyChanges [.rx] s t)
    ∧ ((s.feed p).enabled = true → (512 < body.length ∨ check ≠ frameCheck ty body ∨ feedFrame ty body = none) →
      ∃ t, exec (.feedFrameCompletion p ty body check) s = .next t ∧ t.rx = s.rx.put (feedLine p) .waiting
        ∧ t.deviceFlag (.feedCheck p) = true ∧ (∀ k, k ≠ .feedCheck p → t.deviceFlag k = s.deviceFlag k)
        ∧ OnlyChanges (.rx :: deviceFlagParts) s t)
    ∧ ∀ x, (s.feed p).enabled = true → body.length ≤ 512 → check = frameCheck ty body → feedFrame ty body = some x →
      ∃ t, exec (.feedFrameCompletion p ty body check) s = .next t ∧ t.rx = s.rx.put (feedLine p) .waiting
        ∧ ((s.feed p).queue.length < 2 → (t.feed p).queue = (s.feed p).queue ++ [⟨s.cdu.now, x⟩] ∧ t.sli.device = s.sli.device)
        ∧ (2 ≤ (s.feed p).queue.length → (t.feed p).queue = (s.feed p).queue ∧ t.deviceFlag (.feedOverrun p) = true)
        ∧ ((∃ h, x = .heartbeat h) → t.sup.watch.get p = ⟨true, s.live.hbTimeout⟩)
        ∧ ((∀ h, x ≠ .heartbeat h) → t.sup = s.sup)
        ∧ ((∃ h, x = .heartbeat h) → (s.sup.watch.get p).live = false → (s.sup.watch.get p.other).live = false →
            ∀ c, evaluatedAt s t c true (s.watched c).latestAir ∧ (t.watched c).latestAir = (s.watched c).latestAir
              ∧ (t.watched c).latestResume = (s.watched c).latestResume)
        ∧ ((s.sup.watch.get p).live = true ∨ (s.sup.watch.get p.other).live = true →
            OnlyChanges ([.rx, .intake, .watch] ++ deviceFlagParts) s t)
        ∧ t.rpe.baseline = s.rpe.baseline ∧ t.sst.pages = s.sst.pages ∧ t.stc = s.stc)
  ∧ ∀ s : State, s.power = .running →
    (∀ (p : FeedPort) (bs : List Byte) (f : Bool), s.rx.get (feedLine p) = .gathering bs f true →
      ∃ t, exec (.partialFrameAbandon (feedLine p)) s = .next t ∧ t.rx = s.rx.put (feedLine p) .waiting
        ∧ ((s.feed p).enabled = true → t.deviceFlag (.feedCheck p) = true)
        ∧ ((s.feed p).enabled = false → t.sli = s.sli)
        ∧ OnlyChanges (.rx :: deviceFlagParts) s t)
    ∧ (∀ l ∈ [LineId.sa, .sb, .ml, .xl], ∀ (bs : List Byte) (f : Bool), s.rx.get l = .gathering bs f true →
      exec (.partialFrameAbandon l) s = .next { s with rx := s.rx.put l .waiting })
    ∧ (∀ p : SitePort, exec (.siteFrameCheckFail p) s = .next { s with rx := s.rx.put (siteLine p) .waiting })

/-- R86, R87, R88: the report timer that has run out is reloaded with 25, and a report of the state as it stands is placed on each
enabled port: it begins at once where none is being sent, and otherwise takes the waiting place. At the end of a transmission the
waiting report begins. -/
def Obligations.ReportsAreFormedAndSent : Prop :=
  ∀ s : State, s.power = .running →
    (s.rpe.reportTimer = 0 →
      ∃ t r, exec .reportTimerExpiry s = .next t ∧ t.rpe.reportTimer = 25
        ∧ (r.commitBusy = true ↔ s.sst.engine ≠ .idle)
        ∧ (∀ c : Channel, r.items[c] = ⟨(s.authority c).name, (s.authority c).reportedEvent, (s.pages c).next.name, s.rpe.baseline[c]⟩)
        ∧ (∀ p, (s.feed p).enabled = true → (s.feed p).tx.sending = none →
            (t.feed p).tx = ⟨some r, (s.feed p).tx.waiting⟩)
        ∧ (∀ p x, (s.feed p).enabled = true → (s.feed p).tx.sending = some x → (t.feed p).tx = ⟨some x, some r⟩)
        ∧ (∀ p, (s.feed p).enabled = false → (t.feed p).tx = (s.feed p).tx)
        ∧ OnlyChanges [.reportTimer, .reports] s t)
    ∧ (∀ p x, (s.feed p).tx.sending = some x →
      ∃ t, exec (.reportTransmitEnd p) s = .next t ∧ (t.feed p).tx = ⟨(s.feed p).tx.waiting, none⟩
        ∧ t.feed p.other = s.feed p.other ∧ OnlyChanges [.reports] s t)

/-! ## Chapter 5: supervision -/

/-- R91, R93, R19, R166: a LIVE port whose timer has run out becomes SILENT with its flag. Where that makes Link DOWN, the Station Clock
goes from LOCKED to HOLDOVER, every latest air report and RESUME-READY is cleared, and every channel is evaluated with Link DOWN; where
the other feed port is LIVE nothing more happens. -/
def Obligations.ExpiredTimersSilenceAPort : Prop :=
  ∀ s : State, s.power = .running →
    (∀ p : FeedPort, s.sup.watch.get p = ⟨true, 0⟩ → (s.sup.watch.get p.other).live = true →
      ∃ t, exec (.feedWatchExpiry p) s = .next t ∧ t.sup.watch.get p = ⟨false, 0⟩
        ∧ t.sup.watch.get p.other = s.sup.watch.get p.other ∧ t.deviceFlag (.feedSilent p) = true
        ∧ (∀ k, k ≠ .feedSilent p → t.deviceFlag k = s.deviceFlag k) ∧ OnlyChanges (.watch :: deviceFlagParts) s t)
    ∧ (∀ p : FeedPort, s.sup.watch.get p = ⟨true, 0⟩ → (s.sup.watch.get p.other).live = false →
      ∃ t, exec (.feedWatchExpiry p) s = .next t ∧ t.sup.watch.get p = ⟨false, 0⟩ ∧ t.deviceFlag (.feedSilent p) = true
        ∧ t.stc = (if s.stc.state = .locked then { s.stc with state := .holdover } else s.stc)
        ∧ (∀ c, (t.watched c).latestAir = none ∧ (t.watched c).latestResume = none ∧ evaluatedAt s t c false none)
        ∧ OnlyChanges (Instr.feedWatchExpiry p).reach s t)
    ∧ (∀ p : SitePort, (s.site p).live = true → (s.site p).timer = 0 →
      ∃ t, exec (.siteSilenceExpiry p) s = .next t
        ∧ (t.site p).withoutPairs = { (s.site p).withoutPairs with live := false, timer := 0 }
        ∧ t.deviceFlag (.siteSilent p) = true
        ∧ (∀ c a, s.authority c = .held p a → (t.authority c).name = .armed ∧ t.channelFlag .holdLapsed c = true)
        ∧ (∀ c, (∀ a, s.authority c ≠ .held p a) → t.authority c = s.authority c ∧ t.sli.channel[c] = s.sli.channel[c])
        ∧ OnlyChanges (Instr.siteSilenceExpiry p).reach s t)

/-- R100, R101, R105: a channel's sample has been formed from a count, and applied: the count is the last count, the channel is heard, the
presence state and the run are as the comparison of the count with T moves them, and health is that of an evaluation where an input has
changed or the channel has become heard, for a channel that is enabled. -/
def sampled (s t : State) (c : Channel) (n : Nat) : Prop :=
  let k := s.watched c
  let x := afterSample (s.cfg c).absenceCount k.presence k.run (decide ((s.cfg c).threshold ≤ n))
  (t.watched c).lastCount = some n ∧ (t.watched c).heard = true ∧ (t.watched c).presence = x.1 ∧ (t.watched c).run = x.2
  ∧ (t.watched c).health = (if (s.cfg c).enabled = true ∧ (k.heard = false ∨ x.1 ≠ k.presence) then
      (classOf s.linkUp k.latestAir x.1).health k.health else k.health)

/-- R95, R97, R98, R99, R100, R101, R102: in an open window with lines to come a pulse in a gated line adds one to the count of the channel being
counted, up to 65535, and one in another line adds none. A sweep's first window opens with its counts at 0, for the lowest masked
channel or for all of them. The end of a sequential window keeps its count as the channel's last count; the next masked channel's
window opens, and after the last one the sweep ends with SCAN-DONE. The end of a parallel window gives every masked channel its count
and ends the sweep. At the end of a window its count is compared with T, and the sample is applied to the presence state and its run. -/
def Obligations.ScannerCountsAndSweeps : Prop :=
  ∀ s : State, s.power = .running →
    (∀ (c : Channel) (line g n : Nat), s.sup.scan = .sequential c g n → g < 2 ^ s.live.scanResolution →
      gateFirst s.cdu.frame.lines ≤ line → line ≤ s.cdu.frame.lines →
      exec (.presencePulse c line) s = .next { s with sup := { s.sup with scan := .sequential c g (min 65535 (n + 1)) } })
    ∧ (∀ (c : Channel) (line g : Nat) (ns : PerChannel Nat), s.sup.scan = .parallel g ns → g < 2 ^ s.live.scanResolution →
      s.live.scanMask.getLsbD c.val = true → gateFirst s.cdu.frame.lines ≤ line → line ≤ s.cdu.frame.lines →
      exec (.presencePulse c line) s
        = .next { s with sup := { s.sup with scan := .parallel g (PerChannel.put ns c (min 65535 (ns[c] + 1))) } })
    ∧ (∀ (c d : Channel) (line g n : Nat), s.sup.scan = .sequential d g n → d ≠ c → exec (.presencePulse c line) s = .next s)
    ∧ (∀ (c : Channel) (line : Nat), line < gateFirst s.cdu.frame.lines ∨ s.cdu.frame.lines < line →
      exec (.presencePulse c line) s = .next s)
    ∧ (s.sup.scan = .starting true → s.live.scanMode = .parallel →
      exec .sweepStart s = .next { s with sup := { s.sup with scan := .parallel 0 (PerChannel.same 0) } })
    ∧ (∀ c : Channel, s.sup.scan = .starting true → s.live.scanMode = .sequential → s.live.scanMask.getLsbD c.val = true →
      (∀ d : Channel, d < c → s.live.scanMask.getLsbD d.val = false) →
      exec .sweepStart s = .next { s with sup := { s.sup with scan := .sequential c 0 0 } })
    ∧ (∀ (c : Channel) (g n : Nat), s.sup.scan = .sequential c g n →
      ∃ t, exec .windowEnd s = .next t ∧ sampled s t c n
        ∧ (∀ d : Channel, c < d → s.live.scanMask.getLsbD d.val = true →
            (∀ e : Channel, c < e → e < d → s.live.scanMask.getLsbD e.val = false) → t.sup.scan = .sequential d 0 0)
        ∧ ((∀ d : Channel, c < d → s.live.scanMask.getLsbD d.val = false) →
            t.deviceFlag .scanDone = true ∧ t.sup.scan = (if s.live.scanRepeat then .starting false else .idle))
        ∧ (∀ d, d ≠ c → t.watched d = s.watched d) ∧ OnlyChanges Instr.windowEnd.reach s t)
    ∧ (∀ (g : Nat) (ns : PerChannel Nat), s.sup.scan = .parallel g ns →
      ∃ t, exec .windowEnd s = .next t ∧ t.deviceFlag .scanDone = true
        ∧ t.sup.scan = (if s.live.scanRepeat then .starting false else .idle)
        ∧ (∀ c : Channel, s.live.scanMask.getLsbD c.val = true → sampled s t c ns[c])
        ∧ (∀ c : Channel, s.live.scanMask.getLsbD c.val = false → t.watched c = s.watched c)
        ∧ OnlyChanges Instr.windowEnd.reach s t)

/-- R101: the presence state and the run after a sample: one that agrees clears the run; one that differs goes on with its run or begins
one, and at the absence count A moves the presence state. R105 to R109, R118, R161: the evaluated class of every combination of inputs;
how health and the confirm timer move after an evaluation, which a channel that is not heard or is disabled has none of;
and CONFIRM_EXPIRY, by which a FAILING channel whose
confirm timer has run out becomes FAILED with HEALTH-CHANGE and ALM active, and, in MAIN with policy AUTO, is armed if it is ready and
has TAKEOVER-BLOCKED set if it is not. -/
def Obligations.HealthFollowsItsInputs : Prop :=
  (∀ (a : Nat) (p : Presence) (r : Run) (v : Bool),
    (p = presenceOf v → afterSample a p r v = (p, none))
    ∧ (p ≠ presenceOf v →
      (∀ n, r = some (v, n) → afterSample a p r v = if a ≤ n + 1 then (presenceOf v, none) else (p, some (v, n + 1)))
      ∧ (r = none ∨ (∃ n, r = some (!v, n)) → afterSample a p r v = if a ≤ 1 then (presenceOf v, none) else (p, some (v, 1)))))
  ∧ (∀ (link : Bool) (air : Option AirReport) (p : Presence),
    classOf link air p =
      if link = true ∧ air = some .off then .off
      else if link = true ∧ air = some .ok then (if p = .absent then .suspect else .good)
      else if link = true ∧ air = some .fault then (if p = .present then .suspect else .failing)
      else if p = .absent then .failing else .isolated)
  ∧ (∀ (s : State) (c : Channel),
    let k := s.watched c
    let t := s.evaluate c
    let changesTo (h : Health) (confirm : Nat) : Prop :=
      t.watched c = { k with health := h, confirm := confirm } ∧ t.channelFlag .healthChange c = true ∧ OnlyChanges (healthParts c) s t
    ((k.heard = false ∨ (s.cfg c).enabled = false) → t = s)
    ∧ (k.heard = true → (s.cfg c).enabled = true →
      (classOf s.linkUp k.latestAir k.presence = .failing →
        (k.health = .failing ∨ k.health = .failed → t = s)
        ∧ (k.health ≠ .failing → k.health ≠ .failed → changesTo .failing (s.cfg c).confirm))
      ∧ (∀ h, (h = .good ∧ classOf s.linkUp k.latestAir k.presence = .good ∨ h = .suspect ∧ classOf s.linkUp k.latestAir k.presence = .suspect
            ∨ h = .isolated ∧ classOf s.linkUp k.latestAir k.presence = .isolated ∨ h = .off ∧ classOf s.linkUp k.latestAir k.presence = .off) →
          (k.health = h → t = s) ∧ (k.health ≠ h → changesTo h 0))))
  ∧ ∀ (s : State) (c : Channel), s.power = .running → (s.watched c).health = .failing → (s.watched c).confirm = 0 →
    ∃ t, exec (.confirmExpiry c) s = .next t ∧ t.watched c = { s.watched c with health := .failed, confirm := 0 }
      ∧ t.channelFlag .healthChange c = true ∧ t.xps.alarm = true
      ∧ (s.isMain c = true → (s.cfg c).policy = .auto → s.readiness c = .ready →
          armedNow s t c .auto)
      ∧ (s.isMain c = true → (s.cfg c).policy = .auto → s.readiness c ≠ .ready →
          t.authority c = .main ∧ t.channelFlag .takeoverBlocked c = true)
      ∧ (s.isMain c = true → (s.cfg c).policy ≠ .auto → OnlyChanges (.watched c :: flagParts c) s t)
      ∧ OnlyChanges (healthParts c) s t

/-! ## Chapter 6: authority -/

/-- R115, R116, R120, R121: after a pass over every channel in ascending order, with this origin: a channel that was off MAIN is passed
over; one in MAIN is armed, its first segment handed on, or stays there with TAKEOVER-BLOCKED set. A ready channel whose destination no
lower channel of the pass has taken is armed; one that is not ready, or whose destination a lower channel of the pass has taken, stays in
MAIN. -/
def passedOver (s t : State) (o : Origin) : Prop :=
  (∀ c, s.isMain c = false → t.authority c = s.authority c ∧ t.sli.channel[c] = s.sli.channel[c])
  ∧ ∀ c, s.isMain c = true →
    ((∃ plan, t.authority c = .armed o plan ∧ handedOn s t c plan 1) ∨ (t.authority c = .main ∧ t.channelFlag .takeoverBlocked c = true))
    ∧ (s.readiness c = .ready →
        (∀ d, d < c → s.isMain d = true → t.isMain d = false → (s.cfg d).destination ≠ (s.cfg c).destination) →
        ∃ plan, t.authority c = .armed o plan)
    ∧ (s.readiness c ≠ .ready → t.authority c = .main)
    ∧ (∀ d, d < c → s.isMain d = true → t.isMain d = false → (s.cfg d).destination = (s.cfg c).destination → t.authority c = .main)

/-- R111, R120, R121: KEY_LEVEL_ACCEPTED takes the other level; an assertion sets KEY-TAKEOVER and arms every ready channel in MAIN; TAKE
ALL does the same for the requesting port. Its answer is DONE with the set of channels that it armed, in two bytes (log 34), and NOT-READY
where it armed none. A channel in MAIN that stays there has TAKEOVER-BLOCKED set, and a channel off MAIN is passed over. A release changes
the accepted level alone. -/
def Obligations.KeyAndTakeAllArmEveryReadyChannel : Prop :=
  (∀ s : State, s.power = .running → s.sup.key.count = 8 → s.sup.key.asserted = false →
    ∃ t, exec .keyLevelAccepted s = .next t ∧ t.sup.key = ⟨true, 0⟩ ∧ t.deviceFlag .keyTakeover = true ∧ passedOver s t .key
      ∧ OnlyChanges Instr.keyLevelAccepted.reach s t)
  ∧ (∀ s : State, s.power = .running → s.sup.key.count = 8 → s.sup.key.asserted = true →
    exec .keyLevelAccepted s = .next { s with sup := { s.sup with key := ⟨false, 0⟩ } })
  ∧ ∀ (s : State) (p : SitePort) (tag : Tag), canTake s p →
    ((∃ c, s.isMain c = true ∧ s.readiness c = .ready) →
      ∃ t, ∃ cs : List Channel, exec (.takeAll p tag) s = .next t ∧ answered s t p tag 0x25 .done (nat16 (channelMask cs))
        ∧ cs ≠ [] ∧ cs.Pairwise (· < ·) ∧ (∀ c, c ∈ cs ↔ s.isMain c = true ∧ t.isMain c = false) ∧ passedOver s t (.site p)
        ∧ OnlyChanges (Instr.takeAll p tag).reach s t)
    ∧ ((∀ c, s.isMain c = true → s.readiness c ≠ .ready) →
      ∃ t, exec (.takeAll p tag) s = .next t ∧ answered s t p tag 0x25 .notReady [] ∧ passedOver s t (.site p)
        ∧ OnlyChanges (requestParts ++ everyChannel flagParts) s t)


/-- R115, R117, R119, R131: TAKE arms a ready channel in MAIN with the port's origin: a clip's PLAY is queued, and the crosspoint of a live
source or of filler is placed for jl. Its answer carries jl, js as a day and timecode, and the first segment's kind and event id; a channel
that is not ready is refused with NOT-READY, or CONFLICT where only its destination is taken, and one off MAIN with WRONG-STATE. RELEASE
arms a HELD channel from its holder with origin LAPSE, without the readiness test; in every other state it is refused with WRONG-STATE,
where no other port holds the channel. -/
def Obligations.TakeAndReleaseArm : Prop :=
  ∀ (s : State) (p : SitePort) (tag : Tag) (ch : Byte) (c : Channel), canTake s p → ch.toNat = c.val →
    let ready := (s.cfg c).enabled = true ∧ (s.cfg c).policy ≠ .never ∧ s.stc.state ≠ .unset
      ∧ ((s.pages c).active.isSome ∨ (s.cfg c).filler.isSome)
    let taken := ∃ d, d ≠ c ∧ (s.cfg d).destination = (s.cfg c).destination ∧ s.isMain d = false
    (s.isMain c = true → ready → ¬ taken →
      ∃ t plan, exec (.take p (.formed tag ch)) s = .next t ∧ armedNow s t c (.site p) ∧ t.authority c = .armed (.site p) plan
        ∧ answered s t p tag 0x25 .done (bytes32 plan.start ++ labelBytes (stageB s.format plan.station)
            ++ (match plan.content with | .clip _ _ => ([0] : List Byte) | .live _ => [1] | .filler => [2]) ++ bytes32 plan.id)
        ∧ OnlyChanges (requestParts ++ authorityParts c) s t)
    ∧ (s.isMain c = true → ¬ ready → onlyAnswered (.take p (.formed tag ch)) s p tag 0x25 .notReady)
    ∧ (s.isMain c = true → ready → taken → onlyAnswered (.take p (.formed tag ch)) s p tag 0x25 .conflict)
    ∧ (s.isMain c = false → onlyAnswered (.take p (.formed tag ch)) s p tag 0x25 .wrongState)
    ∧ (∀ a, s.authority c = .held p a →
      ∃ t, exec (.release p (.formed tag ch)) s = .next t ∧ answered s t p tag 0x28 .done [] ∧ armedNow s t c .lapse
        ∧ OnlyChanges (requestParts ++ authorityParts c) s t)
    ∧ ((s.isMain c = true ∨ (∃ o plan, s.authority c = .armed o plan) ∨ (∃ a, s.authority c = .standby a) ∨ returningOwn s c p) →
      onlyAnswered (.release p (.formed tag ch)) s p tag 0x28 .wrongState)

/-- R147: a PLAY still queued for the segment that starts at a frame is removed. -/
def playRemoved (s t : State) (c : Channel) (start : LocalFrame) : Prop :=
  s.playQueued c start = true → ∀ x ∈ t.cus.queue, x.isPlayOf c start = false

/-- R147, R159: the crosspoint of the filler that starts in this frame is due at once, but where that is the source on air already. -/
def fillerAtOnce (s t : State) (c : Channel) : Prop :=
  ∀ y, (s.cfg c).filler = some y → ((s.authority c).air.bind fun a => a.source) ≠ some y →
    sentOrPending s t ⟨(s.cfg c).destination, s.cdu.now, y, c⟩

/-- R146, R147: a segment of this id and start, found late at its start in ARMED or STANDBY, is on air as FILL of the filler source, and
ends where the first segment of a fresh join begins, the one planned segment. With nothing planned behind the late segment the join is
that of a cue queue without its PLAY, which the model removes first (log 29, DESIGN CHOICE). -/
def lateStart (s t : State) (c : Channel) (id : EventId) (start : LocalFrame) (behind : List Planned) : Prop :=
  t.channelFlag .cueLate c = true ∧ (∀ q, (t.cue c).players.get q ≠ .onAir)
  ∧ ∃ first, (t.cue c).planned = [first] ∧ t.authority c = .standby ⟨.fill, id, (s.cfg c).filler, none, some first.start, start⟩
    ∧ (first.start ≠ start → playRemoved s t c start ∧ (behind = [] → fillerAtOnce s t c))
    ∧ (behind = [] → s.playQueued c start = true →
        let j := State.join { s with cus := { s.cus with queue := s.cus.queue.filter fun x => !x.isPlayOf c start } } c
        joinPlanned s t c j first)

/-- R145, R147: what is planned once a segment has started: what was planned behind it, or else, where it has an end that CUS plans from,
the segment that the boundary lookup there gives. -/
def plannedBehind (s t : State) (c : Channel) (rest : List Planned) (stop : Option LocalFrame) (looksAhead : LocalFrame → Prop) : Prop :=
  (rest ≠ [] ∨ stop = none ∨ (∃ e, stop = some e ∧ ¬ looksAhead e) → (t.cue c).planned = rest)
  ∧ (∀ e y, rest = [] → stop = some e → looksAhead e → s.lookupPlace c e = some y →
      ∃ g, (t.cue c).planned = [g] ∧ lookedUp s t c e y g)

/-- R139, R147: the players once a segment is on air: the one that it uses is ON-AIR and the last clip player, and any other that was ON-AIR
is IDLE. -/
def playersNow (s t : State) (c : Channel) (uses : Option Player) : Prop :=
  (∀ q, (t.cue c).players.get q
      = if uses = some q then .onAir else if (s.cue c).players.get q = .onAir then .idle else (s.cue c).players.get q)
  ∧ (t.cue c).lastClip = (match uses with | some q => some q | none => (s.cue c).lastClip)

/-- R123, R134, R135, R147, R148: at the switch-window event of its jl an ARMED channel goes to STANDBY with the join plan's first segment
on air, and at that of its return point a RETURNING channel is MAIN with nothing planned; at that of its start a planned segment of a
STANDBY or a RETURNING channel goes on air. The player of a clip is ON-AIR, one that was ON-AIR before is IDLE, and the segment after it is
planned by a boundary lookup at its end. Where its PLAY has not been sent, filler with its event id starts in its place, with CUE-LATE: up
to a fresh join in STANDBY and from ARMED, and to the segment's own end in RETURNING. Before that frame nothing happens, and a RETURNING
channel starts no segment at or after its return point. -/
def Obligations.SwitchWindowPutsSegmentsOnAir : Prop :=
  ∀ (s : State) (c : Channel), s.power = .running → s.cdu.windowEvent = true →
    (∀ o plan, s.authority c = .armed o plan → plan.start = s.cdu.now →
      let isClip : Prop := ∃ clipId media, plan.content = .clip clipId media
      (¬ isClip ∨ ¬ unsentPlay s c plan.start →
        let air : OnAir := airOfPlanned s c ⟨plannedContent plan.content plan.id (plan.player.getD .A), plan.id, plan.start, plan.stop, true⟩
        ∃ t, exec (.goToAir c) s = .next t ∧ t.authority c = .standby air ∧ playersNow s t c air.player
          ∧ plannedBehind s t c (s.cue c).planned plan.stop (fun _ => True)
          ∧ t.channelFlag .authorityChange c = true ∧ OnlyChanges (authorityParts c) s t)
      ∧ (isClip → unsentPlay s c plan.start →
        ∃ t, exec (.goToAir c) s = .next t ∧ lateStart s t c plan.id plan.start (s.cue c).planned
          ∧ t.channelFlag .authorityChange c = true ∧ OnlyChanges (authorityParts c) s t))
    ∧ (∀ pr m point a, s.authority c = .returning pr m point a → point = s.cdu.now →
      ∃ t, exec (.returnComplete c) s = .next t ∧ t.authority c = .main ∧ (t.cue c).planned = [] ∧ (t.cue c).anchor = none
        ∧ planWithdrawn s t c (fun _ => True) ∧ (∀ g ∈ (s.cue c).planned, routeWithdrawn s t c g.start)
        ∧ t.xps.tally[c] = false ∧ t.channelFlag .authorityChange c = true ∧ OnlyChanges (authorityParts c) s t)
    ∧ (∀ seg rest, (s.cue c).planned = seg :: rest → seg.start = s.cdu.now →
      let air := airOfPlanned s c seg
      let late : Prop := seg.content.player.isSome = true ∧ unsentPlay s c seg.start
      (∀ a, s.authority c = .standby a →
        (¬ late →
          ∃ t, exec (.segmentStart c) s = .next t ∧ t.authority c = .standby air ∧ playersNow s t c air.player
            ∧ plannedBehind s t c rest seg.stop (fun _ => True)
            ∧ (seg.stop = none ∨ rest ≠ [] → OnlyChanges [.plan c, .authority c] s t)
            ∧ OnlyChanges (cueParts c) s t)
        ∧ (late →
          ∃ t, exec (.segmentStart c) s = .next t ∧ lateStart s t c seg.id seg.start rest ∧ OnlyChanges (cueParts c) s t))
      ∧ (∀ pr m point a, s.authority c = .returning pr m point a → 2147483648 < (seg.start - point).toNat →
        (¬ late →
          ∃ t, exec (.segmentStart c) s = .next t ∧ t.authority c = .returning pr m point air ∧ playersNow s t c air.player
            ∧ plannedBehind s t c rest seg.stop (fun e => 2147483648 < (e - point).toNat)
            ∧ (seg.stop = none ∨ rest ≠ [] → OnlyChanges [.plan c, .authority c] s t)
            ∧ OnlyChanges (cueParts c) s t)
        ∧ (late →
          ∃ t, exec (.segmentStart c) s = .next t
            ∧ t.authority c = .returning pr m point ⟨.fill, seg.id, (s.cfg c).filler, none, seg.stop, seg.start⟩
            ∧ t.channelFlag .cueLate c = true ∧ (∀ q, (t.cue c).players.get q ≠ .onAir)
            ∧ plannedBehind s t c rest seg.stop (fun e => 2147483648 < (e - point).toNat)
            ∧ (seg.stop ≠ some seg.start → playRemoved s t c seg.start ∧ fillerAtOnce s t c)
            ∧ OnlyChanges (cueParts c) s t))
      ∧ (∀ pr m point a, s.authority c = .returning pr m point a → (seg.start - point).toNat ≤ 2147483648 →
        exec (.segmentStart c) s = .next s))
    ∧ (∀ o plan, s.authority c = .armed o plan → 2147483648 < (s.cdu.now - plan.start).toNat → exec (.goToAir c) s = .next s)
    ∧ (∀ pr m point a, s.authority c = .returning pr m point a → 2147483648 < (s.cdu.now - point).toNat →
      exec (.returnComplete c) s = .next s)

/-- R124 to R130, R143: CANCEL returns an ARMED channel to MAIN with nothing planned, and is refused with WRONG-STATE in every other state.
HOLD holds a STANDBY channel for its port and withdraws its plan. Both withdraw each segment by where its PLAY stands, with a CANCEL for a
player that is CUED, and the crosspoint that has not been issued. In MAIN HOLD is refused with WRONG-STATE, in ARMED and RETURNING with BUSY, and
from the holder it is DONE and changes nothing. ROUTE from the holder puts a source on air on a HELD channel, by a crosspoint due at the
next switch-window event; a source above 255 is refused with BAD-VALUE, and ROUTE in MAIN and STANDBY with WRONG-STATE, in ARMED and
RETURNING with BUSY. A hold-scoped request from the port that does not hold a HELD channel, or one RETURNING from HELD, is refused with
HELD-ELSEWHERE, whatever it carries. A health change into GOOD aborts an arming of origin AUTO as CANCEL does: its PLAY and its crosspoint
are withdrawn; a change into any other state, and an arming of another origin, leave the channel ARMED. -/
def Obligations.CancelHoldAndRoute : Prop :=
  (∀ (s : State) (p : SitePort) (tag : Tag) (ch : Byte) (c : Channel), canTake s p → ch.toNat = c.val →
    (∀ o plan, s.authority c = .armed o plan →
      ∃ t, exec (.cancel p (.formed tag ch)) s = .next t ∧ answered s t p tag 0x26 .done []
        ∧ t.authority c = .main ∧ (t.cue c).planned = [] ∧ (t.cue c).anchor = none ∧ t.channelFlag .authorityChange c = true
        ∧ (∀ q, plan.player = some q → cueWithdrawn s t c q plan.start) ∧ routeWithdrawn s t c plan.start
        ∧ t.xps.tally[c] = false ∧ OnlyChanges (requestParts ++ authorityParts c) s t)
    ∧ (∀ a, s.authority c = .standby a →
      ∃ t, exec (.hold p (.formed tag ch)) s = .next t ∧ answered s t p tag 0x27 .done []
        ∧ t.authority c = .held p a ∧ (t.cue c).planned = [] ∧ t.channelFlag .authorityChange c = true
        ∧ planWithdrawn s t c (fun _ => True) ∧ (∀ g ∈ (s.cue c).planned, routeWithdrawn s t c g.start)
        ∧ OnlyChanges (requestParts ++ authorityParts c) s t)
    ∧ (∀ a (x : BitVec 16), s.authority c = .held p a → x.toNat ≤ 255 →
      ∃ t, exec (.route p (.formed tag ⟨ch, x⟩)) s = .next t ∧ answered s t p tag 0x2A .done []
        ∧ t.authority c = .held p ⟨.routed, 0, some x.toNat, none, none, s.cdu.now⟩
        ∧ (∃ xp ∈ t.xps.pending, xp.destination = (s.cfg c).destination ∧ xp.source = x.toNat ∧ xp.channel = c
            ∧ xp.due = (if s.cdu.windowOpened then s.cdu.now + 1 else s.cdu.now))
        ∧ (∀ q, (t.cue c).players.get q ≠ .onAir)
        ∧ OnlyChanges (requestParts ++ [.authority c, .plan c, .crosspoints]) s t)
    ∧ ((∀ o plan, s.authority c ≠ .armed o plan) → onlyAnswered (.cancel p (.formed tag ch)) s p tag 0x26 .wrongState)
    ∧ (s.authority c = .main → onlyAnswered (.hold p (.formed tag ch)) s p tag 0x27 .wrongState)
    ∧ (∀ a, s.authority c = .held p a → onlyAnswered (.hold p (.formed tag ch)) s p tag 0x27 .done)
    ∧ ((∃ o plan, s.authority c = .armed o plan) ∨ returningOwn s c p →
      onlyAnswered (.hold p (.formed tag ch)) s p tag 0x27 .busy
        ∧ ∀ x : BitVec 16, onlyAnswered (.route p (.formed tag ⟨ch, x⟩)) s p tag 0x2A .busy)
    ∧ (s.authority c = .main ∨ (∃ a, s.authority c = .standby a) →
      ∀ x : BitVec 16, onlyAnswered (.route p (.formed tag ⟨ch, x⟩)) s p tag 0x2A .wrongState)
    ∧ (∀ a (x : BitVec 16), s.authority c = .held p a → 255 < x.toNat →
      onlyAnswered (.route p (.formed tag ⟨ch, x⟩)) s p tag 0x2A .badValue)
    ∧ (∀ q, q ≠ p → ((∃ a, s.authority c = .held q a) ∨ ∃ m point a, s.authority c = .returning (.held q) m point a) →
      ∀ (mode : Byte) (x : BitVec 16),
        onlyAnswered (.hold p (.formed tag ch)) s p tag 0x27 .heldElsewhere
        ∧ onlyAnswered (.release p (.formed tag ch)) s p tag 0x28 .heldElsewhere
        ∧ onlyAnswered (.returnToMain p (.formed tag ⟨ch, mode⟩)) s p tag 0x29 .heldElsewhere
        ∧ onlyAnswered (.route p (.formed tag ⟨ch, x⟩)) s p tag 0x2A .heldElsewhere))
  ∧ ∀ (s : State) (c : Channel) (h : Health) (o : Origin) (plan : JoinPlan), (s.watched c).health ≠ h → s.authority c = .armed o plan →
    let t := s.setHealth c h
    (h = .good ∧ o = .auto →
      t.authority c = .main ∧ (t.cue c).planned = [] ∧ (t.cue c).anchor = none ∧ t.xps.tally[c] = false
        ∧ t.channelFlag .authorityChange c = true
        ∧ routeWithdrawn s t c plan.start ∧ (∀ q, plan.player = some q → cueWithdrawn s t c q plan.start)
        ∧ (plan.player.isSome → ∀ x ∈ t.cus.queue, x.isPlayOf c plan.start = false)
        ∧ OnlyChanges (healthParts c) s t)
    ∧ (h ≠ .good ∨ o ≠ .auto → t.authority c = .armed o plan ∧ OnlyChanges (.watched c :: flagParts c) s t)


/-- R133, R134, R136: RETURN on a STANDBY or a HELD channel whose health is GOOD with RESUME-READY set: the channel is RETURNING, its prior
state kept, with the return point of its mode, and a crosspoint to its main return source is placed for that frame. Without either it
is refused with NOT-READY; a mode above 1 is refused with BAD-VALUE in every state, and a legal one in MAIN with WRONG-STATE, in ARMED and
RETURNING with BUSY. A health change away from GOOD aborts a return, with RETURN-ABORTED: the main return crosspoint is withdrawn, and the
channel is again STANDBY, planned from its segment on air (R148: by a boundary lookup at that segment's end, where it has one that has not
come), or HELD by its holder, or, where the holder is SILENT, ARMED with HOLD-LAPSED (R132). -/
def Obligations.ReturnIsAccepted : Prop :=
  (∀ (s : State) (p : SitePort) (tag : Tag) (ch mode : Byte) (c : Channel) (a : OnAir) (pr : Prior),
    canTake s p → ch.toNat = c.val → (s.authority c = .standby a ∧ pr = .standby ∨ s.authority c = .held p a ∧ pr = .held p) →
    (∀ m, (mode = 0 ∧ m = ReturnMode.now ∨ mode = 1 ∧ m = .nextBoundary) →
      (s.watched c).health = .good → (s.watched c).latestResume = some true →
      ∃ t point, exec (.returnToMain p (.formed tag ⟨ch, mode⟩)) s = .next t ∧ answered s t p tag 0x29 .done (bytes32 point)
        ∧ t.authority c = .returning pr m point a
        ∧ (m = .now → point = s.cdu.now + 1)
        ∧ (m = .nextBoundary → ∀ e, a.stop = some e → 0 < (e - s.cdu.now).toNat → (e - s.cdu.now).toNat < 2147483648 → point = e)
        ∧ (m = .nextBoundary → (a.stop = none ∨ ∃ e, a.stop = some e ∧ (s.cdu.now - e).toNat < 2147483648) →
            point = s.cdu.now + 1)
        ∧ (∃ xp ∈ t.xps.pending, xp.destination = (s.cfg c).destination ∧ xp.source = (s.cfg c).mainSource ∧ xp.channel = c
            ∧ xp.due = point)
        ∧ (∀ seg ∈ (t.cue c).planned, seg ∈ (s.cue c).planned ∧ 2147483648 < (seg.start - point).toNat)
        ∧ planWithdrawn s t c (fun g => (g.start - point).toNat ≤ 2147483648)
        ∧ (∀ g ∈ (s.cue c).planned, (g.start - point).toNat ≤ 2147483648 → g.start ≠ point → routeWithdrawn s t c g.start)
        ∧ OnlyChanges (requestParts ++ authorityParts c) s t)
    ∧ (mode.toNat ≤ 1 → ((s.watched c).health ≠ .good ∨ (s.watched c).latestResume ≠ some true) →
      onlyAnswered (.returnToMain p (.formed tag ⟨ch, mode⟩)) s p tag 0x29 .notReady))
  ∧ (∀ (s : State) (p : SitePort) (tag : Tag) (ch mode : Byte) (c : Channel), canTake s p → ch.toNat = c.val →
    (1 < mode.toNat → ((s.authority c).holder = none ∨ (s.authority c).holder = some p) →
      onlyAnswered (.returnToMain p (.formed tag ⟨ch, mode⟩)) s p tag 0x29 .badValue)
    ∧ (mode.toNat ≤ 1 → s.authority c = .main → onlyAnswered (.returnToMain p (.formed tag ⟨ch, mode⟩)) s p tag 0x29 .wrongState)
    ∧ (mode.toNat ≤ 1 → ((∃ o plan, s.authority c = .armed o plan) ∨ returningOwn s c p) →
      onlyAnswered (.returnToMain p (.formed tag ⟨ch, mode⟩)) s p tag 0x29 .busy))
  ∧ ∀ (s : State) (c : Channel) (h : Health) (pr : Prior) (m : ReturnMode) (point : LocalFrame) (a : OnAir),
    (s.watched c).health ≠ h → s.authority c = .returning pr m point a →
    let t := s.setHealth c h
    let main (x : Crosspoint) : Prop := x.channel = c ∧ x.destination = (s.cfg c).destination ∧ x.due = point
    (h = .good → t.authority c = s.authority c ∧ OnlyChanges (.watched c :: flagParts c) s t)
    ∧ (h ≠ .good → t.channelFlag .returnAborted c = true ∧ t.channelFlag .authorityChange c = true
        ∧ OnlyChanges (healthParts c) s t
        ∧ (pr = .standby →
          (∃ b, t.authority c = .standby b ∧ (b = a ∨ ∃ e, b = { a with stop := some e }))
          ∧ (∀ x ∈ t.xps.pending, main x → ∃ g ∈ (t.cue c).planned, g.start = point)
          ∧ (∀ e, a.stop = some e → (s.cue c).anchor.isSome → (s.cue c).planned = [] → 2147483648 < (s.cdu.now - e).toNat →
              t.authority c = .standby a ∧ ∃ g, (t.cue c).planned = [g] ∧ g.start = e
                ∧ ∀ y, s.lookupPlace c e = some y → lookedUp s t c e y g))
        ∧ (∀ q, pr = .held q →
          ((s.site q).live = true → t.authority c = .held q a ∧ t.cue c = s.cue c ∧ ∀ x ∈ t.xps.pending, ¬ main x)
          ∧ ((s.site q).live = false → (∃ plan, t.authority c = .armed .lapse plan) ∧ t.channelFlag .holdLapsed c = true)))


/-! ## Chapter 7: cueing, switching and tally -/

/-- R146, R153: the planned clip of a STANDBY channel, found late, has been replaced by the first segment of this fresh join: behind a
bridge, of kind FILL with the event's id or GAP, where the clip was to start before the join's frame, and otherwise at the end of the
segment on air. The anchor is the join's. -/
def replacedByJoin (s t : State) (c : Channel) (a : OnAir) (late : Planned) (j : Join) : Prop :=
  ∃ first, joinPlanned s t c j first
    ∧ (2147483648 < (late.start - j.plan.start).toNat → t.authority c = .standby a
        ∧ ∃ bridge, (t.cue c).planned = [bridge, first] ∧ bridge.start = late.start ∧ bridge.stop = some j.plan.start
          ∧ bridge.id = late.id ∧ bridge.content = (if late.id = 0 then .gap else .fill) ∧ segmentRouted s t c bridge a.source)
    ∧ ((late.start - j.plan.start).toNat ≤ 2147483648 →
        t.authority c = .standby { a with stop := some j.plan.start } ∧ (t.cue c).planned = [first])

/-- R151, R152, R153: with no transaction in progress the head entry is taken; a PLAY whose deadline has passed is removed with CUE-LATE,
and any other entry begins its transaction with the REPLY_TIMEOUT in force. After a late PLAY a fresh join is the join plan of an ARMED
channel, which keeps its origin, and replaces the late segment of a STANDBY channel; in RETURNING filler stands in for the event. At the
end of its send a PLAY's player is CUED and the wait begins. A reply of another address changes nothing. -/
def Obligations.CueEntriesAreTakenAndSent : Prop :=
  ∀ s : State, s.power = .running →
    (∀ x rest, s.cus.txn = none → s.cus.queue = x :: rest →
      (x.action = .cancel ∨ (s.cdu.now - x.deadline).toNat = 0 ∨ 2147483648 ≤ (s.cdu.now - x.deadline).toNat →
        ∃ t k, exec .cueTake s = .next t ∧ t.cus.queue = rest ∧ t.cus.txn = some k ∧ k.entry = x ∧ k.withdrawn = false
          ∧ k.replyTimeout = s.live.replyTimeout ∧ k.phase = .sending false
          ∧ (x.action = .cancel → k.message = .cancel x.address)
          ∧ (∀ clipId media n i, x.action = .play clipId media n i →
              k.message = .play x.address clipId media (x.start - (s.cdu.now + 1)).toNat)
          ∧ OnlyChanges [.cueQueue] s t)
      ∧ (x.action ≠ .cancel → 0 < (s.cdu.now - x.deadline).toNat → (s.cdu.now - x.deadline).toNat < 2147483648 →
        let c := x.channel
        let j := State.join { s with cus := { s.cus with queue := rest } } c
        ∃ t, exec .cueTake s = .next t ∧ t.cus.txn = none ∧ t.channelFlag .cueLate c = true
          ∧ (∀ o g, s.authority c = .armed o g → g.start = x.start →
              ∃ q, t.authority c = .armed o { j.plan with player := if j.plan.content.isClip then some q else none }
                ∧ (t.cue c).anchor = j.rel.map (fun rj => (j.plan.start, rj))
                ∧ handedOn s t c { j.plan with player := if j.plan.content.isClip then some q else none } 1
                ∧ t.channelFlag .authorityChange c = s.channelFlag .authorityChange c)
          ∧ (∀ a g, s.authority c = .standby a → (s.cue c).planned = [g] → g.start = x.start → g.content.player = some x.player →
              s.playerState c x.player ≠ .cued → (∀ y ∈ rest, y.isPlayOf c x.start = false) → replacedByJoin s t c a g j)
          ∧ (∀ pr m point a g, s.authority c = .returning pr m point a → s.plannedFor x = some g →
              ∃ f, (t.cue c).planned = (s.cue c).planned.filter (fun y => y.start != g.start) ++ [f]
                ∧ f.content = .fill ∧ f.id = g.id ∧ f.start = g.start ∧ f.stop = g.stop ∧ t.authority c = s.authority c
                ∧ segmentRouted s t c f (sourceBeforeLast t c))
          ∧ OnlyChanges (cueParts c) s t))
    ∧ (∀ k, s.cus.txn = some k → k.phase = .sending true →
      ∃ t, exec .cueSendEnd s = .next t ∧ t.cus.txn = some { k with phase := .awaiting k.replyTimeout }
        ∧ t.cus.queue = s.cus.queue
        ∧ ((k.entry.action = .cancel ∨ k.withdrawn = true) → OnlyChanges [.cueQueue] s t)
        ∧ (k.entry.action ≠ .cancel → k.withdrawn = false →
            (t.cue k.entry.channel).players.get k.entry.player = .cued
            ∧ (s.sourceAhead k.entry.channel k.entry.start ≠ some (s.playerSource k.entry.channel k.entry.player) →
                placed s t ⟨(s.cfg k.entry.channel).destination, k.entry.start, s.playerSource k.entry.channel k.entry.player,
                  k.entry.channel⟩))
        ∧ OnlyChanges (planParts k.entry.channel) s t)
    ∧ (∀ k (a b : Byte), s.cus.txn = some k → a.toNat ≠ k.entry.address → exec (.cueReply a b) s = .next s)


/-- R152, R154, R155, R156: CUE-OK with the entry's address ends a transaction and the entry leaves the queue; a withdrawn PLAY that ends so
queues a CANCEL for its player. Where the message is still being sent, the player of a PLAY is CUED by it (log 45, DESIGN CHOICE).
CUE-FAIL and a wait that has run out end it too: a withdrawn PLAY or a CANCEL then has no further effect. A PLAY of attempt 1 whose other
player is free is tried again there, as attempt 2: from a fresh join in ARMED, and otherwise from a boundary lookup at the segment's own
start. Any other sets CUE-FAILED, and filler stands in for its event: in the join plan, which keeps its jl, or in the plan. A PLAY that
fails after its segment has started is not tried again, whatever its attempt (R155): CUE-FAILED is set, the segment on air becomes FILL of
the same id and end, its player is IDLE, what is planned stays, and the filler crosspoint is placed for the next switch-window event, but
where a segment starts or a return completes at that event. -/
def Obligations.CueTransactionsEnd : Prop :=
  ∀ (s : State) (k : Txn), s.power = .running → s.cus.txn = some k →
    let c := k.entry.channel
    let other := k.entry.player.other
    (∀ a : Byte, a.toNat = k.entry.address →
      ((k.entry.action = .cancel ∨ k.withdrawn = false ∧ k.isSending = false) →
        exec (.cueReply a 0) s = .next { s with cus := { s.cus with txn := none } })
      ∧ (k.entry.action ≠ .cancel → k.withdrawn = false → k.isSending = true →
        ∃ t, exec (.cueReply a 0) s = .next t ∧ t.cus.txn = none ∧ t.cus.queue = s.cus.queue
          ∧ t.playerState c k.entry.player = .cued
          ∧ OnlyChanges (planParts c) s t)
      ∧ (k.withdrawn = true → k.entry.action ≠ .cancel →
        ∃ t x, exec (.cueReply a 0) s = .next t ∧ t.cus.txn = none ∧ x ∈ t.cus.queue ∧ x.action = .cancel
          ∧ x.channel = c ∧ x.player = k.entry.player ∧ t.cus.queue.length = s.cus.queue.length + 1
          ∧ OnlyChanges [.cueQueue] s t))
    ∧ (∀ i, (i = .cueReplyTimeout ∧ k.phase = .awaiting 0 ∨ ∃ a b : Byte, i = .cueReply a b ∧ a.toNat = k.entry.address ∧ b ≠ 0) →
      ((k.withdrawn = true ∨ k.entry.action = .cancel) → exec i s = .next { s with cus := { s.cus with txn := none } })
      ∧ (∀ clipId media n e, k.withdrawn = false → k.entry.action = .play clipId media n e →
        (n = 1 → s.playerState c other ≠ .onAir →
          let j := State.join { s with cus := { s.cus with txn := none } } c
          (∀ o g, s.authority c = .armed o g → g.start = k.entry.start → g.player = some k.entry.player →
            ∃ t, exec i s = .next t ∧ t.cus.txn = none
              ∧ t.authority c = .armed o { j.plan with player := if j.plan.content.isClip then some other else none }
              ∧ (t.cue c).anchor = j.rel.map (fun rj => (j.plan.start, rj))
              ∧ handedOn s t c { j.plan with player := if j.plan.content.isClip then some other else none } 2
              ∧ t.channelFlag .cueFailed c = s.channelFlag .cueFailed c ∧ OnlyChanges (cueParts c) s t)
          ∧ (∀ g y, (∀ o l, s.authority c ≠ .armed o l) → s.plannedFor k.entry = some g → s.lookupPlace c g.start = some y →
            ∃ t f, exec i s = .next t ∧ t.cus.txn = none
              ∧ (t.cue c).planned = (s.cue c).planned.filter (fun z => z.start != g.start) ++ [f]
              ∧ f.start = g.start ∧ f.id = y.id ∧ f.stop = y.length.map (fun l => g.start + BitVec.ofNat 32 l)
              ∧ f.content = plannedContent y.content y.id other ∧ playHeld s t c y.content g.start y.id other 2
              ∧ segmentRouted s t c f (sourceBeforeLast t c)
              ∧ t.channelFlag .cueFailed c = s.channelFlag .cueFailed c ∧ OnlyChanges (cueParts c) s t))
        ∧ (n ≠ 1 ∨ s.playerState c other = .onAir →
          ∃ t, exec i s = .next t ∧ t.cus.txn = none ∧ t.channelFlag .cueFailed c = true
            ∧ (∀ o g, s.authority c = .armed o g → g.start = k.entry.start → g.player = some k.entry.player →
                t.authority c = .armed o { g with content := .filler, player := none } ∧ t.playerState c k.entry.player ≠ .cued
                  ∧ handedOn s t c { g with content := .filler, player := none } 1)
            ∧ (∀ g, (∀ o l, s.authority c ≠ .armed o l) → s.plannedFor k.entry = some g →
                t.playerState c k.entry.player ≠ .cued
                ∧ ∃ f, (t.cue c).planned = (s.cue c).planned.filter (fun z => z.start != g.start) ++ [f]
                  ∧ f.content = .fill ∧ f.id = g.id ∧ f.start = g.start ∧ f.stop = g.stop
                  ∧ segmentRouted s t c f (sourceBeforeLast t c))
            ∧ OnlyChanges (cueParts c) s t)
        ∧ (∀ a, (s.authority c).air = some a → a.player = some k.entry.player → a.start = k.entry.start → s.plannedFor k.entry = none →
          let due := if s.cdu.windowOpened then s.cdu.now + 1 else s.cdu.now
          ∃ t, exec i s = .next t ∧ t.cus.txn = none ∧ t.cus.queue = s.cus.queue ∧ t.channelFlag .cueFailed c = true
            ∧ t.authority c = (s.authority c).withAir { a with kind := .fill, source := (s.cfg c).filler, player := none }
            ∧ t.cue c = { s.cue c with players := (s.cue c).players.put k.entry.player .idle }
            ∧ (∀ y, (s.cfg c).filler = some y → (∀ g, (s.cue c).planned.head? = some g → 2147483648 < (due - g.start).toNat) →
                (∀ pr m point b, s.authority c = .returning pr m point b → 2147483648 < (due - point).toNat) →
                s.issuesAtOnce due = false →
                ∃ xp ∈ t.xps.pending, xp.due = due ∧ xp.source = y ∧ xp.channel = c ∧ xp.destination = (s.cfg c).destination)
            ∧ ((s.cfg c).filler = none ∨ (∃ g, (s.cue c).planned.head? = some g ∧ g.start = due)
                  ∨ (∃ pr m b, s.authority c = .returning pr m due b) →
                t.xps.pending = s.xps.pending ∧ t.xps.awaiting = s.xps.awaiting)
            ∧ OnlyChanges (cueParts c) s t)))


/-- R157: at a switch-window event XPS issues, for each destination, the pending crosspoint with the latest due frame that has come, and
drops the others that have come; those with later due frames stay. A crosspoint that is placed, by any block, replaces the one pending on
its destination for its due frame and no other, and is issued at once in the open window of its due frame, once the event of that window
has been taken. A ROUTE of the holder places one for the next switch-window event. -/
def Obligations.CrosspointsAreIssuedAtTheirFrame : Prop :=
  (∀ s : State, s.power = .running → s.cdu.windowEvent = true → s.xps.eventTaken = false →
    (∀ x ∈ s.xps.pending, x.destination < 64) →
    ∃ t sent, exec .crosspointIssue s = .next t ∧ t.xps.eventTaken = true
      ∧ t.xps.pending = s.xps.pending.filter (fun x => 2147483648 < (s.cdu.now - x.due).toNat)
      ∧ t.xps.awaiting = s.xps.awaiting ++ sent
      ∧ (∀ w ∈ sent, w.left = 2 ∧ ∃ x ∈ s.xps.pending, x.destination = w.destination ∧ x.source = w.source ∧ x.channel = w.channel
          ∧ (s.cdu.now - x.due).toNat ≤ 2147483648)
      ∧ sent.Pairwise (fun w v => w.destination < v.destination)
      ∧ (∀ x ∈ s.xps.pending, (s.cdu.now - x.due).toNat ≤ 2147483648 → ∃ w ∈ sent, w.destination = x.destination)
      ∧ (∀ x ∈ s.xps.pending, (s.cdu.now - x.due).toNat < 2147483648 →
          (∀ y ∈ s.xps.pending, y.destination = x.destination → (s.cdu.now - y.due).toNat ≤ 2147483648 → y = x
            ∨ (s.cdu.now - x.due).toNat < (s.cdu.now - y.due).toNat ∧ (s.cdu.now - y.due).toNat < 2147483648) →
          ∃ w ∈ sent, w.destination = x.destination ∧ w.source = x.source ∧ w.channel = x.channel)
      ∧ OnlyChanges [.crosspoints] s t)
  ∧ (∀ (s : State) (x : Crosspoint), placed s (s.placeXp x) x ∧ OnlyChanges [.crosspoints] s (s.placeXp x))
  ∧ ∀ (s : State) (p : SitePort) (tag : Tag) (ch : Byte) (c : Channel) (a : OnAir) (x : BitVec 16), canTake s p → ch.toNat = c.val →
    s.authority c = .held p a → x.toNat ≤ 255 →
    ∃ t, exec (.route p (.formed tag ⟨ch, x⟩)) s = .next t
      ∧ placed s t ⟨(s.cfg c).destination, if s.cdu.windowOpened then s.cdu.now + 1 else s.cdu.now, x.toNat, c⟩
      ∧ OnlyChanges (requestParts ++ [.authority c, .plan c, .crosspoints]) s t

/-- R158, R160: an acknowledgement is matched to the oldest awaiting crosspoint of its destination and source, which leaves; a positive
one makes its source the last acknowledged and re-evaluates the tallies of the destination, a negative one sets ROUTE-UNCONFIRMED of
the channel that placed the crosspoint, as does a wait that has run out. One that matches none changes nothing. -/
def Obligations.AcknowledgementsAreMatched : Prop :=
  ∀ (s : State) (x : Awaiting) (pre post : List Awaiting), s.power = .running → s.xps.awaiting = pre ++ x :: post →
    (∀ d n : Byte, x.destination = d.toNat → d.toNat < 64 → x.source = n.toNat →
      (∀ y ∈ pre, ¬(y.destination = x.destination ∧ y.source = x.source)) →
      (∃ t, exec (.crosspointAck d n 0) s = .next t ∧ t.xps.awaiting = pre ++ post
        ∧ t.lastAckOf d.toNat = some n.toNat ∧ (∀ e, e ≠ d.toNat → t.lastAckOf e = s.lastAckOf e)
        ∧ (∀ c, (s.cfg c).destination = d.toNat →
            (t.xps.tally[c] = true ↔ (s.authority c).name.standbyOnAir = true ∧ n.toNat ≠ (s.cfg c).mainSource))
        ∧ (∀ c, (s.cfg c).destination ≠ d.toNat → t.xps.tally[c] = s.xps.tally[c])
        ∧ OnlyChanges ([.crosspoints, .acknowledged] ++ everyChannel fun c => [.tally c]) s t)
      ∧ ∀ r : Byte, r ≠ 0 →
        ∃ t, exec (.crosspointAck d n r) s = .next t ∧ t.xps.awaiting = pre ++ post
          ∧ t.channelFlag .routeUnconfirmed x.channel = true ∧ OnlyChanges (.crosspoints :: flagParts x.channel) s t)
    ∧ (∀ d : Fin 64, x.destination = d.val → x.left = 0 → (∀ y ∈ pre, ¬(y.destination = d.val ∧ y.left = 0)) →
      ∃ t, exec (.crosspointAckTimeout d) s = .next t ∧ t.xps.awaiting = pre ++ post
        ∧ t.channelFlag .routeUnconfirmed x.channel = true ∧ OnlyChanges (.crosspoints :: flagParts x.channel) s t)
    ∧ (∀ d n r : Byte, (∀ y ∈ s.xps.awaiting, ¬(y.destination = d.toNat ∧ y.source = n.toNat)) →
      exec (.crosspointAck d n r) s = .next s)

/-! ## Chapter 8: site ports, flags and notices -/

/-- The code of a health in a notice (10.3). -/
def healthCode : Health → Nat
  | .unknown => 0
  | .good => 1
  | .suspect => 2
  | .isolated => 3
  | .off => 4
  | .failing => 5
  | .failed => 6

/-- The code of an authority (10.2). -/
def authorityCode : AuthorityName → Nat
  | .main => 0
  | .armed => 1
  | .standby => 2
  | .held => 3
  | .returning => 4

/-- R165, R176, R177: with nothing being sent the transmit side sends the answer at the head of the queue; with no answer queued a LIVE
port sends a notice of the first URGENT pair, or else of the first pair, and that pair alone leaves the set. The notice carries the flag's
value as it stands, station now as a day and timecode, absent in UNSET, and as its detail the health for HEALTH-CHANGE, the authority for
AUTHORITY-CHANGE and 0 for every other kind. The end of a transmission frees the line. -/
def Obligations.TransmitSideSendsAnswersFirst : Prop :=
  ∀ (s : State) (p : SitePort), s.power = .running →
    (∀ a rest, (s.site p).sending = none → (s.site p).answers = a :: rest →
      ∃ t, exec (.answerTransmitBegin p) s = .next t ∧ t.site p = { s.site p with sending := some (.answer a), answers := rest }
        ∧ t.site p.other = s.site p.other ∧ OnlyChanges [.sitePorts] s t
        ∧ exec (.noticeTransmitBegin p) s = .next s)
    ∧ (∀ (pre post : List PendingPair) (q : PendingPair), (s.site p).sending = none → (s.site p).answers = [] →
      (s.site p).live = true → (s.site p).pairs = pre ++ q :: post →
      (q.urgent = true ∧ (∀ x ∈ pre, x.urgent = false) ∨ pre = [] ∧ (∀ x ∈ q :: post, x.urgent = false)) →
      ∃ t m, exec (.noticeTransmitBegin p) s = .next t ∧ (t.site p).sending = some (.notice m)
        ∧ m.kind = q.kind ∧ m.channel = q.channel
        ∧ (∀ k, q.kind = k.kind → q.channel = none → m.value = s.deviceFlag k)
        ∧ (∀ k c, q.kind = k.kind → q.channel = some c → m.value = s.channelFlag k c)
        ∧ m.time = (if s.stc.state = .unset then none else some (stageB s.format ((s.cdu.now.toNat + s.stc.offset) % wf s.format)))
        ∧ (∀ c, q.kind = 16 → q.channel = some c → m.detail = healthCode (s.watched c).health)
        ∧ (∀ c, q.kind = 17 → q.channel = some c → m.detail = authorityCode (s.authority c).name)
        ∧ (q.channel = none ∨ q.kind ≠ 16 ∧ q.kind ≠ 17 → m.detail = 0)
        ∧ (t.site p).pairs = (s.site p).pairs.filter (fun x => !(x.kind == q.kind && x.channel == q.channel))
        ∧ (t.site p).withoutPairs = { (s.site p).withoutPairs with sending := some (.notice m) }
        ∧ t.site p.other = s.site p.other ∧ OnlyChanges [.sitePorts, .notices] s t)
    ∧ ((s.site p).live = false → exec (.noticeTransmitBegin p) s = .next s)
    ∧ ((s.site p).sending.isSome →
      ∃ t, exec (.siteTransmitEnd p) s = .next t ∧ t.site p = { s.site p with sending := none }
        ∧ t.site p.other = s.site p.other ∧ OnlyChanges [.sitePorts] s t)

/-- R175, R176: what the setting of the flag of a pair does at a site port: a rising of a kind in the mask joins the set where the pair is
not pending there; any other setting promotes a pending pair to URGENT where it is itself URGENT, and else leaves the set. -/
def offered (s t : State) (p : SitePort) (q : PendingPair) (set : Bool) : Prop :=
  (set = false → (s.site p).mask.getLsbD q.kind = true → (∀ x ∈ (s.site p).pairs, q.sameFlag x = false) →
      (t.site p).pairs.length = (s.site p).pairs.length + 1 ∧ q ∈ (t.site p).pairs ∧ ∀ x ∈ (s.site p).pairs, x ∈ (t.site p).pairs)
  ∧ (set = true ∨ (s.site p).mask.getLsbD q.kind = false ∨ (∃ x ∈ (s.site p).pairs, q.sameFlag x = true) →
      (t.site p).pairs = (s.site p).pairs.map fun x => if q.urgent = true ∧ q.sameFlag x = true then { x with urgent := true } else x)
  ∧ (t.site p).withoutPairs = (s.site p).withoutPairs

/-- R172, R175, R176: setting a flag, one of the device or one of a channel, leaves it set, in every state, and touches no other flag. A
rising offers its pair to each port whose mask holds the kind; a setting of a flag that is already set offers none, and at most promotes
a pending pair to URGENT. -/
def Obligations.RisingFlagsOfferNotices : Prop :=
  (∀ (s : State) (k : ChannelFlag) (c : Channel) (u : Bool) (p : SitePort),
    let t := s.raiseClassed k c u
    t.channelFlag k c = true ∧ (∀ j d, (j ≠ k ∨ d ≠ c) → t.channelFlag j d = s.channelFlag j d)
    ∧ offered s t p ⟨k.kind, some c, u⟩ (s.channelFlag k c) ∧ OnlyChanges (flagParts c) s t)
  ∧ ∀ (s : State) (k : DeviceFlag) (p : SitePort),
    let t := s.raiseDevice k
    t.deviceFlag k = true ∧ (∀ j, j ≠ k → t.deviceFlag j = s.deviceFlag j)
    ∧ offered s t p ⟨k.kind, none, k.urgent⟩ (s.deviceFlag k) ∧ OnlyChanges deviceFlagParts s t


/-- R173: a name of CLEAR FLAGS that is legal: a device kind with no channel, or a per-channel kind with a channel or ALL-CHANNELS. -/
def legalName (n : FlagName) : Prop :=
  1 ≤ n.kind.toNat ∧ n.kind.toNat ≤ 15 ∧ n.channel = 0xFF
    ∨ 16 ≤ n.kind.toNat ∧ n.kind.toNat ≤ 29 ∧ (n.channel = 0xFE ∨ n.channel.toNat ≤ 11)

/-- R161, R173, R174, R178: CLEAR FLAGS with ALL clears every flag; with a list of legal names it clears those named, ALL-CHANNELS naming a
flag of every channel, and no others, and leaves the pending pairs; with a name that is not legal anywhere in the list it clears nothing:
the first such name decides between BAD-VALUE and, for a channel above 11, NO-CHANNEL (log 35, DESIGN
CHOICE). SET NOTICE MASK replaces the mask of its
port and drops the pairs of kinds left out; SET ALARM MASK replaces the alarm mask, and ALM is re-evaluated at once. That the answers of
the two carry the values in force is R171; their layout is log 36 (DEDUCED). -/
def Obligations.FlagAndMaskRequestsAct : Prop :=
  ∀ (s : State) (p : SitePort) (tag : Tag), canTake s p →
    (∃ t, exec (.clearFlags p (.formed tag [])) s = .next t ∧ answered s t p tag 0x34 .done []
      ∧ (∀ k, t.deviceFlag k = false) ∧ (∀ k c, t.channelFlag k c = false)
      ∧ OnlyChanges (Instr.clearFlags p (.formed tag [])).reach s t)
    ∧ (∀ xs : List FlagName, xs ≠ [] → (∀ n ∈ xs, legalName n) →
      ∃ t, exec (.clearFlags p (.formed tag xs)) s = .next t ∧ answered s t p tag 0x34 .done []
        ∧ (∀ k, t.deviceFlag k = true ↔ s.deviceFlag k = true ∧ ∀ n ∈ xs, n.kind.toNat ≠ k.kind)
        ∧ (∀ k c, t.channelFlag k c = true ↔ s.channelFlag k c = true
            ∧ ∀ n ∈ xs, ¬(n.kind.toNat = k.kind ∧ (n.channel = 0xFE ∨ n.channel.toNat = c.val)))
        ∧ OnlyChanges (requestParts ++ [.deviceFlags, .alarm] ++ everyChannel fun c => [.channelFlags c]) s t)
    ∧ (∀ (pre post : List FlagName) (n : FlagName), (∀ m ∈ pre, legalName m) →
      (n.kind = 0 ∨ 29 < n.kind.toNat ∨ n.kind.toNat ≤ 15 ∧ n.channel ≠ 0xFF ∨ 16 ≤ n.kind.toNat ∧ n.channel = 0xFF →
        ∃ t, exec (.clearFlags p (.formed tag (pre ++ n :: post))) s = .next t ∧ answered s t p tag 0x34 .badValue []
          ∧ OnlyChanges requestParts s t)
      ∧ (16 ≤ n.kind.toNat → n.kind.toNat ≤ 29 → 11 < n.channel.toNat → n.channel.toNat < 0xFE →
        ∃ t, exec (.clearFlags p (.formed tag (pre ++ n :: post))) s = .next t ∧ answered s t p tag 0x34 .noChannel []
          ∧ OnlyChanges requestParts s t))
    ∧ (∀ m : BitVec 32, m &&& 0xC0000001 = 0 →
      ∃ t, exec (.setNoticeMask p (.formed tag m)) s = .next t
        ∧ t.site p = { s.site p with live := true, timer := s.live.siteTimeout, mask := m,
                                     pairs := (s.site p).pairs.filter (fun q => m.getLsbD q.kind),
                                     answers := (s.site p).answers ++ [⟨tag, 0x35, .done, bytes32 m⟩] }
        ∧ t.site p.other = s.site p.other ∧ OnlyChanges (requestParts ++ [.notices]) s t)
    ∧ (∀ m : BitVec 32, m &&& 0xC0000001 ≠ 0 →
      ∃ t, exec (.setNoticeMask p (.formed tag m)) s = .next t ∧ answered s t p tag 0x35 .badValue [] ∧ OnlyChanges requestParts s t)
    ∧ (∀ (m : BitVec 32) (pol : Option Byte), s.store.save = none → m &&& 0xC0000001 = 0 → (∀ b, pol = some b → b.toNat ≤ 1) →
      ∃ t, exec (.setAlarmMask p (.formed tag ⟨m, pol⟩)) s = .next t
        ∧ answered s t p tag 0x36 .done (bytes32 m ++ nat8 (if t.live.almPolarity = .activeHigh then 0 else 1))
        ∧ t.live = { s.live with
            alarmMask := m
            almPolarity := match pol with | none => s.live.almPolarity | some b => if b = 0 then .activeHigh else .activeLow }
        ∧ t.xps.alarm = t.alarmValue ∧ OnlyChanges (requestParts ++ [.settings, .alarm]) s t)
    ∧ (∀ (m : BitVec 32) (pol : Option Byte), s.store.save = none → (m &&& 0xC0000001 ≠ 0 ∨ ∃ b, pol = some b ∧ 1 < b.toNat) →
      ∃ t, exec (.setAlarmMask p (.formed tag ⟨m, pol⟩)) s = .next t ∧ answered s t p tag 0x36 .badValue []
        ∧ OnlyChanges requestParts s t)


/-! ## Chapter 9: the settings -/

/-- R10, R11, R12: CONFIGURE CADENCE. With a SAVE running it is refused with BUSY; carrying a format or a window item while the cadence
is locked, with LOCKED; with a code out of its table, or a window out of order, with BAD-VALUE. A window that is accepted takes effect in
the live settings, clamped to 2 to 20. A format that differs takes the preset window, empties every page, makes every baseline none, and
puts the reference state in ACQUIRING and the offset state in UNSET with O as it stood; it is in force from the next frame start.
That O is then taken modulo the new week is log 6 (DEDUCED). -/
def Obligations.ConfigureCadenceActs : Prop :=
  ∀ (s : State) (p : SitePort) (tag : Tag) (x : CadenceItems), canTake s p →
    (s.store.save.isSome → ∃ t, exec (.configureCadence p (.formed tag x)) s = .next t
        ∧ answered s t p tag 0x2D .busy [] ∧ OnlyChanges requestParts s t)
    ∧ (s.store.save = none → (x.format.isSome ∨ x.swFirst.isSome ∨ x.swLast.isSome) →
        (s.cdu.manualLock = true ∨ ∃ c, s.isMain c = false) →
      ∃ t, exec (.configureCadence p (.formed tag x)) s = .next t ∧ answered s t p tag 0x2D .locked [] ∧ OnlyChanges requestParts s t)
    ∧ (s.store.save = none → s.cdu.manualLock = false → (∀ c, s.isMain c = true) →
      (∀ a b : Byte, x = ⟨none, some a, some b, none⟩ → clamp 2 20 a.toNat ≤ clamp 2 20 b.toNat →
        ∃ t r, exec (.configureCadence p (.formed tag x)) s = .next t
          ∧ answered s t p tag 0x2D (if 2 ≤ a.toNat ∧ a.toNat ≤ 20 ∧ 2 ≤ b.toNat ∧ b.toNat ≤ 20 then .done else .clamped) r
          ∧ t.live = { s.live with swFirst := clamp 2 20 a.toNat, swLast := clamp 2 20 b.toNat }
          ∧ OnlyChanges (requestParts ++ [.settings]) s t)
      ∧ (∀ a b : Byte, x = ⟨none, some a, some b, none⟩ → clamp 2 20 b.toNat < clamp 2 20 a.toNat →
        ∃ t, exec (.configureCadence p (.formed tag x)) s = .next t ∧ answered s t p tag 0x2D .badValue []
          ∧ OnlyChanges requestParts s t)
      ∧ (∀ b : Byte, x.format = some b → 2 < b.toNat →
        ∃ t, exec (.configureCadence p (.formed tag x)) s = .next t ∧ answered s t p tag 0x2D .badValue []
          ∧ OnlyChanges requestParts s t)
      ∧ (∀ (b : Byte) (f : Format), x = ⟨some b, none, none, none⟩ → b.toNat = formatCode f → f ≠ s.live.format →
        ∃ t r, exec (.configureCadence p (.formed tag x)) s = .next t ∧ answered s t p tag 0x2D .done r
          ∧ t.live = { s.live with format := f, swFirst := (presetWindow f).1, swLast := (presetWindow f).2 }
          ∧ (∀ c, t.pages c = ⟨none, .empty⟩ ∧ t.rpe.baseline[c] = none)
          ∧ t.sst.engine = .idle ∧ t.sst.queue = []
          ∧ t.cdu.refState = .acquiring ∧ t.cdu.qualifying = 0 ∧ t.cdu.refLine = none ∧ t.cdu.phase = .pending
          ∧ t.cdu.now = s.cdu.now ∧ t.cdu.frame = s.cdu.frame ∧ t.format = s.format
          ∧ t.stc = ⟨s.stc.offset, .unset, none, none, 0, none⟩
          ∧ OnlyChanges (Instr.configureCadence p (.formed tag x)).reach s t))
    ∧ (s.store.save = none → ∀ b : Byte, x = ⟨none, none, none, some b⟩ → b.toNat ≤ 1 → s.live.swFirst ≤ s.live.swLast →
        ∃ t r, exec (.configureCadence p (.formed tag x)) s = .next t ∧ answered s t p tag 0x2D .done r
          ∧ t.cdu = { s.cdu with manualLock := b == 1 } ∧ OnlyChanges (requestParts ++ [.cadence]) s t)

/-- R181, R194: the identity-type values that CONFIGURE CHANNEL may carry. -/
def itemsLegal (x : ChannelItems) : Prop :=
  (∀ v, x.enable = some v → v.toNat ≤ 1) ∧ (∀ v, x.policy = some v → v.toNat ≤ 2) ∧ (∀ v, x.destination = some v → v.toNat ≤ 63)
  ∧ (∀ v, x.mainSource = some v → v.toNat ≤ 255) ∧ (∀ v, x.filler = some v → v.toNat ≤ 255 ∨ v = 0xFFFF)
  ∧ (∀ v, x.addressA = some v ∨ x.addressB = some v → 1 ≤ v.toNat ∧ v.toNat ≤ 31)
  ∧ (∀ v, x.sourceA = some v ∨ x.sourceB = some v → v.toNat ≤ 255) ∧ (∀ v, x.tallyPolarity = some v → v.toNat ≤ 1)

/-- R181: no timing-type value that CONFIGURE CHANNEL carries is outside its range; T has the range of its field. -/
def itemsInRange (x : ChannelItems) : Prop :=
  (∀ v, x.cueLead = some v → 2 ≤ v.toNat ∧ v.toNat ≤ 250) ∧ (∀ v, x.minRemain = some v → v.toNat ≤ 250)
  ∧ (∀ v, x.absenceCount = some v → 1 ≤ v.toNat ∧ v.toNat ≤ 8) ∧ (∀ v, x.confirm = some v → 25 ≤ v.toNat ∧ v.toNat ≤ 3000)

/-- R181, R194: a channel's settings with the values that a request carries in them: the codes of 10.3, a filler of FFFFh for none, and
the timing-type values clamped. -/
def itemsApplied (k : ChannelSettings) (x : ChannelItems) : ChannelSettings where
  enabled := match x.enable with | some v => v == 1 | none => k.enabled
  policy := match x.policy with | some v => (if v = 0 then .auto else if v = 1 then .manual else .never) | none => k.policy
  destination := match x.destination with | some v => v.toNat | none => k.destination
  mainSource := match x.mainSource with | some v => v.toNat | none => k.mainSource
  filler := match x.filler with | some v => (if v = 0xFFFF then none else some v.toNat) | none => k.filler
  players :=
    ⟨⟨match x.addressA with | some v => v.toNat | none => k.players.a.address,
      match x.sourceA with | some v => v.toNat | none => k.players.a.source⟩,
     ⟨match x.addressB with | some v => v.toNat | none => k.players.b.address,
      match x.sourceB with | some v => v.toNat | none => k.players.b.source⟩⟩
  cueLead := match x.cueLead with | some v => max 2 (min 250 v.toNat) | none => k.cueLead
  minRemain := match x.minRemain with | some v => min 250 v.toNat | none => k.minRemain
  threshold := match x.threshold with | some v => v.toNat | none => k.threshold
  absenceCount := match x.absenceCount with | some v => max 1 (min 8 v.toNat) | none => k.absenceCount
  confirm := match x.confirm with | some v => max 25 (min 3000 v.toNat) | none => k.confirm
  tallyPolarity := match x.tallyPolarity with | some v => (if v = 0 then .activeHigh else .activeLow) | none => k.tallyPolarity

/-- R96, R137, R170, R171, R181, R182: a configure request in a state that allows it applies every value it carries, a timing-type value
clamped to the nearer end of its range with the answer CLAMPED, and leaves every setting that it does not carry. An identity-type value out
of its range, which for CONFIGURE SCAN is a mode or repeat code above 1 or a mask with one of bits 12 to 15, or two players at one address,
is refused with BAD-VALUE, a sweeping scanner with BUSY, and a channel off MAIN with WRONG-STATE. For CONFIGURE CHANNEL the values in
range are those of itemsLegal and itemsInRange, and itemsApplied gives the settings that they make. A running SAVE refuses each of them with
BUSY, before all of that. A refused request applies nothing. -/
def Obligations.ConfigureRequestsApplyAndClamp : Prop :=
  ∀ (s : State) (p : SitePort) (tag : Tag), canTake s p →
    (∀ x : PortItems, s.store.save = none →
      ∃ t k r, exec (.configurePorts p (.formed tag x)) s = .next t ∧ answered s t p tag 0x2E k r
        ∧ t.live = { s.live with
            hbTimeout := (match x.hbTimeout with | some v => clamp 10 1000 v.toNat | none => s.live.hbTimeout)
            feedDelay := (match x.feedDelay with | some v => clamp 0 15 v.toNat | none => s.live.feedDelay)
            siteTimeout := (match x.siteTimeout with | some v => clamp 25 1500 v.toNat | none => s.live.siteTimeout)
            replyTimeout := (match x.replyTimeout with | some v => clamp 1 8 v.toNat | none => s.live.replyTimeout) }
        ∧ (k = .clamped ∨ k = .done)
        ∧ (k = .done ↔ (∀ v, x.hbTimeout = some v → 10 ≤ v.toNat ∧ v.toNat ≤ 1000) ∧ (∀ v, x.feedDelay = some v → v.toNat ≤ 15)
            ∧ (∀ v, x.siteTimeout = some v → 25 ≤ v.toNat ∧ v.toNat ≤ 1500)
            ∧ (∀ v, x.replyTimeout = some v → 1 ≤ v.toNat ∧ v.toNat ≤ 8))
        ∧ OnlyChanges (requestParts ++ [.settings]) s t)
    ∧ (∀ x : ScanItems, s.store.save = none → s.sup.scan = .idle →
      ((∀ v, x.mode = some v → v.toNat ≤ 1) → (∀ v, x.sweepRepeat = some v → v.toNat ≤ 1) → (∀ m, x.mask = some m → m.toNat < 4096) →
        ∃ t k r, exec (.configureScan p (.formed tag x)) s = .next t ∧ answered s t p tag 0x2F k r
          ∧ (k = .clamped ∨ k = .done) ∧ (k = .done ↔ ∀ v, x.resolution = some v → 9 ≤ v.toNat ∧ v.toNat ≤ 16)
          ∧ t.live = { s.live with
              scanResolution := (match x.resolution with | some v => clamp 9 16 v.toNat | none => s.live.scanResolution)
              scanMode := (match x.mode with | some v => if v = 0 then .sequential else .parallel | none => s.live.scanMode)
              scanRepeat := (match x.sweepRepeat with | some v => v == 1 | none => s.live.scanRepeat)
              scanMask := (match x.mask with | some m => m.setWidth 12 | none => s.live.scanMask) }
          ∧ (∀ (m : BitVec 16) (c : Channel), x.mask = some m → s.live.scanMask.getLsbD c.val = true → m.getLsbD c.val = false →
              (t.watched c).presence = .unscanned ∧ (t.watched c).run = none ∧ (t.watched c).lastCount = none)
          ∧ ((∀ m, x.mask = some m → s.live.scanMask &&& ~~~(m.setWidth 12) = 0) → OnlyChanges (requestParts ++ [.settings]) s t)
          ∧ OnlyChanges (Instr.configureScan p (.formed tag x)).reach s t)
      ∧ ((∃ v, x.mode = some v ∧ 1 < v.toNat) ∨ (∃ v, x.sweepRepeat = some v ∧ 1 < v.toNat) ∨ (∃ m, x.mask = some m ∧ 4096 ≤ m.toNat) →
        onlyAnswered (.configureScan p (.formed tag x)) s p tag 0x2F .badValue))
    ∧ (∀ (x : ScanItems), s.store.save = none → s.sup.scan ≠ .idle → onlyAnswered (.configureScan p (.formed tag x)) s p tag 0x2F .busy)
    ∧ (∀ (ch : Byte) (c : Channel) (x : ChannelItems), ch.toNat = c.val → s.store.save = none →
      let k := itemsApplied (s.cfg c) x
      (s.isMain c = true → itemsLegal x → k.players.a.address ≠ k.players.b.address →
        ∃ t code r, exec (.configureChannel p (.formed tag ⟨ch, x⟩)) s = .next t ∧ answered s t p tag 0x2C code r
          ∧ (code = .clamped ∨ code = .done) ∧ (code = .done ↔ itemsInRange x)
          ∧ t.cfg c = k ∧ (∀ d, d ≠ c → t.cfg d = s.cfg d)
          ∧ (k.enabled = false → (s.cfg c).enabled = true → (t.watched c).health = .unknown)
          ∧ (k.enabled = true → (s.cfg c).enabled = false → (t.watched c).health = (if (s.watched c).heard = true then
              (classOf s.linkUp (s.watched c).latestAir (s.watched c).presence).health (s.watched c).health else (s.watched c).health))
          ∧ (k.enabled = (s.cfg c).enabled → OnlyChanges (requestParts ++ [.settings]) s t)
          ∧ OnlyChanges (requestParts ++ [.settings] ++ healthParts c) s t)
      ∧ (s.isMain c = false → onlyAnswered (.configureChannel p (.formed tag ⟨ch, x⟩)) s p tag 0x2C .wrongState)
      ∧ (s.isMain c = true → (¬ itemsLegal x ∨ k.players.a.address = k.players.b.address) →
        onlyAnswered (.configureChannel p (.formed tag ⟨ch, x⟩)) s p tag 0x2C .badValue))
    ∧ (s.store.save.isSome → ∀ (ch : Byte) (c : Channel) (w : ChannelItems) (x : PortItems) (y : ScanItems) (z : AlarmMaskFields),
      (ch.toNat = c.val → onlyAnswered (.configureChannel p (.formed tag ⟨ch, w⟩)) s p tag 0x2C .busy)
      ∧ onlyAnswered (.configurePorts p (.formed tag x)) s p tag 0x2E .busy
      ∧ onlyAnswered (.configureScan p (.formed tag y)) s p tag 0x2F .busy
      ∧ onlyAnswered (.setAlarmMask p (.formed tag z)) s p tag 0x36 .busy
      ∧ onlyAnswered (.save p (.formed tag ())) s p tag 0x37 .busy)

/-- R67, R74, R81, R97, R103, R110, R138: SCAN START begins a sweep at the next frame start, SCAN STOP ends one at once; FEED ENABLE sets
a feed port's setting, discards its waiting report where it disables, and answers with the port and the setting in force (log 36,
DEDUCED); CLEAR CHANNEL empties both pages of a channel in MAIN, makes
its baseline none and its health UNKNOWN. -/
def Obligations.ScanFeedAndClearRequestsAct : Prop :=
  ∀ (s : State) (p : SitePort) (tag : Tag), canTake s p →
    (s.sup.scan = .idle → s.live.scanMask ≠ 0 →
      ∃ t, exec (.scanStart p (.formed tag ())) s = .next t ∧ answered s t p tag 0x30 .done [] ∧ t.sup.scan = .starting false
        ∧ OnlyChanges (requestParts ++ [.scan]) s t)
    ∧ (s.sup.scan ≠ .idle → ∃ t, exec (.scanStart p (.formed tag ())) s = .next t
        ∧ answered s t p tag 0x30 .busy [] ∧ OnlyChanges requestParts s t)
    ∧ (s.sup.scan = .idle → s.live.scanMask = 0 → ∃ t, exec (.scanStart p (.formed tag ())) s = .next t
        ∧ answered s t p tag 0x30 .notReady [] ∧ OnlyChanges requestParts s t)
    ∧ (∃ t, exec (.scanStop p (.formed tag ())) s = .next t ∧ answered s t p tag 0x31 .done [] ∧ t.sup.scan = .idle
        ∧ OnlyChanges (requestParts ++ [.scan]) s t)
    ∧ (∀ (q : FeedPort) (pb v : Byte), (pb = 0 ∧ q = .A ∨ pb = 1 ∧ q = .B) → v.toNat ≤ 1 →
      ∃ t, exec (.feedEnable p (.formed tag ⟨pb, v⟩)) s = .next t
        ∧ (t.site p).answers = (s.site p).answers ++ [⟨tag, 0x32, .done, [pb, v]⟩]
        ∧ ((t.feed q).enabled = true ↔ v = 1) ∧ (t.feed q).queue = (s.feed q).queue
        ∧ (t.feed q).tx.sending = (s.feed q).tx.sending
        ∧ (t.feed q).tx.waiting = (if v = 0 ∧ (s.feed q).enabled = true then none else (s.feed q).tx.waiting)
        ∧ t.feed q.other = s.feed q.other
        ∧ (v = 1 → (s.feed q).enabled = false → t.rx.get (feedLine q) = .waiting)
        ∧ OnlyChanges (requestParts ++ [.intake, .reports]) s t)
    ∧ (∀ pb v : Byte, (1 < pb.toNat ∨ 1 < v.toNat) → ∃ t, exec (.feedEnable p (.formed tag ⟨pb, v⟩)) s = .next t
        ∧ answered s t p tag 0x32 .badValue [] ∧ OnlyChanges requestParts s t)
    ∧ (∀ (ch : Byte) (c : Channel), ch.toNat = c.val → s.isMain c = true →
      ∃ t, exec (.clearChannel p (.formed tag ch)) s = .next t ∧ answered s t p tag 0x33 .done []
        ∧ t.pages c = ⟨none, .empty⟩ ∧ t.rpe.baseline[c] = none ∧ t.sst.queue = s.sst.queue.filter (· != c)
        ∧ t.watched c = { s.watched c with heard := false, health := .unknown,
                                           confirm := if (s.watched c).health = .unknown then (s.watched c).confirm else 0 }
        ∧ t.authority c = .main ∧ t.channelFlag .flipMissed c = s.channelFlag .flipMissed c
        ∧ OnlyChanges (requestParts ++ [.engine, .reports, .pages c, .baseline c, .watched c] ++ flagParts c) s t)
    ∧ (∀ (ch : Byte) (c : Channel), ch.toNat = c.val → s.isMain c = false →
      ∃ t, exec (.clearChannel p (.formed tag ch)) s = .next t ∧ answered s t p tag 0x33 .wrongState []
        ∧ OnlyChanges requestParts s t)

/-- R182, R183: SAVE copies the live settings as they stand, for the bank that is not current, with the generation one above the current
bank's, or for bank 0 with generation 1 on factory defaults, and runs for 50 frame starts. The copy is a valid image, from which a reset
loads the same settings again (R180, R194). At its end the written bank becomes current
where it reads back as the copy, and otherwise the outcome is FAILED and the current bank stays as it was. -/
def Obligations.SaveWritesTheOtherBank : Prop :=
  ∀ (s : State) (p : SitePort) (tag : Tag),
    (canTake s p → s.store.save = none →
      ∃ t j, exec (.save p (.formed tag ())) s = .next t ∧ answered s t p tag 0x37 .done []
        ∧ t.store = { s.store with save := some j } ∧ j.content.image = storeImage s.live ∧ j.left = 50
        ∧ (s.SettingsLegal → imageValid j.content.image = true ∧ loadImage j.content.image = s.live)
        ∧ (s.store.current = none → j.bank = .A ∧ j.content.generation = 1)
        ∧ (∀ b k, s.store.current = some b → s.store.banks.get b = some k → j.bank = b.other ∧ j.content.generation = k.generation + 1)
        ∧ OnlyChanges (requestParts ++ [.store]) s t)
    ∧ (∀ j, s.power = .running → s.store.save = some j → j.left = 0 →
      (∃ t, exec (.saveComplete (some j.content)) s = .next t
        ∧ t.store.current = some j.bank ∧ t.store.banks.get j.bank = some j.content
        ∧ t.store.banks.get j.bank.other = s.store.banks.get j.bank.other
        ∧ t.store.outcome = .complete ∧ t.store.defaulted = false ∧ t.store.save = none ∧ OnlyChanges [.store] s t)
      ∧ ∀ r, r ≠ some j.content →
        ∃ t, exec (.saveComplete r) s = .next t ∧ t.store.current = s.store.current ∧ t.store.outcome = .failed
          ∧ t.store.defaulted = s.store.defaulted ∧ t.store.save = none
          ∧ t.store.banks.get j.bank.other = s.store.banks.get j.bank.other ∧ OnlyChanges [.store] s t)

/-- R13, R21, R67, R90, R94, R104, R110, R112, R163, R179, R186, R187: at a power-on reset, and at an accepted NRST, every block takes its
reset values over the settings that are loaded, and the part is held, its outputs undriven, until the reset ends, when it runs with the frame of local count 0.
(A bank whose writing the reset cuts short is the free value of log 4. That the reset values stand from the beginning of the reset, and
that RESET_END releases NRST, is log 11, DEDUCED.) -/
def Obligations.ResetsReturnEveryBlock : Prop :=
  (∀ (s : State) (i : Instr), (i = .powerOnReset ∨ i = .nrstAccepted) →
    ∃ t, exec i s = .next t ∧ t.power = .held
      ∧ t.cdu.now = 0 ∧ t.cdu.line = 1 ∧ t.cdu.refState = .acquiring ∧ t.cdu.qualifying = 0 ∧ t.cdu.refLine = none
      ∧ t.cdu.phase = .pending ∧ t.cdu.manualLock = false
      ∧ t.cdu.frame = ⟨t.live.format, t.live.swFirst, t.live.swLast⟩
      ∧ t.stc = ⟨0, .unset, none, none, 0, none⟩
      ∧ (∀ c, t.pages c = ⟨none, .empty⟩) ∧ t.sst.engine = .idle ∧ t.sst.queue = []
      ∧ (∀ q, t.feed q = ⟨[], true, ⟨none, none⟩⟩) ∧ t.rpe.turn = .A ∧ (∀ c : Channel, t.rpe.baseline[c] = none)
      ∧ t.rpe.reportTimer = 25
      ∧ (∀ q, t.sup.watch.get q = ⟨false, 0⟩) ∧ t.sup.scan = .idle ∧ t.sup.key = ⟨false, 0⟩
      ∧ (∀ c, t.watched c = ⟨.unscanned, none, none, false, .unknown, 0, none, none⟩)
      ∧ (∀ c, t.authority c = .main) ∧ t.cus.queue = [] ∧ t.cus.txn = none
      ∧ (∀ c, (t.cue c).players = ⟨.idle, .idle⟩ ∧ (t.cue c).lastClip = none ∧ (t.cue c).anchor = none ∧ (t.cue c).planned = []
          ∧ (t.cue c).exhausted = false)
      ∧ t.xps.pending = [] ∧ t.xps.awaiting = [] ∧ (∀ n, t.lastAckOf n = none) ∧ (∀ c : Channel, t.xps.tally[c] = false)
      ∧ t.xps.alarm = false
      ∧ (∀ q, t.site q = ⟨false, 0, [], none, 0, []⟩) ∧ (∀ k, t.deviceFlag k = false) ∧ (∀ k c, t.channelFlag k c = false)
      ∧ t.store.save = none ∧ t.store.outcome = .none ∧ t.store.nrstCount = 0
      ∧ (∀ l, t.rx.get l = .waiting) ∧ (∀ c, t.tallyLevel c = none) ∧ t.alarmLevel = none
      ∧ t.pending = s.pending ∧ t.incoming = s.incoming)
  ∧ (∀ s : State, s.power = .held →
    exec .resetEnd s = .next { s with power := .running, pins := { s.pins with nrst := false } })

/-- R184: the image that a reset loads, with no SAVE running: of two valid banks the newer, and bank 0 where neither is newer; of one, that
one; and with none the factory defaults, with SETTINGS-DEFAULTED. R183: a reset that cuts a SAVE short leaves the other bank as it
was. -/
def Obligations.ResetLoadsTheNewerBank : Prop :=
  ∀ (s : State) (i : Instr), (i = .powerOnReset ∨ i = .nrstAccepted) →
    (s.store.save = none →
      ∃ t, exec i s = .next t ∧ t.store.banks = s.store.banks
        ∧ (∀ x y, s.store.banks = ⟨some x, some y⟩ → imageValid x.image = true → imageValid y.image = true →
          (1 ≤ (y.generation - x.generation).toNat ∧ (y.generation - x.generation).toNat ≤ 32767 →
            t.live = loadImage y.image ∧ t.store.current = some .B ∧ t.store.defaulted = false)
          ∧ (y.generation = x.generation ∨ 32768 ≤ (y.generation - x.generation).toNat →
            t.live = loadImage x.image ∧ t.store.current = some .A ∧ t.store.defaulted = false))
        ∧ (∀ b x, s.store.banks.get b = some x → imageValid x.image = true →
          (∀ y, s.store.banks.get b.other = some y → imageValid y.image = false) →
          t.live = loadImage x.image ∧ t.store.current = some b ∧ t.store.defaulted = false)
        ∧ ((∀ b y, s.store.banks.get b = some y → imageValid y.image = false) →
          t.live = factorySettings ∧ t.store.current = none ∧ t.store.defaulted = true))
    ∧ (∀ j, s.store.save = some j →
      ∃ t, exec i s = .next t ∧ t.store.banks.get j.bank.other = s.store.banks.get j.bank.other
        ∧ (t.store.banks.get j.bank = s.store.banks.get j.bank ∨ t.store.banks.get j.bank = none))

/-! ## Chapter 10: the formats -/

/-- R190, R192: what a controller encodes for a formed, well-formed request is decoded to that request, with every field at every value,
at its port; and at the other port the same bytes spell the same request. -/
def Obligations.SiteRequestsDecodeAsEncoded : Prop :=
  ∀ (i : Instr) (code : Byte) (body : List Byte), i.wellFormed = true → siteBytes i = some (code, body) →
    (∃ p, siteCommand p code body = i) ∧ ∀ q, siteBytes (siteCommand q code body) = some (code, body)

/-- The clip id of a frame's event record, where it has one, is within its length field (10.2). -/
def clipsFit : FeedFrame → Prop
  | .replication _ _ (.event r) => r.clipId.length ≤ 255
  | .replication _ _ (.edit (.insertAfter _ r)) => r.clipId.length ≤ 255
  | .replication _ _ (.edit (.replace _ r)) => r.clipId.length ≤ 255
  | .replication _ _ (.edit (.delete _)) => True
  | .replication _ _ (.listBegin _ _ _) => True
  | .replication _ _ (.listEnd _ _) => True
  | .replication _ _ .listAbort => True
  | .replication _ _ (.flip _) => True
  | .heartbeat _ => True

/-- R69, R190, R191: what the main site encodes for a replication frame or a heartbeat is decoded to that frame, with every field at
every value. -/
def Obligations.FeedFramesDecodeAsEncoded : Prop :=
  ∀ x : FeedFrame, clipsFit x → feedFrame (feedFrameBytes x).1 (feedFrameBytes x).2 = some x
end

