-- ==== Sys2Proof/Laws/Containers.lean ====
section
/-! SUPPORT. Reading the two-sided and the twelve-channel containers after an update. -/

namespace Sys2Proof

/-! ## The twelve channels -/

theorem mem_channels (c : Channel) : c ∈ channels := by revert c; decide

theorem channels_nodup : channels.Nodup := by decide

@[simp] theorem PerChannel.get_put_self {α : Type} (v : PerChannel α) (c : Channel) (x : α) :
    (PerChannel.put v c x)[(c : Nat)] = x := by
  simp [PerChannel.put]

theorem PerChannel.get_put {α : Type} (v : PerChannel α) (c d : Channel) (x : α) :
    (PerChannel.put v c x)[d] = if d = c then x else v[d] := by
  split
  · next h => subst h; exact PerChannel.get_put_self v d x
  · next h =>
    have h' : c.val ≠ d.val := fun e => h (Fin.ext e.symm)
    simp [PerChannel.put, h']

theorem PerChannel.get_put_ne {α : Type} (v : PerChannel α) (c d : Channel) (x : α) (h : d ≠ c) :
    (PerChannel.put v c x)[d] = v[d] := by
  rw [PerChannel.get_put, if_neg h]

@[simp] theorem PerChannel.get_same {α : Type} (x : α) (c : Channel) : (PerChannel.same x)[(c : Nat)] = x := by
  simp [PerChannel.same]

@[simp] theorem PerChannel.get_mapAll {α β : Type} (f : α → β) (v : PerChannel α) (c : Channel) :
    (PerChannel.mapAll f v)[(c : Nat)] = f v[(c : Nat)] := by
  simp [PerChannel.mapAll]

@[simp] theorem PerChannel.get_build {α : Type} (f : Channel → α) (c : Channel) :
    (PerChannel.build f)[(c : Nat)] = f c := by
  revert c
  simp [PerChannel.build, channels, Fin.forall_fin_succ]

theorem PerChannel.ext {α : Type} (v w : PerChannel α) (h : ∀ c : Channel, v[c] = w[c]) : v = w := by
  apply Vector.ext
  intro i hi
  exact h ⟨i, hi⟩

@[simp] theorem PerChannel.put_put {α : Type} (v : PerChannel α) (c : Channel) (x y : α) :
    PerChannel.put (PerChannel.put v c x) c y = PerChannel.put v c y := by
  apply PerChannel.ext
  intro d
  simp only [PerChannel.get_put]
  split <;> rfl

@[simp] theorem PerChannel.put_get {α : Type} (v : PerChannel α) (c : Channel) : PerChannel.put v c v[(c : Nat)] = v := by
  apply PerChannel.ext
  intro d
  rw [PerChannel.get_put]
  split
  · next h => rw [h]; rfl
  · rfl

/-! ## Two sides -/

@[simp] theorem PerSide.get_put_self {α : Type} (v : PerSide α) (p : Side) (x : α) : (v.put p x).get p = x := by
  cases p <;> rfl

theorem PerSide.get_put_ne {α : Type} (v : PerSide α) (p q : Side) (x : α) (h : q ≠ p) : (v.put p x).get q = v.get q := by
  cases p <;> cases q <;> first | rfl | exact absurd rfl h

theorem PerSide.get_put {α : Type} (v : PerSide α) (p q : Side) (x : α) :
    (v.put p x).get q = if q = p then x else v.get q := by
  cases p <;> cases q <;> rfl

@[simp] theorem PerSide.get_map {α β : Type} (f : α → β) (v : PerSide α) (p : Side) : (v.map f).get p = f (v.get p) := by
  cases p <;> rfl

@[simp] theorem PerSide.get_same {α : Type} (x : α) (p : Side) : (PerSide.same x).get p = x := by cases p <;> rfl

theorem PerSide.ext_get {α : Type} (v w : PerSide α) (h : ∀ p, v.get p = w.get p) : v = w := by
  cases v
  cases w
  exact congr (congrArg PerSide.mk (h .A)) (h .B)

end Sys2Proof
end

