-- ==== Sys2Proof/Laws/State.lean ====
section
/-! SUPPORT. The plain updates of the state, field by field: what each leaves as it was, and what it writes. -/

namespace Sys2Proof.Machine

/-! ## State.putAuthority -/

@[simp] theorem State.putAuthority_power (s : State) (c : Channel) (r : Authority) : (s.putAuthority c r).power = s.power := rfl
@[simp] theorem State.putAuthority_pins (s : State) (c : Channel) (r : Authority) : (s.putAuthority c r).pins = s.pins := rfl
@[simp] theorem State.putAuthority_live (s : State) (c : Channel) (r : Authority) : (s.putAuthority c r).live = s.live := rfl
@[simp] theorem State.putAuthority_cdu (s : State) (c : Channel) (r : Authority) : (s.putAuthority c r).cdu = s.cdu := rfl
@[simp] theorem State.putAuthority_stc (s : State) (c : Channel) (r : Authority) : (s.putAuthority c r).stc = s.stc := rfl
@[simp] theorem State.putAuthority_sst (s : State) (c : Channel) (r : Authority) : (s.putAuthority c r).sst = s.sst := rfl
@[simp] theorem State.putAuthority_rpe (s : State) (c : Channel) (r : Authority) : (s.putAuthority c r).rpe = s.rpe := rfl
@[simp] theorem State.putAuthority_sup (s : State) (c : Channel) (r : Authority) : (s.putAuthority c r).sup = s.sup := rfl
@[simp] theorem State.putAuthority_aut (s : State) (c : Channel) (r : Authority) :
    (s.putAuthority c r).aut = PerChannel.put s.aut c r := rfl
@[simp] theorem State.putAuthority_cus (s : State) (c : Channel) (r : Authority) : (s.putAuthority c r).cus = s.cus := rfl
@[simp] theorem State.putAuthority_xps (s : State) (c : Channel) (r : Authority) : (s.putAuthority c r).xps = s.xps := rfl
@[simp] theorem State.putAuthority_sli (s : State) (c : Channel) (r : Authority) : (s.putAuthority c r).sli = s.sli := rfl
@[simp] theorem State.putAuthority_store (s : State) (c : Channel) (r : Authority) : (s.putAuthority c r).store = s.store := rfl
@[simp] theorem State.putAuthority_rx (s : State) (c : Channel) (r : Authority) : (s.putAuthority c r).rx = s.rx := rfl
@[simp] theorem State.putAuthority_incoming (s : State) (c : Channel) (r : Authority) : (s.putAuthority c r).incoming = s.incoming := rfl
@[simp] theorem State.putAuthority_freeUsed (s : State) (c : Channel) (r : Authority) : (s.putAuthority c r).freeUsed = s.freeUsed := rfl
@[simp] theorem State.putAuthority_pending (s : State) (c : Channel) (r : Authority) : (s.putAuthority c r).pending = s.pending := rfl
@[simp] theorem State.putAuthority_now (s : State) (c : Channel) (r : Authority) :
    (s.putAuthority c r).now = s.now := rfl
@[simp] theorem State.putAuthority_format (s : State) (c : Channel) (r : Authority) :
    (s.putAuthority c r).format = s.format := rfl
@[simp] theorem State.putAuthority_cfg (s : State) (c : Channel) (r : Authority) (d : Channel) :
    (s.putAuthority c r).cfg d = s.cfg d := rfl
@[simp] theorem State.putAuthority_cue (s : State) (c : Channel) (r : Authority) (d : Channel) :
    (s.putAuthority c r).cue d = s.cue d := rfl
@[simp] theorem State.putAuthority_watched (s : State) (c : Channel) (r : Authority) (d : Channel) :
    (s.putAuthority c r).watched d = s.watched d := rfl
@[simp] theorem State.putAuthority_pages (s : State) (c : Channel) (r : Authority) (d : Channel) :
    (s.putAuthority c r).pages d = s.pages d := rfl
@[simp] theorem State.putAuthority_site (s : State) (c : Channel) (r : Authority) (q : Side) :
    (s.putAuthority c r).site q = s.site q := rfl
@[simp] theorem State.putAuthority_feed (s : State) (c : Channel) (r : Authority) (q : Side) :
    (s.putAuthority c r).feed q = s.feed q := rfl
@[simp] theorem State.putAuthority_linkUp (s : State) (c : Channel) (r : Authority) :
    (s.putAuthority c r).linkUp = s.linkUp := rfl
@[simp] theorem State.putAuthority_deviceFlag (s : State) (c : Channel) (r : Authority) (f : DeviceFlag) :
    (s.putAuthority c r).deviceFlag f = s.deviceFlag f := rfl
@[simp] theorem State.putAuthority_channelFlag (s : State) (c : Channel) (r : Authority) (g : ChannelFlag) (d : Channel) :
    (s.putAuthority c r).channelFlag g d = s.channelFlag g d := rfl
@[simp] theorem State.putAuthority_lastAckOf (s : State) (c : Channel) (r : Authority) (n : Nat) :
    (s.putAuthority c r).lastAckOf n = s.lastAckOf n := rfl
@[simp] theorem State.putAuthority_engineRunning (s : State) (c : Channel) (r : Authority) :
    (s.putAuthority c r).engineRunning = s.engineRunning := rfl
@[simp] theorem State.putAuthority_saving (s : State) (c : Channel) (r : Authority) :
    (s.putAuthority c r).saving = s.saving := rfl

/-! ## State.putCue -/

@[simp] theorem State.putCue_power (s : State) (c : Channel) (k : CueChannel) : (s.putCue c k).power = s.power := rfl
@[simp] theorem State.putCue_pins (s : State) (c : Channel) (k : CueChannel) : (s.putCue c k).pins = s.pins := rfl
@[simp] theorem State.putCue_live (s : State) (c : Channel) (k : CueChannel) : (s.putCue c k).live = s.live := rfl
@[simp] theorem State.putCue_cdu (s : State) (c : Channel) (k : CueChannel) : (s.putCue c k).cdu = s.cdu := rfl
@[simp] theorem State.putCue_stc (s : State) (c : Channel) (k : CueChannel) : (s.putCue c k).stc = s.stc := rfl
@[simp] theorem State.putCue_sst (s : State) (c : Channel) (k : CueChannel) : (s.putCue c k).sst = s.sst := rfl
@[simp] theorem State.putCue_rpe (s : State) (c : Channel) (k : CueChannel) : (s.putCue c k).rpe = s.rpe := rfl
@[simp] theorem State.putCue_sup (s : State) (c : Channel) (k : CueChannel) : (s.putCue c k).sup = s.sup := rfl
@[simp] theorem State.putCue_aut (s : State) (c : Channel) (k : CueChannel) : (s.putCue c k).aut = s.aut := rfl
@[simp] theorem State.putCue_cus (s : State) (c : Channel) (k : CueChannel) :
    (s.putCue c k).cus = { s.cus with channel := PerChannel.put s.cus.channel c k } := rfl
@[simp] theorem State.putCue_xps (s : State) (c : Channel) (k : CueChannel) : (s.putCue c k).xps = s.xps := rfl
@[simp] theorem State.putCue_sli (s : State) (c : Channel) (k : CueChannel) : (s.putCue c k).sli = s.sli := rfl
@[simp] theorem State.putCue_store (s : State) (c : Channel) (k : CueChannel) : (s.putCue c k).store = s.store := rfl
@[simp] theorem State.putCue_rx (s : State) (c : Channel) (k : CueChannel) : (s.putCue c k).rx = s.rx := rfl
@[simp] theorem State.putCue_incoming (s : State) (c : Channel) (k : CueChannel) : (s.putCue c k).incoming = s.incoming := rfl
@[simp] theorem State.putCue_freeUsed (s : State) (c : Channel) (k : CueChannel) : (s.putCue c k).freeUsed = s.freeUsed := rfl
@[simp] theorem State.putCue_pending (s : State) (c : Channel) (k : CueChannel) : (s.putCue c k).pending = s.pending := rfl
@[simp] theorem State.putCue_now (s : State) (c : Channel) (k : CueChannel) :
    (s.putCue c k).now = s.now := rfl
@[simp] theorem State.putCue_format (s : State) (c : Channel) (k : CueChannel) :
    (s.putCue c k).format = s.format := rfl
@[simp] theorem State.putCue_cfg (s : State) (c : Channel) (k : CueChannel) (d : Channel) :
    (s.putCue c k).cfg d = s.cfg d := rfl
@[simp] theorem State.putCue_authority (s : State) (c : Channel) (k : CueChannel) (d : Channel) :
    (s.putCue c k).authority d = s.authority d := rfl
@[simp] theorem State.putCue_isMain (s : State) (c : Channel) (k : CueChannel) (d : Channel) :
    (s.putCue c k).isMain d = s.isMain d := rfl
@[simp] theorem State.putCue_watched (s : State) (c : Channel) (k : CueChannel) (d : Channel) :
    (s.putCue c k).watched d = s.watched d := rfl
@[simp] theorem State.putCue_pages (s : State) (c : Channel) (k : CueChannel) (d : Channel) :
    (s.putCue c k).pages d = s.pages d := rfl
@[simp] theorem State.putCue_site (s : State) (c : Channel) (k : CueChannel) (q : Side) :
    (s.putCue c k).site q = s.site q := rfl
@[simp] theorem State.putCue_feed (s : State) (c : Channel) (k : CueChannel) (q : Side) :
    (s.putCue c k).feed q = s.feed q := rfl
@[simp] theorem State.putCue_linkUp (s : State) (c : Channel) (k : CueChannel) :
    (s.putCue c k).linkUp = s.linkUp := rfl
@[simp] theorem State.putCue_deviceFlag (s : State) (c : Channel) (k : CueChannel) (f : DeviceFlag) :
    (s.putCue c k).deviceFlag f = s.deviceFlag f := rfl
@[simp] theorem State.putCue_channelFlag (s : State) (c : Channel) (k : CueChannel) (g : ChannelFlag) (d : Channel) :
    (s.putCue c k).channelFlag g d = s.channelFlag g d := rfl
@[simp] theorem State.putCue_lastAckOf (s : State) (c : Channel) (k : CueChannel) (n : Nat) :
    (s.putCue c k).lastAckOf n = s.lastAckOf n := rfl
@[simp] theorem State.putCue_engineRunning (s : State) (c : Channel) (k : CueChannel) :
    (s.putCue c k).engineRunning = s.engineRunning := rfl
@[simp] theorem State.putCue_saving (s : State) (c : Channel) (k : CueChannel) :
    (s.putCue c k).saving = s.saving := rfl

/-! ## State.putWatched -/

@[simp] theorem State.putWatched_power (s : State) (c : Channel) (k : SupChannel) : (s.putWatched c k).power = s.power := rfl
@[simp] theorem State.putWatched_pins (s : State) (c : Channel) (k : SupChannel) : (s.putWatched c k).pins = s.pins := rfl
@[simp] theorem State.putWatched_live (s : State) (c : Channel) (k : SupChannel) : (s.putWatched c k).live = s.live := rfl
@[simp] theorem State.putWatched_cdu (s : State) (c : Channel) (k : SupChannel) : (s.putWatched c k).cdu = s.cdu := rfl
@[simp] theorem State.putWatched_stc (s : State) (c : Channel) (k : SupChannel) : (s.putWatched c k).stc = s.stc := rfl
@[simp] theorem State.putWatched_sst (s : State) (c : Channel) (k : SupChannel) : (s.putWatched c k).sst = s.sst := rfl
@[simp] theorem State.putWatched_rpe (s : State) (c : Channel) (k : SupChannel) : (s.putWatched c k).rpe = s.rpe := rfl
@[simp] theorem State.putWatched_sup (s : State) (c : Channel) (k : SupChannel) :
    (s.putWatched c k).sup = { s.sup with channel := PerChannel.put s.sup.channel c k } := rfl
@[simp] theorem State.putWatched_aut (s : State) (c : Channel) (k : SupChannel) : (s.putWatched c k).aut = s.aut := rfl
@[simp] theorem State.putWatched_cus (s : State) (c : Channel) (k : SupChannel) : (s.putWatched c k).cus = s.cus := rfl
@[simp] theorem State.putWatched_xps (s : State) (c : Channel) (k : SupChannel) : (s.putWatched c k).xps = s.xps := rfl
@[simp] theorem State.putWatched_sli (s : State) (c : Channel) (k : SupChannel) : (s.putWatched c k).sli = s.sli := rfl
@[simp] theorem State.putWatched_store (s : State) (c : Channel) (k : SupChannel) : (s.putWatched c k).store = s.store := rfl
@[simp] theorem State.putWatched_rx (s : State) (c : Channel) (k : SupChannel) : (s.putWatched c k).rx = s.rx := rfl
@[simp] theorem State.putWatched_incoming (s : State) (c : Channel) (k : SupChannel) : (s.putWatched c k).incoming = s.incoming := rfl
@[simp] theorem State.putWatched_freeUsed (s : State) (c : Channel) (k : SupChannel) : (s.putWatched c k).freeUsed = s.freeUsed := rfl
@[simp] theorem State.putWatched_pending (s : State) (c : Channel) (k : SupChannel) : (s.putWatched c k).pending = s.pending := rfl
@[simp] theorem State.putWatched_now (s : State) (c : Channel) (k : SupChannel) :
    (s.putWatched c k).now = s.now := rfl
@[simp] theorem State.putWatched_format (s : State) (c : Channel) (k : SupChannel) :
    (s.putWatched c k).format = s.format := rfl
@[simp] theorem State.putWatched_cfg (s : State) (c : Channel) (k : SupChannel) (d : Channel) :
    (s.putWatched c k).cfg d = s.cfg d := rfl
@[simp] theorem State.putWatched_authority (s : State) (c : Channel) (k : SupChannel) (d : Channel) :
    (s.putWatched c k).authority d = s.authority d := rfl
@[simp] theorem State.putWatched_isMain (s : State) (c : Channel) (k : SupChannel) (d : Channel) :
    (s.putWatched c k).isMain d = s.isMain d := rfl
@[simp] theorem State.putWatched_cue (s : State) (c : Channel) (k : SupChannel) (d : Channel) :
    (s.putWatched c k).cue d = s.cue d := rfl
@[simp] theorem State.putWatched_pages (s : State) (c : Channel) (k : SupChannel) (d : Channel) :
    (s.putWatched c k).pages d = s.pages d := rfl
@[simp] theorem State.putWatched_site (s : State) (c : Channel) (k : SupChannel) (q : Side) :
    (s.putWatched c k).site q = s.site q := rfl
@[simp] theorem State.putWatched_feed (s : State) (c : Channel) (k : SupChannel) (q : Side) :
    (s.putWatched c k).feed q = s.feed q := rfl
@[simp] theorem State.putWatched_linkUp (s : State) (c : Channel) (k : SupChannel) :
    (s.putWatched c k).linkUp = s.linkUp := rfl
@[simp] theorem State.putWatched_deviceFlag (s : State) (c : Channel) (k : SupChannel) (f : DeviceFlag) :
    (s.putWatched c k).deviceFlag f = s.deviceFlag f := rfl
@[simp] theorem State.putWatched_channelFlag (s : State) (c : Channel) (k : SupChannel) (g : ChannelFlag) (d : Channel) :
    (s.putWatched c k).channelFlag g d = s.channelFlag g d := rfl
@[simp] theorem State.putWatched_lastAckOf (s : State) (c : Channel) (k : SupChannel) (n : Nat) :
    (s.putWatched c k).lastAckOf n = s.lastAckOf n := rfl
@[simp] theorem State.putWatched_engineRunning (s : State) (c : Channel) (k : SupChannel) :
    (s.putWatched c k).engineRunning = s.engineRunning := rfl
@[simp] theorem State.putWatched_saving (s : State) (c : Channel) (k : SupChannel) :
    (s.putWatched c k).saving = s.saving := rfl

/-! ## State.putPages -/

@[simp] theorem State.putPages_power (s : State) (c : Channel) (k : Pages) : (s.putPages c k).power = s.power := rfl
@[simp] theorem State.putPages_pins (s : State) (c : Channel) (k : Pages) : (s.putPages c k).pins = s.pins := rfl
@[simp] theorem State.putPages_live (s : State) (c : Channel) (k : Pages) : (s.putPages c k).live = s.live := rfl
@[simp] theorem State.putPages_cdu (s : State) (c : Channel) (k : Pages) : (s.putPages c k).cdu = s.cdu := rfl
@[simp] theorem State.putPages_stc (s : State) (c : Channel) (k : Pages) : (s.putPages c k).stc = s.stc := rfl
@[simp] theorem State.putPages_sst (s : State) (c : Channel) (k : Pages) :
    (s.putPages c k).sst = { s.sst with pages := PerChannel.put s.sst.pages c k } := rfl
@[simp] theorem State.putPages_rpe (s : State) (c : Channel) (k : Pages) : (s.putPages c k).rpe = s.rpe := rfl
@[simp] theorem State.putPages_sup (s : State) (c : Channel) (k : Pages) : (s.putPages c k).sup = s.sup := rfl
@[simp] theorem State.putPages_aut (s : State) (c : Channel) (k : Pages) : (s.putPages c k).aut = s.aut := rfl
@[simp] theorem State.putPages_cus (s : State) (c : Channel) (k : Pages) : (s.putPages c k).cus = s.cus := rfl
@[simp] theorem State.putPages_xps (s : State) (c : Channel) (k : Pages) : (s.putPages c k).xps = s.xps := rfl
@[simp] theorem State.putPages_sli (s : State) (c : Channel) (k : Pages) : (s.putPages c k).sli = s.sli := rfl
@[simp] theorem State.putPages_store (s : State) (c : Channel) (k : Pages) : (s.putPages c k).store = s.store := rfl
@[simp] theorem State.putPages_rx (s : State) (c : Channel) (k : Pages) : (s.putPages c k).rx = s.rx := rfl
@[simp] theorem State.putPages_incoming (s : State) (c : Channel) (k : Pages) : (s.putPages c k).incoming = s.incoming := rfl
@[simp] theorem State.putPages_freeUsed (s : State) (c : Channel) (k : Pages) : (s.putPages c k).freeUsed = s.freeUsed := rfl
@[simp] theorem State.putPages_pending (s : State) (c : Channel) (k : Pages) : (s.putPages c k).pending = s.pending := rfl
@[simp] theorem State.putPages_now (s : State) (c : Channel) (k : Pages) :
    (s.putPages c k).now = s.now := rfl
@[simp] theorem State.putPages_format (s : State) (c : Channel) (k : Pages) :
    (s.putPages c k).format = s.format := rfl
@[simp] theorem State.putPages_cfg (s : State) (c : Channel) (k : Pages) (d : Channel) :
    (s.putPages c k).cfg d = s.cfg d := rfl
@[simp] theorem State.putPages_authority (s : State) (c : Channel) (k : Pages) (d : Channel) :
    (s.putPages c k).authority d = s.authority d := rfl
@[simp] theorem State.putPages_isMain (s : State) (c : Channel) (k : Pages) (d : Channel) :
    (s.putPages c k).isMain d = s.isMain d := rfl
@[simp] theorem State.putPages_cue (s : State) (c : Channel) (k : Pages) (d : Channel) :
    (s.putPages c k).cue d = s.cue d := rfl
@[simp] theorem State.putPages_watched (s : State) (c : Channel) (k : Pages) (d : Channel) :
    (s.putPages c k).watched d = s.watched d := rfl
@[simp] theorem State.putPages_site (s : State) (c : Channel) (k : Pages) (q : Side) :
    (s.putPages c k).site q = s.site q := rfl
@[simp] theorem State.putPages_feed (s : State) (c : Channel) (k : Pages) (q : Side) :
    (s.putPages c k).feed q = s.feed q := rfl
@[simp] theorem State.putPages_linkUp (s : State) (c : Channel) (k : Pages) :
    (s.putPages c k).linkUp = s.linkUp := rfl
@[simp] theorem State.putPages_deviceFlag (s : State) (c : Channel) (k : Pages) (f : DeviceFlag) :
    (s.putPages c k).deviceFlag f = s.deviceFlag f := rfl
@[simp] theorem State.putPages_channelFlag (s : State) (c : Channel) (k : Pages) (g : ChannelFlag) (d : Channel) :
    (s.putPages c k).channelFlag g d = s.channelFlag g d := rfl
@[simp] theorem State.putPages_lastAckOf (s : State) (c : Channel) (k : Pages) (n : Nat) :
    (s.putPages c k).lastAckOf n = s.lastAckOf n := rfl
@[simp] theorem State.putPages_engineRunning (s : State) (c : Channel) (k : Pages) :
    (s.putPages c k).engineRunning = s.engineRunning := rfl
@[simp] theorem State.putPages_saving (s : State) (c : Channel) (k : Pages) :
    (s.putPages c k).saving = s.saving := rfl

/-! ## State.putActive -/

@[simp] theorem State.putActive_power (s : State) (c : Channel) (k : Option Page) : (s.putActive c k).power = s.power := rfl
@[simp] theorem State.putActive_pins (s : State) (c : Channel) (k : Option Page) : (s.putActive c k).pins = s.pins := rfl
@[simp] theorem State.putActive_live (s : State) (c : Channel) (k : Option Page) : (s.putActive c k).live = s.live := rfl
@[simp] theorem State.putActive_cdu (s : State) (c : Channel) (k : Option Page) : (s.putActive c k).cdu = s.cdu := rfl
@[simp] theorem State.putActive_stc (s : State) (c : Channel) (k : Option Page) : (s.putActive c k).stc = s.stc := rfl
@[simp] theorem State.putActive_rpe (s : State) (c : Channel) (k : Option Page) : (s.putActive c k).rpe = s.rpe := rfl
@[simp] theorem State.putActive_sup (s : State) (c : Channel) (k : Option Page) : (s.putActive c k).sup = s.sup := rfl
@[simp] theorem State.putActive_aut (s : State) (c : Channel) (k : Option Page) : (s.putActive c k).aut = s.aut := rfl
@[simp] theorem State.putActive_cus (s : State) (c : Channel) (k : Option Page) : (s.putActive c k).cus = s.cus := rfl
@[simp] theorem State.putActive_xps (s : State) (c : Channel) (k : Option Page) : (s.putActive c k).xps = s.xps := rfl
@[simp] theorem State.putActive_sli (s : State) (c : Channel) (k : Option Page) : (s.putActive c k).sli = s.sli := rfl
@[simp] theorem State.putActive_store (s : State) (c : Channel) (k : Option Page) : (s.putActive c k).store = s.store := rfl
@[simp] theorem State.putActive_rx (s : State) (c : Channel) (k : Option Page) : (s.putActive c k).rx = s.rx := rfl
@[simp] theorem State.putActive_incoming (s : State) (c : Channel) (k : Option Page) : (s.putActive c k).incoming = s.incoming := rfl
@[simp] theorem State.putActive_freeUsed (s : State) (c : Channel) (k : Option Page) : (s.putActive c k).freeUsed = s.freeUsed := rfl
@[simp] theorem State.putActive_pending (s : State) (c : Channel) (k : Option Page) : (s.putActive c k).pending = s.pending := rfl
@[simp] theorem State.putActive_now (s : State) (c : Channel) (k : Option Page) :
    (s.putActive c k).now = s.now := rfl
@[simp] theorem State.putActive_format (s : State) (c : Channel) (k : Option Page) :
    (s.putActive c k).format = s.format := rfl
@[simp] theorem State.putActive_cfg (s : State) (c : Channel) (k : Option Page) (d : Channel) :
    (s.putActive c k).cfg d = s.cfg d := rfl
@[simp] theorem State.putActive_authority (s : State) (c : Channel) (k : Option Page) (d : Channel) :
    (s.putActive c k).authority d = s.authority d := rfl
@[simp] theorem State.putActive_isMain (s : State) (c : Channel) (k : Option Page) (d : Channel) :
    (s.putActive c k).isMain d = s.isMain d := rfl
@[simp] theorem State.putActive_cue (s : State) (c : Channel) (k : Option Page) (d : Channel) :
    (s.putActive c k).cue d = s.cue d := rfl
@[simp] theorem State.putActive_watched (s : State) (c : Channel) (k : Option Page) (d : Channel) :
    (s.putActive c k).watched d = s.watched d := rfl
@[simp] theorem State.putActive_site (s : State) (c : Channel) (k : Option Page) (q : Side) :
    (s.putActive c k).site q = s.site q := rfl
@[simp] theorem State.putActive_feed (s : State) (c : Channel) (k : Option Page) (q : Side) :
    (s.putActive c k).feed q = s.feed q := rfl
@[simp] theorem State.putActive_linkUp (s : State) (c : Channel) (k : Option Page) :
    (s.putActive c k).linkUp = s.linkUp := rfl
@[simp] theorem State.putActive_deviceFlag (s : State) (c : Channel) (k : Option Page) (f : DeviceFlag) :
    (s.putActive c k).deviceFlag f = s.deviceFlag f := rfl
@[simp] theorem State.putActive_channelFlag (s : State) (c : Channel) (k : Option Page) (g : ChannelFlag) (d : Channel) :
    (s.putActive c k).channelFlag g d = s.channelFlag g d := rfl
@[simp] theorem State.putActive_lastAckOf (s : State) (c : Channel) (k : Option Page) (n : Nat) :
    (s.putActive c k).lastAckOf n = s.lastAckOf n := rfl
@[simp] theorem State.putActive_engineRunning (s : State) (c : Channel) (k : Option Page) :
    (s.putActive c k).engineRunning = s.engineRunning := rfl
@[simp] theorem State.putActive_saving (s : State) (c : Channel) (k : Option Page) :
    (s.putActive c k).saving = s.saving := rfl

/-! ## State.putNext -/

@[simp] theorem State.putNext_power (s : State) (c : Channel) (k : NextPage) : (s.putNext c k).power = s.power := rfl
@[simp] theorem State.putNext_pins (s : State) (c : Channel) (k : NextPage) : (s.putNext c k).pins = s.pins := rfl
@[simp] theorem State.putNext_live (s : State) (c : Channel) (k : NextPage) : (s.putNext c k).live = s.live := rfl
@[simp] theorem State.putNext_cdu (s : State) (c : Channel) (k : NextPage) : (s.putNext c k).cdu = s.cdu := rfl
@[simp] theorem State.putNext_stc (s : State) (c : Channel) (k : NextPage) : (s.putNext c k).stc = s.stc := rfl
@[simp] theorem State.putNext_rpe (s : State) (c : Channel) (k : NextPage) : (s.putNext c k).rpe = s.rpe := rfl
@[simp] theorem State.putNext_sup (s : State) (c : Channel) (k : NextPage) : (s.putNext c k).sup = s.sup := rfl
@[simp] theorem State.putNext_aut (s : State) (c : Channel) (k : NextPage) : (s.putNext c k).aut = s.aut := rfl
@[simp] theorem State.putNext_cus (s : State) (c : Channel) (k : NextPage) : (s.putNext c k).cus = s.cus := rfl
@[simp] theorem State.putNext_xps (s : State) (c : Channel) (k : NextPage) : (s.putNext c k).xps = s.xps := rfl
@[simp] theorem State.putNext_sli (s : State) (c : Channel) (k : NextPage) : (s.putNext c k).sli = s.sli := rfl
@[simp] theorem State.putNext_store (s : State) (c : Channel) (k : NextPage) : (s.putNext c k).store = s.store := rfl
@[simp] theorem State.putNext_rx (s : State) (c : Channel) (k : NextPage) : (s.putNext c k).rx = s.rx := rfl
@[simp] theorem State.putNext_incoming (s : State) (c : Channel) (k : NextPage) : (s.putNext c k).incoming = s.incoming := rfl
@[simp] theorem State.putNext_freeUsed (s : State) (c : Channel) (k : NextPage) : (s.putNext c k).freeUsed = s.freeUsed := rfl
@[simp] theorem State.putNext_pending (s : State) (c : Channel) (k : NextPage) : (s.putNext c k).pending = s.pending := rfl
@[simp] theorem State.putNext_now (s : State) (c : Channel) (k : NextPage) :
    (s.putNext c k).now = s.now := rfl
@[simp] theorem State.putNext_format (s : State) (c : Channel) (k : NextPage) :
    (s.putNext c k).format = s.format := rfl
@[simp] theorem State.putNext_cfg (s : State) (c : Channel) (k : NextPage) (d : Channel) :
    (s.putNext c k).cfg d = s.cfg d := rfl
@[simp] theorem State.putNext_authority (s : State) (c : Channel) (k : NextPage) (d : Channel) :
    (s.putNext c k).authority d = s.authority d := rfl
@[simp] theorem State.putNext_isMain (s : State) (c : Channel) (k : NextPage) (d : Channel) :
    (s.putNext c k).isMain d = s.isMain d := rfl
@[simp] theorem State.putNext_cue (s : State) (c : Channel) (k : NextPage) (d : Channel) :
    (s.putNext c k).cue d = s.cue d := rfl
@[simp] theorem State.putNext_watched (s : State) (c : Channel) (k : NextPage) (d : Channel) :
    (s.putNext c k).watched d = s.watched d := rfl
@[simp] theorem State.putNext_site (s : State) (c : Channel) (k : NextPage) (q : Side) :
    (s.putNext c k).site q = s.site q := rfl
@[simp] theorem State.putNext_feed (s : State) (c : Channel) (k : NextPage) (q : Side) :
    (s.putNext c k).feed q = s.feed q := rfl
@[simp] theorem State.putNext_linkUp (s : State) (c : Channel) (k : NextPage) :
    (s.putNext c k).linkUp = s.linkUp := rfl
@[simp] theorem State.putNext_deviceFlag (s : State) (c : Channel) (k : NextPage) (f : DeviceFlag) :
    (s.putNext c k).deviceFlag f = s.deviceFlag f := rfl
@[simp] theorem State.putNext_channelFlag (s : State) (c : Channel) (k : NextPage) (g : ChannelFlag) (d : Channel) :
    (s.putNext c k).channelFlag g d = s.channelFlag g d := rfl
@[simp] theorem State.putNext_lastAckOf (s : State) (c : Channel) (k : NextPage) (n : Nat) :
    (s.putNext c k).lastAckOf n = s.lastAckOf n := rfl
@[simp] theorem State.putNext_engineRunning (s : State) (c : Channel) (k : NextPage) :
    (s.putNext c k).engineRunning = s.engineRunning := rfl
@[simp] theorem State.putNext_saving (s : State) (c : Channel) (k : NextPage) :
    (s.putNext c k).saving = s.saving := rfl

/-! ## State.putSite -/

@[simp] theorem State.putSite_power (s : State) (p : SitePort) (k : SitePortState) : (s.putSite p k).power = s.power := rfl
@[simp] theorem State.putSite_pins (s : State) (p : SitePort) (k : SitePortState) : (s.putSite p k).pins = s.pins := rfl
@[simp] theorem State.putSite_live (s : State) (p : SitePort) (k : SitePortState) : (s.putSite p k).live = s.live := rfl
@[simp] theorem State.putSite_cdu (s : State) (p : SitePort) (k : SitePortState) : (s.putSite p k).cdu = s.cdu := rfl
@[simp] theorem State.putSite_stc (s : State) (p : SitePort) (k : SitePortState) : (s.putSite p k).stc = s.stc := rfl
@[simp] theorem State.putSite_sst (s : State) (p : SitePort) (k : SitePortState) : (s.putSite p k).sst = s.sst := rfl
@[simp] theorem State.putSite_rpe (s : State) (p : SitePort) (k : SitePortState) : (s.putSite p k).rpe = s.rpe := rfl
@[simp] theorem State.putSite_sup (s : State) (p : SitePort) (k : SitePortState) : (s.putSite p k).sup = s.sup := rfl
@[simp] theorem State.putSite_aut (s : State) (p : SitePort) (k : SitePortState) : (s.putSite p k).aut = s.aut := rfl
@[simp] theorem State.putSite_cus (s : State) (p : SitePort) (k : SitePortState) : (s.putSite p k).cus = s.cus := rfl
@[simp] theorem State.putSite_xps (s : State) (p : SitePort) (k : SitePortState) : (s.putSite p k).xps = s.xps := rfl
@[simp] theorem State.putSite_sli (s : State) (p : SitePort) (k : SitePortState) :
    (s.putSite p k).sli = { s.sli with port := s.sli.port.put p k } := rfl
@[simp] theorem State.putSite_store (s : State) (p : SitePort) (k : SitePortState) : (s.putSite p k).store = s.store := rfl
@[simp] theorem State.putSite_rx (s : State) (p : SitePort) (k : SitePortState) : (s.putSite p k).rx = s.rx := rfl
@[simp] theorem State.putSite_incoming (s : State) (p : SitePort) (k : SitePortState) : (s.putSite p k).incoming = s.incoming := rfl
@[simp] theorem State.putSite_freeUsed (s : State) (p : SitePort) (k : SitePortState) : (s.putSite p k).freeUsed = s.freeUsed := rfl
@[simp] theorem State.putSite_pending (s : State) (p : SitePort) (k : SitePortState) : (s.putSite p k).pending = s.pending := rfl
@[simp] theorem State.putSite_now (s : State) (p : SitePort) (k : SitePortState) :
    (s.putSite p k).now = s.now := rfl
@[simp] theorem State.putSite_format (s : State) (p : SitePort) (k : SitePortState) :
    (s.putSite p k).format = s.format := rfl
@[simp] theorem State.putSite_cfg (s : State) (p : SitePort) (k : SitePortState) (d : Channel) :
    (s.putSite p k).cfg d = s.cfg d := rfl
@[simp] theorem State.putSite_authority (s : State) (p : SitePort) (k : SitePortState) (d : Channel) :
    (s.putSite p k).authority d = s.authority d := rfl
@[simp] theorem State.putSite_isMain (s : State) (p : SitePort) (k : SitePortState) (d : Channel) :
    (s.putSite p k).isMain d = s.isMain d := rfl
@[simp] theorem State.putSite_cue (s : State) (p : SitePort) (k : SitePortState) (d : Channel) :
    (s.putSite p k).cue d = s.cue d := rfl
@[simp] theorem State.putSite_watched (s : State) (p : SitePort) (k : SitePortState) (d : Channel) :
    (s.putSite p k).watched d = s.watched d := rfl
@[simp] theorem State.putSite_pages (s : State) (p : SitePort) (k : SitePortState) (d : Channel) :
    (s.putSite p k).pages d = s.pages d := rfl
@[simp] theorem State.putSite_feed (s : State) (p : SitePort) (k : SitePortState) (q : Side) :
    (s.putSite p k).feed q = s.feed q := rfl
@[simp] theorem State.putSite_linkUp (s : State) (p : SitePort) (k : SitePortState) :
    (s.putSite p k).linkUp = s.linkUp := rfl
@[simp] theorem State.putSite_deviceFlag (s : State) (p : SitePort) (k : SitePortState) (f : DeviceFlag) :
    (s.putSite p k).deviceFlag f = s.deviceFlag f := rfl
@[simp] theorem State.putSite_channelFlag (s : State) (p : SitePort) (k : SitePortState) (g : ChannelFlag) (d : Channel) :
    (s.putSite p k).channelFlag g d = s.channelFlag g d := rfl
@[simp] theorem State.putSite_lastAckOf (s : State) (p : SitePort) (k : SitePortState) (n : Nat) :
    (s.putSite p k).lastAckOf n = s.lastAckOf n := rfl
@[simp] theorem State.putSite_engineRunning (s : State) (p : SitePort) (k : SitePortState) :
    (s.putSite p k).engineRunning = s.engineRunning := rfl
@[simp] theorem State.putSite_saving (s : State) (p : SitePort) (k : SitePortState) :
    (s.putSite p k).saving = s.saving := rfl

/-! ## State.putFeed -/

@[simp] theorem State.putFeed_power (s : State) (p : FeedPort) (k : FeedPortState) : (s.putFeed p k).power = s.power := rfl
@[simp] theorem State.putFeed_pins (s : State) (p : FeedPort) (k : FeedPortState) : (s.putFeed p k).pins = s.pins := rfl
@[simp] theorem State.putFeed_live (s : State) (p : FeedPort) (k : FeedPortState) : (s.putFeed p k).live = s.live := rfl
@[simp] theorem State.putFeed_cdu (s : State) (p : FeedPort) (k : FeedPortState) : (s.putFeed p k).cdu = s.cdu := rfl
@[simp] theorem State.putFeed_stc (s : State) (p : FeedPort) (k : FeedPortState) : (s.putFeed p k).stc = s.stc := rfl
@[simp] theorem State.putFeed_sst (s : State) (p : FeedPort) (k : FeedPortState) : (s.putFeed p k).sst = s.sst := rfl
@[simp] theorem State.putFeed_rpe (s : State) (p : FeedPort) (k : FeedPortState) :
    (s.putFeed p k).rpe = { s.rpe with port := s.rpe.port.put p k } := rfl
@[simp] theorem State.putFeed_sup (s : State) (p : FeedPort) (k : FeedPortState) : (s.putFeed p k).sup = s.sup := rfl
@[simp] theorem State.putFeed_aut (s : State) (p : FeedPort) (k : FeedPortState) : (s.putFeed p k).aut = s.aut := rfl
@[simp] theorem State.putFeed_cus (s : State) (p : FeedPort) (k : FeedPortState) : (s.putFeed p k).cus = s.cus := rfl
@[simp] theorem State.putFeed_xps (s : State) (p : FeedPort) (k : FeedPortState) : (s.putFeed p k).xps = s.xps := rfl
@[simp] theorem State.putFeed_sli (s : State) (p : FeedPort) (k : FeedPortState) : (s.putFeed p k).sli = s.sli := rfl
@[simp] theorem State.putFeed_store (s : State) (p : FeedPort) (k : FeedPortState) : (s.putFeed p k).store = s.store := rfl
@[simp] theorem State.putFeed_rx (s : State) (p : FeedPort) (k : FeedPortState) : (s.putFeed p k).rx = s.rx := rfl
@[simp] theorem State.putFeed_incoming (s : State) (p : FeedPort) (k : FeedPortState) : (s.putFeed p k).incoming = s.incoming := rfl
@[simp] theorem State.putFeed_freeUsed (s : State) (p : FeedPort) (k : FeedPortState) : (s.putFeed p k).freeUsed = s.freeUsed := rfl
@[simp] theorem State.putFeed_pending (s : State) (p : FeedPort) (k : FeedPortState) : (s.putFeed p k).pending = s.pending := rfl
@[simp] theorem State.putFeed_now (s : State) (p : FeedPort) (k : FeedPortState) :
    (s.putFeed p k).now = s.now := rfl
@[simp] theorem State.putFeed_format (s : State) (p : FeedPort) (k : FeedPortState) :
    (s.putFeed p k).format = s.format := rfl
@[simp] theorem State.putFeed_cfg (s : State) (p : FeedPort) (k : FeedPortState) (d : Channel) :
    (s.putFeed p k).cfg d = s.cfg d := rfl
@[simp] theorem State.putFeed_authority (s : State) (p : FeedPort) (k : FeedPortState) (d : Channel) :
    (s.putFeed p k).authority d = s.authority d := rfl
@[simp] theorem State.putFeed_isMain (s : State) (p : FeedPort) (k : FeedPortState) (d : Channel) :
    (s.putFeed p k).isMain d = s.isMain d := rfl
@[simp] theorem State.putFeed_cue (s : State) (p : FeedPort) (k : FeedPortState) (d : Channel) :
    (s.putFeed p k).cue d = s.cue d := rfl
@[simp] theorem State.putFeed_watched (s : State) (p : FeedPort) (k : FeedPortState) (d : Channel) :
    (s.putFeed p k).watched d = s.watched d := rfl
@[simp] theorem State.putFeed_pages (s : State) (p : FeedPort) (k : FeedPortState) (d : Channel) :
    (s.putFeed p k).pages d = s.pages d := rfl
@[simp] theorem State.putFeed_site (s : State) (p : FeedPort) (k : FeedPortState) (q : Side) :
    (s.putFeed p k).site q = s.site q := rfl
@[simp] theorem State.putFeed_linkUp (s : State) (p : FeedPort) (k : FeedPortState) :
    (s.putFeed p k).linkUp = s.linkUp := rfl
@[simp] theorem State.putFeed_deviceFlag (s : State) (p : FeedPort) (k : FeedPortState) (f : DeviceFlag) :
    (s.putFeed p k).deviceFlag f = s.deviceFlag f := rfl
@[simp] theorem State.putFeed_channelFlag (s : State) (p : FeedPort) (k : FeedPortState) (g : ChannelFlag) (d : Channel) :
    (s.putFeed p k).channelFlag g d = s.channelFlag g d := rfl
@[simp] theorem State.putFeed_lastAckOf (s : State) (p : FeedPort) (k : FeedPortState) (n : Nat) :
    (s.putFeed p k).lastAckOf n = s.lastAckOf n := rfl
@[simp] theorem State.putFeed_engineRunning (s : State) (p : FeedPort) (k : FeedPortState) :
    (s.putFeed p k).engineRunning = s.engineRunning := rfl
@[simp] theorem State.putFeed_saving (s : State) (p : FeedPort) (k : FeedPortState) :
    (s.putFeed p k).saving = s.saving := rfl

/-! ## State.putCfg -/

@[simp] theorem State.putCfg_power (s : State) (c : Channel) (k : ChannelSettings) : (s.putCfg c k).power = s.power := rfl
@[simp] theorem State.putCfg_pins (s : State) (c : Channel) (k : ChannelSettings) : (s.putCfg c k).pins = s.pins := rfl
@[simp] theorem State.putCfg_live (s : State) (c : Channel) (k : ChannelSettings) :
    (s.putCfg c k).live = { s.live with channel := PerChannel.put s.live.channel c k } := rfl
@[simp] theorem State.putCfg_cdu (s : State) (c : Channel) (k : ChannelSettings) : (s.putCfg c k).cdu = s.cdu := rfl
@[simp] theorem State.putCfg_stc (s : State) (c : Channel) (k : ChannelSettings) : (s.putCfg c k).stc = s.stc := rfl
@[simp] theorem State.putCfg_sst (s : State) (c : Channel) (k : ChannelSettings) : (s.putCfg c k).sst = s.sst := rfl
@[simp] theorem State.putCfg_rpe (s : State) (c : Channel) (k : ChannelSettings) : (s.putCfg c k).rpe = s.rpe := rfl
@[simp] theorem State.putCfg_sup (s : State) (c : Channel) (k : ChannelSettings) : (s.putCfg c k).sup = s.sup := rfl
@[simp] theorem State.putCfg_aut (s : State) (c : Channel) (k : ChannelSettings) : (s.putCfg c k).aut = s.aut := rfl
@[simp] theorem State.putCfg_cus (s : State) (c : Channel) (k : ChannelSettings) : (s.putCfg c k).cus = s.cus := rfl
@[simp] theorem State.putCfg_xps (s : State) (c : Channel) (k : ChannelSettings) : (s.putCfg c k).xps = s.xps := rfl
@[simp] theorem State.putCfg_sli (s : State) (c : Channel) (k : ChannelSettings) : (s.putCfg c k).sli = s.sli := rfl
@[simp] theorem State.putCfg_store (s : State) (c : Channel) (k : ChannelSettings) : (s.putCfg c k).store = s.store := rfl
@[simp] theorem State.putCfg_rx (s : State) (c : Channel) (k : ChannelSettings) : (s.putCfg c k).rx = s.rx := rfl
@[simp] theorem State.putCfg_incoming (s : State) (c : Channel) (k : ChannelSettings) : (s.putCfg c k).incoming = s.incoming := rfl
@[simp] theorem State.putCfg_freeUsed (s : State) (c : Channel) (k : ChannelSettings) : (s.putCfg c k).freeUsed = s.freeUsed := rfl
@[simp] theorem State.putCfg_pending (s : State) (c : Channel) (k : ChannelSettings) : (s.putCfg c k).pending = s.pending := rfl
@[simp] theorem State.putCfg_now (s : State) (c : Channel) (k : ChannelSettings) :
    (s.putCfg c k).now = s.now := rfl
@[simp] theorem State.putCfg_format (s : State) (c : Channel) (k : ChannelSettings) :
    (s.putCfg c k).format = s.format := rfl
@[simp] theorem State.putCfg_authority (s : State) (c : Channel) (k : ChannelSettings) (d : Channel) :
    (s.putCfg c k).authority d = s.authority d := rfl
@[simp] theorem State.putCfg_isMain (s : State) (c : Channel) (k : ChannelSettings) (d : Channel) :
    (s.putCfg c k).isMain d = s.isMain d := rfl
@[simp] theorem State.putCfg_cue (s : State) (c : Channel) (k : ChannelSettings) (d : Channel) :
    (s.putCfg c k).cue d = s.cue d := rfl
@[simp] theorem State.putCfg_watched (s : State) (c : Channel) (k : ChannelSettings) (d : Channel) :
    (s.putCfg c k).watched d = s.watched d := rfl
@[simp] theorem State.putCfg_pages (s : State) (c : Channel) (k : ChannelSettings) (d : Channel) :
    (s.putCfg c k).pages d = s.pages d := rfl
@[simp] theorem State.putCfg_site (s : State) (c : Channel) (k : ChannelSettings) (q : Side) :
    (s.putCfg c k).site q = s.site q := rfl
@[simp] theorem State.putCfg_feed (s : State) (c : Channel) (k : ChannelSettings) (q : Side) :
    (s.putCfg c k).feed q = s.feed q := rfl
@[simp] theorem State.putCfg_linkUp (s : State) (c : Channel) (k : ChannelSettings) :
    (s.putCfg c k).linkUp = s.linkUp := rfl
@[simp] theorem State.putCfg_deviceFlag (s : State) (c : Channel) (k : ChannelSettings) (f : DeviceFlag) :
    (s.putCfg c k).deviceFlag f = s.deviceFlag f := rfl
@[simp] theorem State.putCfg_channelFlag (s : State) (c : Channel) (k : ChannelSettings) (g : ChannelFlag) (d : Channel) :
    (s.putCfg c k).channelFlag g d = s.channelFlag g d := rfl
@[simp] theorem State.putCfg_lastAckOf (s : State) (c : Channel) (k : ChannelSettings) (n : Nat) :
    (s.putCfg c k).lastAckOf n = s.lastAckOf n := rfl
@[simp] theorem State.putCfg_engineRunning (s : State) (c : Channel) (k : ChannelSettings) :
    (s.putCfg c k).engineRunning = s.engineRunning := rfl
@[simp] theorem State.putCfg_saving (s : State) (c : Channel) (k : ChannelSettings) :
    (s.putCfg c k).saving = s.saving := rfl

/-! ## State.rxWait -/

@[simp] theorem State.rxWait_power (s : State) (l : LineId) : (s.rxWait l).power = s.power := rfl
@[simp] theorem State.rxWait_pins (s : State) (l : LineId) : (s.rxWait l).pins = s.pins := rfl
@[simp] theorem State.rxWait_live (s : State) (l : LineId) : (s.rxWait l).live = s.live := rfl
@[simp] theorem State.rxWait_cdu (s : State) (l : LineId) : (s.rxWait l).cdu = s.cdu := rfl
@[simp] theorem State.rxWait_stc (s : State) (l : LineId) : (s.rxWait l).stc = s.stc := rfl
@[simp] theorem State.rxWait_sst (s : State) (l : LineId) : (s.rxWait l).sst = s.sst := rfl
@[simp] theorem State.rxWait_rpe (s : State) (l : LineId) : (s.rxWait l).rpe = s.rpe := rfl
@[simp] theorem State.rxWait_sup (s : State) (l : LineId) : (s.rxWait l).sup = s.sup := rfl
@[simp] theorem State.rxWait_aut (s : State) (l : LineId) : (s.rxWait l).aut = s.aut := rfl
@[simp] theorem State.rxWait_cus (s : State) (l : LineId) : (s.rxWait l).cus = s.cus := rfl
@[simp] theorem State.rxWait_xps (s : State) (l : LineId) : (s.rxWait l).xps = s.xps := rfl
@[simp] theorem State.rxWait_sli (s : State) (l : LineId) : (s.rxWait l).sli = s.sli := rfl
@[simp] theorem State.rxWait_store (s : State) (l : LineId) : (s.rxWait l).store = s.store := rfl
@[simp] theorem State.rxWait_rx (s : State) (l : LineId) :
    (s.rxWait l).rx = s.rx.put l .waiting := rfl
@[simp] theorem State.rxWait_incoming (s : State) (l : LineId) : (s.rxWait l).incoming = s.incoming := rfl
@[simp] theorem State.rxWait_freeUsed (s : State) (l : LineId) : (s.rxWait l).freeUsed = s.freeUsed := rfl
@[simp] theorem State.rxWait_pending (s : State) (l : LineId) : (s.rxWait l).pending = s.pending := rfl
@[simp] theorem State.rxWait_now (s : State) (l : LineId) :
    (s.rxWait l).now = s.now := rfl
@[simp] theorem State.rxWait_format (s : State) (l : LineId) :
    (s.rxWait l).format = s.format := rfl
@[simp] theorem State.rxWait_cfg (s : State) (l : LineId) (d : Channel) :
    (s.rxWait l).cfg d = s.cfg d := rfl
@[simp] theorem State.rxWait_authority (s : State) (l : LineId) (d : Channel) :
    (s.rxWait l).authority d = s.authority d := rfl
@[simp] theorem State.rxWait_isMain (s : State) (l : LineId) (d : Channel) :
    (s.rxWait l).isMain d = s.isMain d := rfl
@[simp] theorem State.rxWait_cue (s : State) (l : LineId) (d : Channel) :
    (s.rxWait l).cue d = s.cue d := rfl
@[simp] theorem State.rxWait_watched (s : State) (l : LineId) (d : Channel) :
    (s.rxWait l).watched d = s.watched d := rfl
@[simp] theorem State.rxWait_pages (s : State) (l : LineId) (d : Channel) :
    (s.rxWait l).pages d = s.pages d := rfl
@[simp] theorem State.rxWait_site (s : State) (l : LineId) (q : Side) :
    (s.rxWait l).site q = s.site q := rfl
@[simp] theorem State.rxWait_feed (s : State) (l : LineId) (q : Side) :
    (s.rxWait l).feed q = s.feed q := rfl
@[simp] theorem State.rxWait_linkUp (s : State) (l : LineId) :
    (s.rxWait l).linkUp = s.linkUp := rfl
@[simp] theorem State.rxWait_deviceFlag (s : State) (l : LineId) (f : DeviceFlag) :
    (s.rxWait l).deviceFlag f = s.deviceFlag f := rfl
@[simp] theorem State.rxWait_channelFlag (s : State) (l : LineId) (g : ChannelFlag) (d : Channel) :
    (s.rxWait l).channelFlag g d = s.channelFlag g d := rfl
@[simp] theorem State.rxWait_lastAckOf (s : State) (l : LineId) (n : Nat) :
    (s.rxWait l).lastAckOf n = s.lastAckOf n := rfl
@[simp] theorem State.rxWait_engineRunning (s : State) (l : LineId) :
    (s.rxWait l).engineRunning = s.engineRunning := rfl
@[simp] theorem State.rxWait_saving (s : State) (l : LineId) :
    (s.rxWait l).saving = s.saving := rfl

/-! ## State.putCdu -/

@[simp] theorem State.putCdu_power (s : State) (k : Cdu) : (s.putCdu k).power = s.power := rfl
@[simp] theorem State.putCdu_pins (s : State) (k : Cdu) : (s.putCdu k).pins = s.pins := rfl
@[simp] theorem State.putCdu_live (s : State) (k : Cdu) : (s.putCdu k).live = s.live := rfl
@[simp] theorem State.putCdu_cdu (s : State) (k : Cdu) :
    (s.putCdu k).cdu = k := rfl
@[simp] theorem State.putCdu_stc (s : State) (k : Cdu) : (s.putCdu k).stc = s.stc := rfl
@[simp] theorem State.putCdu_sst (s : State) (k : Cdu) : (s.putCdu k).sst = s.sst := rfl
@[simp] theorem State.putCdu_rpe (s : State) (k : Cdu) : (s.putCdu k).rpe = s.rpe := rfl
@[simp] theorem State.putCdu_sup (s : State) (k : Cdu) : (s.putCdu k).sup = s.sup := rfl
@[simp] theorem State.putCdu_aut (s : State) (k : Cdu) : (s.putCdu k).aut = s.aut := rfl
@[simp] theorem State.putCdu_cus (s : State) (k : Cdu) : (s.putCdu k).cus = s.cus := rfl
@[simp] theorem State.putCdu_xps (s : State) (k : Cdu) : (s.putCdu k).xps = s.xps := rfl
@[simp] theorem State.putCdu_sli (s : State) (k : Cdu) : (s.putCdu k).sli = s.sli := rfl
@[simp] theorem State.putCdu_store (s : State) (k : Cdu) : (s.putCdu k).store = s.store := rfl
@[simp] theorem State.putCdu_rx (s : State) (k : Cdu) : (s.putCdu k).rx = s.rx := rfl
@[simp] theorem State.putCdu_incoming (s : State) (k : Cdu) : (s.putCdu k).incoming = s.incoming := rfl
@[simp] theorem State.putCdu_freeUsed (s : State) (k : Cdu) : (s.putCdu k).freeUsed = s.freeUsed := rfl
@[simp] theorem State.putCdu_pending (s : State) (k : Cdu) : (s.putCdu k).pending = s.pending := rfl
@[simp] theorem State.putCdu_format (s : State) (k : Cdu) :
    (s.putCdu k).format = k.frame.format := rfl
@[simp] theorem State.putCdu_cfg (s : State) (k : Cdu) (d : Channel) :
    (s.putCdu k).cfg d = s.cfg d := rfl
@[simp] theorem State.putCdu_authority (s : State) (k : Cdu) (d : Channel) :
    (s.putCdu k).authority d = s.authority d := rfl
@[simp] theorem State.putCdu_isMain (s : State) (k : Cdu) (d : Channel) :
    (s.putCdu k).isMain d = s.isMain d := rfl
@[simp] theorem State.putCdu_cue (s : State) (k : Cdu) (d : Channel) :
    (s.putCdu k).cue d = s.cue d := rfl
@[simp] theorem State.putCdu_watched (s : State) (k : Cdu) (d : Channel) :
    (s.putCdu k).watched d = s.watched d := rfl
@[simp] theorem State.putCdu_pages (s : State) (k : Cdu) (d : Channel) :
    (s.putCdu k).pages d = s.pages d := rfl
@[simp] theorem State.putCdu_site (s : State) (k : Cdu) (q : Side) :
    (s.putCdu k).site q = s.site q := rfl
@[simp] theorem State.putCdu_feed (s : State) (k : Cdu) (q : Side) :
    (s.putCdu k).feed q = s.feed q := rfl
@[simp] theorem State.putCdu_linkUp (s : State) (k : Cdu) :
    (s.putCdu k).linkUp = s.linkUp := rfl
@[simp] theorem State.putCdu_deviceFlag (s : State) (k : Cdu) (f : DeviceFlag) :
    (s.putCdu k).deviceFlag f = s.deviceFlag f := rfl
@[simp] theorem State.putCdu_channelFlag (s : State) (k : Cdu) (g : ChannelFlag) (d : Channel) :
    (s.putCdu k).channelFlag g d = s.channelFlag g d := rfl
@[simp] theorem State.putCdu_lastAckOf (s : State) (k : Cdu) (n : Nat) :
    (s.putCdu k).lastAckOf n = s.lastAckOf n := rfl
@[simp] theorem State.putCdu_engineRunning (s : State) (k : Cdu) :
    (s.putCdu k).engineRunning = s.engineRunning := rfl
@[simp] theorem State.putCdu_saving (s : State) (k : Cdu) :
    (s.putCdu k).saving = s.saving := rfl

/-! ## State.putStc -/

@[simp] theorem State.putStc_power (s : State) (k : Stc) : (s.putStc k).power = s.power := rfl
@[simp] theorem State.putStc_pins (s : State) (k : Stc) : (s.putStc k).pins = s.pins := rfl
@[simp] theorem State.putStc_live (s : State) (k : Stc) : (s.putStc k).live = s.live := rfl
@[simp] theorem State.putStc_cdu (s : State) (k : Stc) : (s.putStc k).cdu = s.cdu := rfl
@[simp] theorem State.putStc_stc (s : State) (k : Stc) :
    (s.putStc k).stc = k := rfl
@[simp] theorem State.putStc_sst (s : State) (k : Stc) : (s.putStc k).sst = s.sst := rfl
@[simp] theorem State.putStc_rpe (s : State) (k : Stc) : (s.putStc k).rpe = s.rpe := rfl
@[simp] theorem State.putStc_sup (s : State) (k : Stc) : (s.putStc k).sup = s.sup := rfl
@[simp] theorem State.putStc_aut (s : State) (k : Stc) : (s.putStc k).aut = s.aut := rfl
@[simp] theorem State.putStc_cus (s : State) (k : Stc) : (s.putStc k).cus = s.cus := rfl
@[simp] theorem State.putStc_xps (s : State) (k : Stc) : (s.putStc k).xps = s.xps := rfl
@[simp] theorem State.putStc_sli (s : State) (k : Stc) : (s.putStc k).sli = s.sli := rfl
@[simp] theorem State.putStc_store (s : State) (k : Stc) : (s.putStc k).store = s.store := rfl
@[simp] theorem State.putStc_rx (s : State) (k : Stc) : (s.putStc k).rx = s.rx := rfl
@[simp] theorem State.putStc_incoming (s : State) (k : Stc) : (s.putStc k).incoming = s.incoming := rfl
@[simp] theorem State.putStc_freeUsed (s : State) (k : Stc) : (s.putStc k).freeUsed = s.freeUsed := rfl
@[simp] theorem State.putStc_pending (s : State) (k : Stc) : (s.putStc k).pending = s.pending := rfl
@[simp] theorem State.putStc_now (s : State) (k : Stc) :
    (s.putStc k).now = s.now := rfl
@[simp] theorem State.putStc_format (s : State) (k : Stc) :
    (s.putStc k).format = s.format := rfl
@[simp] theorem State.putStc_cfg (s : State) (k : Stc) (d : Channel) :
    (s.putStc k).cfg d = s.cfg d := rfl
@[simp] theorem State.putStc_authority (s : State) (k : Stc) (d : Channel) :
    (s.putStc k).authority d = s.authority d := rfl
@[simp] theorem State.putStc_isMain (s : State) (k : Stc) (d : Channel) :
    (s.putStc k).isMain d = s.isMain d := rfl
@[simp] theorem State.putStc_cue (s : State) (k : Stc) (d : Channel) :
    (s.putStc k).cue d = s.cue d := rfl
@[simp] theorem State.putStc_watched (s : State) (k : Stc) (d : Channel) :
    (s.putStc k).watched d = s.watched d := rfl
@[simp] theorem State.putStc_pages (s : State) (k : Stc) (d : Channel) :
    (s.putStc k).pages d = s.pages d := rfl
@[simp] theorem State.putStc_site (s : State) (k : Stc) (q : Side) :
    (s.putStc k).site q = s.site q := rfl
@[simp] theorem State.putStc_feed (s : State) (k : Stc) (q : Side) :
    (s.putStc k).feed q = s.feed q := rfl
@[simp] theorem State.putStc_linkUp (s : State) (k : Stc) :
    (s.putStc k).linkUp = s.linkUp := rfl
@[simp] theorem State.putStc_deviceFlag (s : State) (k : Stc) (f : DeviceFlag) :
    (s.putStc k).deviceFlag f = s.deviceFlag f := rfl
@[simp] theorem State.putStc_channelFlag (s : State) (k : Stc) (g : ChannelFlag) (d : Channel) :
    (s.putStc k).channelFlag g d = s.channelFlag g d := rfl
@[simp] theorem State.putStc_lastAckOf (s : State) (k : Stc) (n : Nat) :
    (s.putStc k).lastAckOf n = s.lastAckOf n := rfl
@[simp] theorem State.putStc_engineRunning (s : State) (k : Stc) :
    (s.putStc k).engineRunning = s.engineRunning := rfl
@[simp] theorem State.putStc_saving (s : State) (k : Stc) :
    (s.putStc k).saving = s.saving := rfl

/-! ## State.putScan -/

@[simp] theorem State.putScan_power (s : State) (k : Scan) : (s.putScan k).power = s.power := rfl
@[simp] theorem State.putScan_pins (s : State) (k : Scan) : (s.putScan k).pins = s.pins := rfl
@[simp] theorem State.putScan_live (s : State) (k : Scan) : (s.putScan k).live = s.live := rfl
@[simp] theorem State.putScan_cdu (s : State) (k : Scan) : (s.putScan k).cdu = s.cdu := rfl
@[simp] theorem State.putScan_stc (s : State) (k : Scan) : (s.putScan k).stc = s.stc := rfl
@[simp] theorem State.putScan_sst (s : State) (k : Scan) : (s.putScan k).sst = s.sst := rfl
@[simp] theorem State.putScan_rpe (s : State) (k : Scan) : (s.putScan k).rpe = s.rpe := rfl
@[simp] theorem State.putScan_sup (s : State) (k : Scan) :
    (s.putScan k).sup = { s.sup with scan := k } := rfl
@[simp] theorem State.putScan_aut (s : State) (k : Scan) : (s.putScan k).aut = s.aut := rfl
@[simp] theorem State.putScan_cus (s : State) (k : Scan) : (s.putScan k).cus = s.cus := rfl
@[simp] theorem State.putScan_xps (s : State) (k : Scan) : (s.putScan k).xps = s.xps := rfl
@[simp] theorem State.putScan_sli (s : State) (k : Scan) : (s.putScan k).sli = s.sli := rfl
@[simp] theorem State.putScan_store (s : State) (k : Scan) : (s.putScan k).store = s.store := rfl
@[simp] theorem State.putScan_rx (s : State) (k : Scan) : (s.putScan k).rx = s.rx := rfl
@[simp] theorem State.putScan_incoming (s : State) (k : Scan) : (s.putScan k).incoming = s.incoming := rfl
@[simp] theorem State.putScan_freeUsed (s : State) (k : Scan) : (s.putScan k).freeUsed = s.freeUsed := rfl
@[simp] theorem State.putScan_pending (s : State) (k : Scan) : (s.putScan k).pending = s.pending := rfl
@[simp] theorem State.putScan_now (s : State) (k : Scan) :
    (s.putScan k).now = s.now := rfl
@[simp] theorem State.putScan_format (s : State) (k : Scan) :
    (s.putScan k).format = s.format := rfl
@[simp] theorem State.putScan_cfg (s : State) (k : Scan) (d : Channel) :
    (s.putScan k).cfg d = s.cfg d := rfl
@[simp] theorem State.putScan_authority (s : State) (k : Scan) (d : Channel) :
    (s.putScan k).authority d = s.authority d := rfl
@[simp] theorem State.putScan_isMain (s : State) (k : Scan) (d : Channel) :
    (s.putScan k).isMain d = s.isMain d := rfl
@[simp] theorem State.putScan_cue (s : State) (k : Scan) (d : Channel) :
    (s.putScan k).cue d = s.cue d := rfl
@[simp] theorem State.putScan_watched (s : State) (k : Scan) (d : Channel) :
    (s.putScan k).watched d = s.watched d := rfl
@[simp] theorem State.putScan_pages (s : State) (k : Scan) (d : Channel) :
    (s.putScan k).pages d = s.pages d := rfl
@[simp] theorem State.putScan_site (s : State) (k : Scan) (q : Side) :
    (s.putScan k).site q = s.site q := rfl
@[simp] theorem State.putScan_feed (s : State) (k : Scan) (q : Side) :
    (s.putScan k).feed q = s.feed q := rfl
@[simp] theorem State.putScan_linkUp (s : State) (k : Scan) :
    (s.putScan k).linkUp = s.linkUp := rfl
@[simp] theorem State.putScan_deviceFlag (s : State) (k : Scan) (f : DeviceFlag) :
    (s.putScan k).deviceFlag f = s.deviceFlag f := rfl
@[simp] theorem State.putScan_channelFlag (s : State) (k : Scan) (g : ChannelFlag) (d : Channel) :
    (s.putScan k).channelFlag g d = s.channelFlag g d := rfl
@[simp] theorem State.putScan_lastAckOf (s : State) (k : Scan) (n : Nat) :
    (s.putScan k).lastAckOf n = s.lastAckOf n := rfl
@[simp] theorem State.putScan_engineRunning (s : State) (k : Scan) :
    (s.putScan k).engineRunning = s.engineRunning := rfl
@[simp] theorem State.putScan_saving (s : State) (k : Scan) :
    (s.putScan k).saving = s.saving := rfl

/-! ## State.putWatch -/

@[simp] theorem State.putWatch_power (s : State) (p : FeedPort) (k : Watch) : (s.putWatch p k).power = s.power := rfl
@[simp] theorem State.putWatch_pins (s : State) (p : FeedPort) (k : Watch) : (s.putWatch p k).pins = s.pins := rfl
@[simp] theorem State.putWatch_live (s : State) (p : FeedPort) (k : Watch) : (s.putWatch p k).live = s.live := rfl
@[simp] theorem State.putWatch_cdu (s : State) (p : FeedPort) (k : Watch) : (s.putWatch p k).cdu = s.cdu := rfl
@[simp] theorem State.putWatch_stc (s : State) (p : FeedPort) (k : Watch) : (s.putWatch p k).stc = s.stc := rfl
@[simp] theorem State.putWatch_sst (s : State) (p : FeedPort) (k : Watch) : (s.putWatch p k).sst = s.sst := rfl
@[simp] theorem State.putWatch_rpe (s : State) (p : FeedPort) (k : Watch) : (s.putWatch p k).rpe = s.rpe := rfl
@[simp] theorem State.putWatch_sup (s : State) (p : FeedPort) (k : Watch) :
    (s.putWatch p k).sup = { s.sup with watch := s.sup.watch.put p k } := rfl
@[simp] theorem State.putWatch_aut (s : State) (p : FeedPort) (k : Watch) : (s.putWatch p k).aut = s.aut := rfl
@[simp] theorem State.putWatch_cus (s : State) (p : FeedPort) (k : Watch) : (s.putWatch p k).cus = s.cus := rfl
@[simp] theorem State.putWatch_xps (s : State) (p : FeedPort) (k : Watch) : (s.putWatch p k).xps = s.xps := rfl
@[simp] theorem State.putWatch_sli (s : State) (p : FeedPort) (k : Watch) : (s.putWatch p k).sli = s.sli := rfl
@[simp] theorem State.putWatch_store (s : State) (p : FeedPort) (k : Watch) : (s.putWatch p k).store = s.store := rfl
@[simp] theorem State.putWatch_rx (s : State) (p : FeedPort) (k : Watch) : (s.putWatch p k).rx = s.rx := rfl
@[simp] theorem State.putWatch_incoming (s : State) (p : FeedPort) (k : Watch) : (s.putWatch p k).incoming = s.incoming := rfl
@[simp] theorem State.putWatch_freeUsed (s : State) (p : FeedPort) (k : Watch) : (s.putWatch p k).freeUsed = s.freeUsed := rfl
@[simp] theorem State.putWatch_pending (s : State) (p : FeedPort) (k : Watch) : (s.putWatch p k).pending = s.pending := rfl
@[simp] theorem State.putWatch_now (s : State) (p : FeedPort) (k : Watch) :
    (s.putWatch p k).now = s.now := rfl
@[simp] theorem State.putWatch_format (s : State) (p : FeedPort) (k : Watch) :
    (s.putWatch p k).format = s.format := rfl
@[simp] theorem State.putWatch_cfg (s : State) (p : FeedPort) (k : Watch) (d : Channel) :
    (s.putWatch p k).cfg d = s.cfg d := rfl
@[simp] theorem State.putWatch_authority (s : State) (p : FeedPort) (k : Watch) (d : Channel) :
    (s.putWatch p k).authority d = s.authority d := rfl
@[simp] theorem State.putWatch_isMain (s : State) (p : FeedPort) (k : Watch) (d : Channel) :
    (s.putWatch p k).isMain d = s.isMain d := rfl
@[simp] theorem State.putWatch_cue (s : State) (p : FeedPort) (k : Watch) (d : Channel) :
    (s.putWatch p k).cue d = s.cue d := rfl
@[simp] theorem State.putWatch_watched (s : State) (p : FeedPort) (k : Watch) (d : Channel) :
    (s.putWatch p k).watched d = s.watched d := rfl
@[simp] theorem State.putWatch_pages (s : State) (p : FeedPort) (k : Watch) (d : Channel) :
    (s.putWatch p k).pages d = s.pages d := rfl
@[simp] theorem State.putWatch_site (s : State) (p : FeedPort) (k : Watch) (q : Side) :
    (s.putWatch p k).site q = s.site q := rfl
@[simp] theorem State.putWatch_feed (s : State) (p : FeedPort) (k : Watch) (q : Side) :
    (s.putWatch p k).feed q = s.feed q := rfl
@[simp] theorem State.putWatch_deviceFlag (s : State) (p : FeedPort) (k : Watch) (f : DeviceFlag) :
    (s.putWatch p k).deviceFlag f = s.deviceFlag f := rfl
@[simp] theorem State.putWatch_channelFlag (s : State) (p : FeedPort) (k : Watch) (g : ChannelFlag) (d : Channel) :
    (s.putWatch p k).channelFlag g d = s.channelFlag g d := rfl
@[simp] theorem State.putWatch_lastAckOf (s : State) (p : FeedPort) (k : Watch) (n : Nat) :
    (s.putWatch p k).lastAckOf n = s.lastAckOf n := rfl
@[simp] theorem State.putWatch_engineRunning (s : State) (p : FeedPort) (k : Watch) :
    (s.putWatch p k).engineRunning = s.engineRunning := rfl
@[simp] theorem State.putWatch_saving (s : State) (p : FeedPort) (k : Watch) :
    (s.putWatch p k).saving = s.saving := rfl

/-! ## State.putKey -/

@[simp] theorem State.putKey_power (s : State) (k : KeyFilter) : (s.putKey k).power = s.power := rfl
@[simp] theorem State.putKey_pins (s : State) (k : KeyFilter) : (s.putKey k).pins = s.pins := rfl
@[simp] theorem State.putKey_live (s : State) (k : KeyFilter) : (s.putKey k).live = s.live := rfl
@[simp] theorem State.putKey_cdu (s : State) (k : KeyFilter) : (s.putKey k).cdu = s.cdu := rfl
@[simp] theorem State.putKey_stc (s : State) (k : KeyFilter) : (s.putKey k).stc = s.stc := rfl
@[simp] theorem State.putKey_sst (s : State) (k : KeyFilter) : (s.putKey k).sst = s.sst := rfl
@[simp] theorem State.putKey_rpe (s : State) (k : KeyFilter) : (s.putKey k).rpe = s.rpe := rfl
@[simp] theorem State.putKey_sup (s : State) (k : KeyFilter) :
    (s.putKey k).sup = { s.sup with key := k } := rfl
@[simp] theorem State.putKey_aut (s : State) (k : KeyFilter) : (s.putKey k).aut = s.aut := rfl
@[simp] theorem State.putKey_cus (s : State) (k : KeyFilter) : (s.putKey k).cus = s.cus := rfl
@[simp] theorem State.putKey_xps (s : State) (k : KeyFilter) : (s.putKey k).xps = s.xps := rfl
@[simp] theorem State.putKey_sli (s : State) (k : KeyFilter) : (s.putKey k).sli = s.sli := rfl
@[simp] theorem State.putKey_store (s : State) (k : KeyFilter) : (s.putKey k).store = s.store := rfl
@[simp] theorem State.putKey_rx (s : State) (k : KeyFilter) : (s.putKey k).rx = s.rx := rfl
@[simp] theorem State.putKey_incoming (s : State) (k : KeyFilter) : (s.putKey k).incoming = s.incoming := rfl
@[simp] theorem State.putKey_freeUsed (s : State) (k : KeyFilter) : (s.putKey k).freeUsed = s.freeUsed := rfl
@[simp] theorem State.putKey_pending (s : State) (k : KeyFilter) : (s.putKey k).pending = s.pending := rfl
@[simp] theorem State.putKey_now (s : State) (k : KeyFilter) :
    (s.putKey k).now = s.now := rfl
@[simp] theorem State.putKey_format (s : State) (k : KeyFilter) :
    (s.putKey k).format = s.format := rfl
@[simp] theorem State.putKey_cfg (s : State) (k : KeyFilter) (d : Channel) :
    (s.putKey k).cfg d = s.cfg d := rfl
@[simp] theorem State.putKey_authority (s : State) (k : KeyFilter) (d : Channel) :
    (s.putKey k).authority d = s.authority d := rfl
@[simp] theorem State.putKey_isMain (s : State) (k : KeyFilter) (d : Channel) :
    (s.putKey k).isMain d = s.isMain d := rfl
@[simp] theorem State.putKey_cue (s : State) (k : KeyFilter) (d : Channel) :
    (s.putKey k).cue d = s.cue d := rfl
@[simp] theorem State.putKey_watched (s : State) (k : KeyFilter) (d : Channel) :
    (s.putKey k).watched d = s.watched d := rfl
@[simp] theorem State.putKey_pages (s : State) (k : KeyFilter) (d : Channel) :
    (s.putKey k).pages d = s.pages d := rfl
@[simp] theorem State.putKey_site (s : State) (k : KeyFilter) (q : Side) :
    (s.putKey k).site q = s.site q := rfl
@[simp] theorem State.putKey_feed (s : State) (k : KeyFilter) (q : Side) :
    (s.putKey k).feed q = s.feed q := rfl
@[simp] theorem State.putKey_linkUp (s : State) (k : KeyFilter) :
    (s.putKey k).linkUp = s.linkUp := rfl
@[simp] theorem State.putKey_deviceFlag (s : State) (k : KeyFilter) (f : DeviceFlag) :
    (s.putKey k).deviceFlag f = s.deviceFlag f := rfl
@[simp] theorem State.putKey_channelFlag (s : State) (k : KeyFilter) (g : ChannelFlag) (d : Channel) :
    (s.putKey k).channelFlag g d = s.channelFlag g d := rfl
@[simp] theorem State.putKey_lastAckOf (s : State) (k : KeyFilter) (n : Nat) :
    (s.putKey k).lastAckOf n = s.lastAckOf n := rfl
@[simp] theorem State.putKey_engineRunning (s : State) (k : KeyFilter) :
    (s.putKey k).engineRunning = s.engineRunning := rfl
@[simp] theorem State.putKey_saving (s : State) (k : KeyFilter) :
    (s.putKey k).saving = s.saving := rfl

/-! ## State.putQueue -/

@[simp] theorem State.putQueue_power (s : State) (k : List CueEntry) : (s.putQueue k).power = s.power := rfl
@[simp] theorem State.putQueue_pins (s : State) (k : List CueEntry) : (s.putQueue k).pins = s.pins := rfl
@[simp] theorem State.putQueue_live (s : State) (k : List CueEntry) : (s.putQueue k).live = s.live := rfl
@[simp] theorem State.putQueue_cdu (s : State) (k : List CueEntry) : (s.putQueue k).cdu = s.cdu := rfl
@[simp] theorem State.putQueue_stc (s : State) (k : List CueEntry) : (s.putQueue k).stc = s.stc := rfl
@[simp] theorem State.putQueue_sst (s : State) (k : List CueEntry) : (s.putQueue k).sst = s.sst := rfl
@[simp] theorem State.putQueue_rpe (s : State) (k : List CueEntry) : (s.putQueue k).rpe = s.rpe := rfl
@[simp] theorem State.putQueue_sup (s : State) (k : List CueEntry) : (s.putQueue k).sup = s.sup := rfl
@[simp] theorem State.putQueue_aut (s : State) (k : List CueEntry) : (s.putQueue k).aut = s.aut := rfl
@[simp] theorem State.putQueue_cus (s : State) (k : List CueEntry) :
    (s.putQueue k).cus = { s.cus with queue := k } := rfl
@[simp] theorem State.putQueue_xps (s : State) (k : List CueEntry) : (s.putQueue k).xps = s.xps := rfl
@[simp] theorem State.putQueue_sli (s : State) (k : List CueEntry) : (s.putQueue k).sli = s.sli := rfl
@[simp] theorem State.putQueue_store (s : State) (k : List CueEntry) : (s.putQueue k).store = s.store := rfl
@[simp] theorem State.putQueue_rx (s : State) (k : List CueEntry) : (s.putQueue k).rx = s.rx := rfl
@[simp] theorem State.putQueue_incoming (s : State) (k : List CueEntry) : (s.putQueue k).incoming = s.incoming := rfl
@[simp] theorem State.putQueue_freeUsed (s : State) (k : List CueEntry) : (s.putQueue k).freeUsed = s.freeUsed := rfl
@[simp] theorem State.putQueue_pending (s : State) (k : List CueEntry) : (s.putQueue k).pending = s.pending := rfl
@[simp] theorem State.putQueue_now (s : State) (k : List CueEntry) :
    (s.putQueue k).now = s.now := rfl
@[simp] theorem State.putQueue_format (s : State) (k : List CueEntry) :
    (s.putQueue k).format = s.format := rfl
@[simp] theorem State.putQueue_cfg (s : State) (k : List CueEntry) (d : Channel) :
    (s.putQueue k).cfg d = s.cfg d := rfl
@[simp] theorem State.putQueue_authority (s : State) (k : List CueEntry) (d : Channel) :
    (s.putQueue k).authority d = s.authority d := rfl
@[simp] theorem State.putQueue_isMain (s : State) (k : List CueEntry) (d : Channel) :
    (s.putQueue k).isMain d = s.isMain d := rfl
@[simp] theorem State.putQueue_cue (s : State) (k : List CueEntry) (d : Channel) :
    (s.putQueue k).cue d = s.cue d := rfl
@[simp] theorem State.putQueue_watched (s : State) (k : List CueEntry) (d : Channel) :
    (s.putQueue k).watched d = s.watched d := rfl
@[simp] theorem State.putQueue_pages (s : State) (k : List CueEntry) (d : Channel) :
    (s.putQueue k).pages d = s.pages d := rfl
@[simp] theorem State.putQueue_site (s : State) (k : List CueEntry) (q : Side) :
    (s.putQueue k).site q = s.site q := rfl
@[simp] theorem State.putQueue_feed (s : State) (k : List CueEntry) (q : Side) :
    (s.putQueue k).feed q = s.feed q := rfl
@[simp] theorem State.putQueue_linkUp (s : State) (k : List CueEntry) :
    (s.putQueue k).linkUp = s.linkUp := rfl
@[simp] theorem State.putQueue_deviceFlag (s : State) (k : List CueEntry) (f : DeviceFlag) :
    (s.putQueue k).deviceFlag f = s.deviceFlag f := rfl
@[simp] theorem State.putQueue_channelFlag (s : State) (k : List CueEntry) (g : ChannelFlag) (d : Channel) :
    (s.putQueue k).channelFlag g d = s.channelFlag g d := rfl
@[simp] theorem State.putQueue_lastAckOf (s : State) (k : List CueEntry) (n : Nat) :
    (s.putQueue k).lastAckOf n = s.lastAckOf n := rfl
@[simp] theorem State.putQueue_engineRunning (s : State) (k : List CueEntry) :
    (s.putQueue k).engineRunning = s.engineRunning := rfl
@[simp] theorem State.putQueue_saving (s : State) (k : List CueEntry) :
    (s.putQueue k).saving = s.saving := rfl

/-! ## State.putTxn -/

@[simp] theorem State.putTxn_power (s : State) (k : Option Txn) : (s.putTxn k).power = s.power := rfl
@[simp] theorem State.putTxn_pins (s : State) (k : Option Txn) : (s.putTxn k).pins = s.pins := rfl
@[simp] theorem State.putTxn_live (s : State) (k : Option Txn) : (s.putTxn k).live = s.live := rfl
@[simp] theorem State.putTxn_cdu (s : State) (k : Option Txn) : (s.putTxn k).cdu = s.cdu := rfl
@[simp] theorem State.putTxn_stc (s : State) (k : Option Txn) : (s.putTxn k).stc = s.stc := rfl
@[simp] theorem State.putTxn_sst (s : State) (k : Option Txn) : (s.putTxn k).sst = s.sst := rfl
@[simp] theorem State.putTxn_rpe (s : State) (k : Option Txn) : (s.putTxn k).rpe = s.rpe := rfl
@[simp] theorem State.putTxn_sup (s : State) (k : Option Txn) : (s.putTxn k).sup = s.sup := rfl
@[simp] theorem State.putTxn_aut (s : State) (k : Option Txn) : (s.putTxn k).aut = s.aut := rfl
@[simp] theorem State.putTxn_cus (s : State) (k : Option Txn) :
    (s.putTxn k).cus = { s.cus with txn := k } := rfl
@[simp] theorem State.putTxn_xps (s : State) (k : Option Txn) : (s.putTxn k).xps = s.xps := rfl
@[simp] theorem State.putTxn_sli (s : State) (k : Option Txn) : (s.putTxn k).sli = s.sli := rfl
@[simp] theorem State.putTxn_store (s : State) (k : Option Txn) : (s.putTxn k).store = s.store := rfl
@[simp] theorem State.putTxn_rx (s : State) (k : Option Txn) : (s.putTxn k).rx = s.rx := rfl
@[simp] theorem State.putTxn_incoming (s : State) (k : Option Txn) : (s.putTxn k).incoming = s.incoming := rfl
@[simp] theorem State.putTxn_freeUsed (s : State) (k : Option Txn) : (s.putTxn k).freeUsed = s.freeUsed := rfl
@[simp] theorem State.putTxn_pending (s : State) (k : Option Txn) : (s.putTxn k).pending = s.pending := rfl
@[simp] theorem State.putTxn_now (s : State) (k : Option Txn) :
    (s.putTxn k).now = s.now := rfl
@[simp] theorem State.putTxn_format (s : State) (k : Option Txn) :
    (s.putTxn k).format = s.format := rfl
@[simp] theorem State.putTxn_cfg (s : State) (k : Option Txn) (d : Channel) :
    (s.putTxn k).cfg d = s.cfg d := rfl
@[simp] theorem State.putTxn_authority (s : State) (k : Option Txn) (d : Channel) :
    (s.putTxn k).authority d = s.authority d := rfl
@[simp] theorem State.putTxn_isMain (s : State) (k : Option Txn) (d : Channel) :
    (s.putTxn k).isMain d = s.isMain d := rfl
@[simp] theorem State.putTxn_cue (s : State) (k : Option Txn) (d : Channel) :
    (s.putTxn k).cue d = s.cue d := rfl
@[simp] theorem State.putTxn_watched (s : State) (k : Option Txn) (d : Channel) :
    (s.putTxn k).watched d = s.watched d := rfl
@[simp] theorem State.putTxn_pages (s : State) (k : Option Txn) (d : Channel) :
    (s.putTxn k).pages d = s.pages d := rfl
@[simp] theorem State.putTxn_site (s : State) (k : Option Txn) (q : Side) :
    (s.putTxn k).site q = s.site q := rfl
@[simp] theorem State.putTxn_feed (s : State) (k : Option Txn) (q : Side) :
    (s.putTxn k).feed q = s.feed q := rfl
@[simp] theorem State.putTxn_linkUp (s : State) (k : Option Txn) :
    (s.putTxn k).linkUp = s.linkUp := rfl
@[simp] theorem State.putTxn_deviceFlag (s : State) (k : Option Txn) (f : DeviceFlag) :
    (s.putTxn k).deviceFlag f = s.deviceFlag f := rfl
@[simp] theorem State.putTxn_channelFlag (s : State) (k : Option Txn) (g : ChannelFlag) (d : Channel) :
    (s.putTxn k).channelFlag g d = s.channelFlag g d := rfl
@[simp] theorem State.putTxn_lastAckOf (s : State) (k : Option Txn) (n : Nat) :
    (s.putTxn k).lastAckOf n = s.lastAckOf n := rfl
@[simp] theorem State.putTxn_engineRunning (s : State) (k : Option Txn) :
    (s.putTxn k).engineRunning = s.engineRunning := rfl
@[simp] theorem State.putTxn_saving (s : State) (k : Option Txn) :
    (s.putTxn k).saving = s.saving := rfl

/-! ## State.putPendingXp -/

@[simp] theorem State.putPendingXp_power (s : State) (k : List Crosspoint) : (s.putPendingXp k).power = s.power := rfl
@[simp] theorem State.putPendingXp_pins (s : State) (k : List Crosspoint) : (s.putPendingXp k).pins = s.pins := rfl
@[simp] theorem State.putPendingXp_live (s : State) (k : List Crosspoint) : (s.putPendingXp k).live = s.live := rfl
@[simp] theorem State.putPendingXp_cdu (s : State) (k : List Crosspoint) : (s.putPendingXp k).cdu = s.cdu := rfl
@[simp] theorem State.putPendingXp_stc (s : State) (k : List Crosspoint) : (s.putPendingXp k).stc = s.stc := rfl
@[simp] theorem State.putPendingXp_sst (s : State) (k : List Crosspoint) : (s.putPendingXp k).sst = s.sst := rfl
@[simp] theorem State.putPendingXp_rpe (s : State) (k : List Crosspoint) : (s.putPendingXp k).rpe = s.rpe := rfl
@[simp] theorem State.putPendingXp_sup (s : State) (k : List Crosspoint) : (s.putPendingXp k).sup = s.sup := rfl
@[simp] theorem State.putPendingXp_aut (s : State) (k : List Crosspoint) : (s.putPendingXp k).aut = s.aut := rfl
@[simp] theorem State.putPendingXp_cus (s : State) (k : List Crosspoint) : (s.putPendingXp k).cus = s.cus := rfl
@[simp] theorem State.putPendingXp_xps (s : State) (k : List Crosspoint) :
    (s.putPendingXp k).xps = { s.xps with pending := k } := rfl
@[simp] theorem State.putPendingXp_sli (s : State) (k : List Crosspoint) : (s.putPendingXp k).sli = s.sli := rfl
@[simp] theorem State.putPendingXp_store (s : State) (k : List Crosspoint) : (s.putPendingXp k).store = s.store := rfl
@[simp] theorem State.putPendingXp_rx (s : State) (k : List Crosspoint) : (s.putPendingXp k).rx = s.rx := rfl
@[simp] theorem State.putPendingXp_incoming (s : State) (k : List Crosspoint) : (s.putPendingXp k).incoming = s.incoming := rfl
@[simp] theorem State.putPendingXp_freeUsed (s : State) (k : List Crosspoint) : (s.putPendingXp k).freeUsed = s.freeUsed := rfl
@[simp] theorem State.putPendingXp_pending (s : State) (k : List Crosspoint) : (s.putPendingXp k).pending = s.pending := rfl
@[simp] theorem State.putPendingXp_now (s : State) (k : List Crosspoint) :
    (s.putPendingXp k).now = s.now := rfl
@[simp] theorem State.putPendingXp_format (s : State) (k : List Crosspoint) :
    (s.putPendingXp k).format = s.format := rfl
@[simp] theorem State.putPendingXp_cfg (s : State) (k : List Crosspoint) (d : Channel) :
    (s.putPendingXp k).cfg d = s.cfg d := rfl
@[simp] theorem State.putPendingXp_authority (s : State) (k : List Crosspoint) (d : Channel) :
    (s.putPendingXp k).authority d = s.authority d := rfl
@[simp] theorem State.putPendingXp_isMain (s : State) (k : List Crosspoint) (d : Channel) :
    (s.putPendingXp k).isMain d = s.isMain d := rfl
@[simp] theorem State.putPendingXp_cue (s : State) (k : List Crosspoint) (d : Channel) :
    (s.putPendingXp k).cue d = s.cue d := rfl
@[simp] theorem State.putPendingXp_watched (s : State) (k : List Crosspoint) (d : Channel) :
    (s.putPendingXp k).watched d = s.watched d := rfl
@[simp] theorem State.putPendingXp_pages (s : State) (k : List Crosspoint) (d : Channel) :
    (s.putPendingXp k).pages d = s.pages d := rfl
@[simp] theorem State.putPendingXp_site (s : State) (k : List Crosspoint) (q : Side) :
    (s.putPendingXp k).site q = s.site q := rfl
@[simp] theorem State.putPendingXp_feed (s : State) (k : List Crosspoint) (q : Side) :
    (s.putPendingXp k).feed q = s.feed q := rfl
@[simp] theorem State.putPendingXp_linkUp (s : State) (k : List Crosspoint) :
    (s.putPendingXp k).linkUp = s.linkUp := rfl
@[simp] theorem State.putPendingXp_deviceFlag (s : State) (k : List Crosspoint) (f : DeviceFlag) :
    (s.putPendingXp k).deviceFlag f = s.deviceFlag f := rfl
@[simp] theorem State.putPendingXp_channelFlag (s : State) (k : List Crosspoint) (g : ChannelFlag) (d : Channel) :
    (s.putPendingXp k).channelFlag g d = s.channelFlag g d := rfl
@[simp] theorem State.putPendingXp_lastAckOf (s : State) (k : List Crosspoint) (n : Nat) :
    (s.putPendingXp k).lastAckOf n = s.lastAckOf n := rfl
@[simp] theorem State.putPendingXp_engineRunning (s : State) (k : List Crosspoint) :
    (s.putPendingXp k).engineRunning = s.engineRunning := rfl
@[simp] theorem State.putPendingXp_saving (s : State) (k : List Crosspoint) :
    (s.putPendingXp k).saving = s.saving := rfl

/-! ## State.putAwaiting -/

@[simp] theorem State.putAwaiting_power (s : State) (k : List Awaiting) : (s.putAwaiting k).power = s.power := rfl
@[simp] theorem State.putAwaiting_pins (s : State) (k : List Awaiting) : (s.putAwaiting k).pins = s.pins := rfl
@[simp] theorem State.putAwaiting_live (s : State) (k : List Awaiting) : (s.putAwaiting k).live = s.live := rfl
@[simp] theorem State.putAwaiting_cdu (s : State) (k : List Awaiting) : (s.putAwaiting k).cdu = s.cdu := rfl
@[simp] theorem State.putAwaiting_stc (s : State) (k : List Awaiting) : (s.putAwaiting k).stc = s.stc := rfl
@[simp] theorem State.putAwaiting_sst (s : State) (k : List Awaiting) : (s.putAwaiting k).sst = s.sst := rfl
@[simp] theorem State.putAwaiting_rpe (s : State) (k : List Awaiting) : (s.putAwaiting k).rpe = s.rpe := rfl
@[simp] theorem State.putAwaiting_sup (s : State) (k : List Awaiting) : (s.putAwaiting k).sup = s.sup := rfl
@[simp] theorem State.putAwaiting_aut (s : State) (k : List Awaiting) : (s.putAwaiting k).aut = s.aut := rfl
@[simp] theorem State.putAwaiting_cus (s : State) (k : List Awaiting) : (s.putAwaiting k).cus = s.cus := rfl
@[simp] theorem State.putAwaiting_xps (s : State) (k : List Awaiting) :
    (s.putAwaiting k).xps = { s.xps with awaiting := k } := rfl
@[simp] theorem State.putAwaiting_sli (s : State) (k : List Awaiting) : (s.putAwaiting k).sli = s.sli := rfl
@[simp] theorem State.putAwaiting_store (s : State) (k : List Awaiting) : (s.putAwaiting k).store = s.store := rfl
@[simp] theorem State.putAwaiting_rx (s : State) (k : List Awaiting) : (s.putAwaiting k).rx = s.rx := rfl
@[simp] theorem State.putAwaiting_incoming (s : State) (k : List Awaiting) : (s.putAwaiting k).incoming = s.incoming := rfl
@[simp] theorem State.putAwaiting_freeUsed (s : State) (k : List Awaiting) : (s.putAwaiting k).freeUsed = s.freeUsed := rfl
@[simp] theorem State.putAwaiting_pending (s : State) (k : List Awaiting) : (s.putAwaiting k).pending = s.pending := rfl
@[simp] theorem State.putAwaiting_now (s : State) (k : List Awaiting) :
    (s.putAwaiting k).now = s.now := rfl
@[simp] theorem State.putAwaiting_format (s : State) (k : List Awaiting) :
    (s.putAwaiting k).format = s.format := rfl
@[simp] theorem State.putAwaiting_cfg (s : State) (k : List Awaiting) (d : Channel) :
    (s.putAwaiting k).cfg d = s.cfg d := rfl
@[simp] theorem State.putAwaiting_authority (s : State) (k : List Awaiting) (d : Channel) :
    (s.putAwaiting k).authority d = s.authority d := rfl
@[simp] theorem State.putAwaiting_isMain (s : State) (k : List Awaiting) (d : Channel) :
    (s.putAwaiting k).isMain d = s.isMain d := rfl
@[simp] theorem State.putAwaiting_cue (s : State) (k : List Awaiting) (d : Channel) :
    (s.putAwaiting k).cue d = s.cue d := rfl
@[simp] theorem State.putAwaiting_watched (s : State) (k : List Awaiting) (d : Channel) :
    (s.putAwaiting k).watched d = s.watched d := rfl
@[simp] theorem State.putAwaiting_pages (s : State) (k : List Awaiting) (d : Channel) :
    (s.putAwaiting k).pages d = s.pages d := rfl
@[simp] theorem State.putAwaiting_site (s : State) (k : List Awaiting) (q : Side) :
    (s.putAwaiting k).site q = s.site q := rfl
@[simp] theorem State.putAwaiting_feed (s : State) (k : List Awaiting) (q : Side) :
    (s.putAwaiting k).feed q = s.feed q := rfl
@[simp] theorem State.putAwaiting_linkUp (s : State) (k : List Awaiting) :
    (s.putAwaiting k).linkUp = s.linkUp := rfl
@[simp] theorem State.putAwaiting_deviceFlag (s : State) (k : List Awaiting) (f : DeviceFlag) :
    (s.putAwaiting k).deviceFlag f = s.deviceFlag f := rfl
@[simp] theorem State.putAwaiting_channelFlag (s : State) (k : List Awaiting) (g : ChannelFlag) (d : Channel) :
    (s.putAwaiting k).channelFlag g d = s.channelFlag g d := rfl
@[simp] theorem State.putAwaiting_lastAckOf (s : State) (k : List Awaiting) (n : Nat) :
    (s.putAwaiting k).lastAckOf n = s.lastAckOf n := rfl
@[simp] theorem State.putAwaiting_engineRunning (s : State) (k : List Awaiting) :
    (s.putAwaiting k).engineRunning = s.engineRunning := rfl
@[simp] theorem State.putAwaiting_saving (s : State) (k : List Awaiting) :
    (s.putAwaiting k).saving = s.saving := rfl

/-! ## State.putChannelFlags -/

@[simp] theorem State.putChannelFlags_power (s : State) (c : Channel) (k : Vector Bool 14) : (s.putChannelFlags c k).power = s.power := rfl
@[simp] theorem State.putChannelFlags_pins (s : State) (c : Channel) (k : Vector Bool 14) : (s.putChannelFlags c k).pins = s.pins := rfl
@[simp] theorem State.putChannelFlags_live (s : State) (c : Channel) (k : Vector Bool 14) : (s.putChannelFlags c k).live = s.live := rfl
@[simp] theorem State.putChannelFlags_cdu (s : State) (c : Channel) (k : Vector Bool 14) : (s.putChannelFlags c k).cdu = s.cdu := rfl
@[simp] theorem State.putChannelFlags_stc (s : State) (c : Channel) (k : Vector Bool 14) : (s.putChannelFlags c k).stc = s.stc := rfl
@[simp] theorem State.putChannelFlags_sst (s : State) (c : Channel) (k : Vector Bool 14) : (s.putChannelFlags c k).sst = s.sst := rfl
@[simp] theorem State.putChannelFlags_rpe (s : State) (c : Channel) (k : Vector Bool 14) : (s.putChannelFlags c k).rpe = s.rpe := rfl
@[simp] theorem State.putChannelFlags_sup (s : State) (c : Channel) (k : Vector Bool 14) : (s.putChannelFlags c k).sup = s.sup := rfl
@[simp] theorem State.putChannelFlags_aut (s : State) (c : Channel) (k : Vector Bool 14) : (s.putChannelFlags c k).aut = s.aut := rfl
@[simp] theorem State.putChannelFlags_cus (s : State) (c : Channel) (k : Vector Bool 14) : (s.putChannelFlags c k).cus = s.cus := rfl
@[simp] theorem State.putChannelFlags_xps (s : State) (c : Channel) (k : Vector Bool 14) : (s.putChannelFlags c k).xps = s.xps := rfl
@[simp] theorem State.putChannelFlags_sli (s : State) (c : Channel) (k : Vector Bool 14) :
    (s.putChannelFlags c k).sli = { s.sli with channel := PerChannel.put s.sli.channel c k } := rfl
@[simp] theorem State.putChannelFlags_store (s : State) (c : Channel) (k : Vector Bool 14) : (s.putChannelFlags c k).store = s.store := rfl
@[simp] theorem State.putChannelFlags_rx (s : State) (c : Channel) (k : Vector Bool 14) : (s.putChannelFlags c k).rx = s.rx := rfl
@[simp] theorem State.putChannelFlags_incoming (s : State) (c : Channel) (k : Vector Bool 14) : (s.putChannelFlags c k).incoming = s.incoming := rfl
@[simp] theorem State.putChannelFlags_freeUsed (s : State) (c : Channel) (k : Vector Bool 14) : (s.putChannelFlags c k).freeUsed = s.freeUsed := rfl
@[simp] theorem State.putChannelFlags_pending (s : State) (c : Channel) (k : Vector Bool 14) : (s.putChannelFlags c k).pending = s.pending := rfl
@[simp] theorem State.putChannelFlags_now (s : State) (c : Channel) (k : Vector Bool 14) :
    (s.putChannelFlags c k).now = s.now := rfl
@[simp] theorem State.putChannelFlags_format (s : State) (c : Channel) (k : Vector Bool 14) :
    (s.putChannelFlags c k).format = s.format := rfl
@[simp] theorem State.putChannelFlags_cfg (s : State) (c : Channel) (k : Vector Bool 14) (d : Channel) :
    (s.putChannelFlags c k).cfg d = s.cfg d := rfl
@[simp] theorem State.putChannelFlags_authority (s : State) (c : Channel) (k : Vector Bool 14) (d : Channel) :
    (s.putChannelFlags c k).authority d = s.authority d := rfl
@[simp] theorem State.putChannelFlags_isMain (s : State) (c : Channel) (k : Vector Bool 14) (d : Channel) :
    (s.putChannelFlags c k).isMain d = s.isMain d := rfl
@[simp] theorem State.putChannelFlags_cue (s : State) (c : Channel) (k : Vector Bool 14) (d : Channel) :
    (s.putChannelFlags c k).cue d = s.cue d := rfl
@[simp] theorem State.putChannelFlags_watched (s : State) (c : Channel) (k : Vector Bool 14) (d : Channel) :
    (s.putChannelFlags c k).watched d = s.watched d := rfl
@[simp] theorem State.putChannelFlags_pages (s : State) (c : Channel) (k : Vector Bool 14) (d : Channel) :
    (s.putChannelFlags c k).pages d = s.pages d := rfl
@[simp] theorem State.putChannelFlags_site (s : State) (c : Channel) (k : Vector Bool 14) (q : Side) :
    (s.putChannelFlags c k).site q = s.site q := rfl
@[simp] theorem State.putChannelFlags_feed (s : State) (c : Channel) (k : Vector Bool 14) (q : Side) :
    (s.putChannelFlags c k).feed q = s.feed q := rfl
@[simp] theorem State.putChannelFlags_linkUp (s : State) (c : Channel) (k : Vector Bool 14) :
    (s.putChannelFlags c k).linkUp = s.linkUp := rfl
@[simp] theorem State.putChannelFlags_deviceFlag (s : State) (c : Channel) (k : Vector Bool 14) (f : DeviceFlag) :
    (s.putChannelFlags c k).deviceFlag f = s.deviceFlag f := rfl
@[simp] theorem State.putChannelFlags_lastAckOf (s : State) (c : Channel) (k : Vector Bool 14) (n : Nat) :
    (s.putChannelFlags c k).lastAckOf n = s.lastAckOf n := rfl
@[simp] theorem State.putChannelFlags_engineRunning (s : State) (c : Channel) (k : Vector Bool 14) :
    (s.putChannelFlags c k).engineRunning = s.engineRunning := rfl
@[simp] theorem State.putChannelFlags_saving (s : State) (c : Channel) (k : Vector Bool 14) :
    (s.putChannelFlags c k).saving = s.saving := rfl

/-! ## State.putBaseline -/

@[simp] theorem State.putBaseline_power (s : State) (c : Channel) (k : Option SeqNo) : (s.putBaseline c k).power = s.power := rfl
@[simp] theorem State.putBaseline_pins (s : State) (c : Channel) (k : Option SeqNo) : (s.putBaseline c k).pins = s.pins := rfl
@[simp] theorem State.putBaseline_live (s : State) (c : Channel) (k : Option SeqNo) : (s.putBaseline c k).live = s.live := rfl
@[simp] theorem State.putBaseline_cdu (s : State) (c : Channel) (k : Option SeqNo) : (s.putBaseline c k).cdu = s.cdu := rfl
@[simp] theorem State.putBaseline_stc (s : State) (c : Channel) (k : Option SeqNo) : (s.putBaseline c k).stc = s.stc := rfl
@[simp] theorem State.putBaseline_sst (s : State) (c : Channel) (k : Option SeqNo) : (s.putBaseline c k).sst = s.sst := rfl
@[simp] theorem State.putBaseline_rpe (s : State) (c : Channel) (k : Option SeqNo) :
    (s.putBaseline c k).rpe = { s.rpe with baseline := PerChannel.put s.rpe.baseline c k } := rfl
@[simp] theorem State.putBaseline_sup (s : State) (c : Channel) (k : Option SeqNo) : (s.putBaseline c k).sup = s.sup := rfl
@[simp] theorem State.putBaseline_aut (s : State) (c : Channel) (k : Option SeqNo) : (s.putBaseline c k).aut = s.aut := rfl
@[simp] theorem State.putBaseline_cus (s : State) (c : Channel) (k : Option SeqNo) : (s.putBaseline c k).cus = s.cus := rfl
@[simp] theorem State.putBaseline_xps (s : State) (c : Channel) (k : Option SeqNo) : (s.putBaseline c k).xps = s.xps := rfl
@[simp] theorem State.putBaseline_sli (s : State) (c : Channel) (k : Option SeqNo) : (s.putBaseline c k).sli = s.sli := rfl
@[simp] theorem State.putBaseline_store (s : State) (c : Channel) (k : Option SeqNo) : (s.putBaseline c k).store = s.store := rfl
@[simp] theorem State.putBaseline_rx (s : State) (c : Channel) (k : Option SeqNo) : (s.putBaseline c k).rx = s.rx := rfl
@[simp] theorem State.putBaseline_incoming (s : State) (c : Channel) (k : Option SeqNo) : (s.putBaseline c k).incoming = s.incoming := rfl
@[simp] theorem State.putBaseline_freeUsed (s : State) (c : Channel) (k : Option SeqNo) : (s.putBaseline c k).freeUsed = s.freeUsed := rfl
@[simp] theorem State.putBaseline_pending (s : State) (c : Channel) (k : Option SeqNo) : (s.putBaseline c k).pending = s.pending := rfl
@[simp] theorem State.putBaseline_now (s : State) (c : Channel) (k : Option SeqNo) :
    (s.putBaseline c k).now = s.now := rfl
@[simp] theorem State.putBaseline_format (s : State) (c : Channel) (k : Option SeqNo) :
    (s.putBaseline c k).format = s.format := rfl
@[simp] theorem State.putBaseline_cfg (s : State) (c : Channel) (k : Option SeqNo) (d : Channel) :
    (s.putBaseline c k).cfg d = s.cfg d := rfl
@[simp] theorem State.putBaseline_authority (s : State) (c : Channel) (k : Option SeqNo) (d : Channel) :
    (s.putBaseline c k).authority d = s.authority d := rfl
@[simp] theorem State.putBaseline_isMain (s : State) (c : Channel) (k : Option SeqNo) (d : Channel) :
    (s.putBaseline c k).isMain d = s.isMain d := rfl
@[simp] theorem State.putBaseline_cue (s : State) (c : Channel) (k : Option SeqNo) (d : Channel) :
    (s.putBaseline c k).cue d = s.cue d := rfl
@[simp] theorem State.putBaseline_watched (s : State) (c : Channel) (k : Option SeqNo) (d : Channel) :
    (s.putBaseline c k).watched d = s.watched d := rfl
@[simp] theorem State.putBaseline_pages (s : State) (c : Channel) (k : Option SeqNo) (d : Channel) :
    (s.putBaseline c k).pages d = s.pages d := rfl
@[simp] theorem State.putBaseline_site (s : State) (c : Channel) (k : Option SeqNo) (q : Side) :
    (s.putBaseline c k).site q = s.site q := rfl
@[simp] theorem State.putBaseline_feed (s : State) (c : Channel) (k : Option SeqNo) (q : Side) :
    (s.putBaseline c k).feed q = s.feed q := rfl
@[simp] theorem State.putBaseline_linkUp (s : State) (c : Channel) (k : Option SeqNo) :
    (s.putBaseline c k).linkUp = s.linkUp := rfl
@[simp] theorem State.putBaseline_deviceFlag (s : State) (c : Channel) (k : Option SeqNo) (f : DeviceFlag) :
    (s.putBaseline c k).deviceFlag f = s.deviceFlag f := rfl
@[simp] theorem State.putBaseline_channelFlag (s : State) (c : Channel) (k : Option SeqNo) (g : ChannelFlag) (d : Channel) :
    (s.putBaseline c k).channelFlag g d = s.channelFlag g d := rfl
@[simp] theorem State.putBaseline_lastAckOf (s : State) (c : Channel) (k : Option SeqNo) (n : Nat) :
    (s.putBaseline c k).lastAckOf n = s.lastAckOf n := rfl
@[simp] theorem State.putBaseline_engineRunning (s : State) (c : Channel) (k : Option SeqNo) :
    (s.putBaseline c k).engineRunning = s.engineRunning := rfl
@[simp] theorem State.putBaseline_saving (s : State) (c : Channel) (k : Option SeqNo) :
    (s.putBaseline c k).saving = s.saving := rfl

/-! ## State.putSave -/

@[simp] theorem State.putSave_power (s : State) (k : Option SaveJob) : (s.putSave k).power = s.power := rfl
@[simp] theorem State.putSave_pins (s : State) (k : Option SaveJob) : (s.putSave k).pins = s.pins := rfl
@[simp] theorem State.putSave_live (s : State) (k : Option SaveJob) : (s.putSave k).live = s.live := rfl
@[simp] theorem State.putSave_cdu (s : State) (k : Option SaveJob) : (s.putSave k).cdu = s.cdu := rfl
@[simp] theorem State.putSave_stc (s : State) (k : Option SaveJob) : (s.putSave k).stc = s.stc := rfl
@[simp] theorem State.putSave_sst (s : State) (k : Option SaveJob) : (s.putSave k).sst = s.sst := rfl
@[simp] theorem State.putSave_rpe (s : State) (k : Option SaveJob) : (s.putSave k).rpe = s.rpe := rfl
@[simp] theorem State.putSave_sup (s : State) (k : Option SaveJob) : (s.putSave k).sup = s.sup := rfl
@[simp] theorem State.putSave_aut (s : State) (k : Option SaveJob) : (s.putSave k).aut = s.aut := rfl
@[simp] theorem State.putSave_cus (s : State) (k : Option SaveJob) : (s.putSave k).cus = s.cus := rfl
@[simp] theorem State.putSave_xps (s : State) (k : Option SaveJob) : (s.putSave k).xps = s.xps := rfl
@[simp] theorem State.putSave_sli (s : State) (k : Option SaveJob) : (s.putSave k).sli = s.sli := rfl
@[simp] theorem State.putSave_store (s : State) (k : Option SaveJob) :
    (s.putSave k).store = { s.store with save := k } := rfl
@[simp] theorem State.putSave_rx (s : State) (k : Option SaveJob) : (s.putSave k).rx = s.rx := rfl
@[simp] theorem State.putSave_incoming (s : State) (k : Option SaveJob) : (s.putSave k).incoming = s.incoming := rfl
@[simp] theorem State.putSave_freeUsed (s : State) (k : Option SaveJob) : (s.putSave k).freeUsed = s.freeUsed := rfl
@[simp] theorem State.putSave_pending (s : State) (k : Option SaveJob) : (s.putSave k).pending = s.pending := rfl
@[simp] theorem State.putSave_now (s : State) (k : Option SaveJob) :
    (s.putSave k).now = s.now := rfl
@[simp] theorem State.putSave_format (s : State) (k : Option SaveJob) :
    (s.putSave k).format = s.format := rfl
@[simp] theorem State.putSave_cfg (s : State) (k : Option SaveJob) (d : Channel) :
    (s.putSave k).cfg d = s.cfg d := rfl
@[simp] theorem State.putSave_authority (s : State) (k : Option SaveJob) (d : Channel) :
    (s.putSave k).authority d = s.authority d := rfl
@[simp] theorem State.putSave_isMain (s : State) (k : Option SaveJob) (d : Channel) :
    (s.putSave k).isMain d = s.isMain d := rfl
@[simp] theorem State.putSave_cue (s : State) (k : Option SaveJob) (d : Channel) :
    (s.putSave k).cue d = s.cue d := rfl
@[simp] theorem State.putSave_watched (s : State) (k : Option SaveJob) (d : Channel) :
    (s.putSave k).watched d = s.watched d := rfl
@[simp] theorem State.putSave_pages (s : State) (k : Option SaveJob) (d : Channel) :
    (s.putSave k).pages d = s.pages d := rfl
@[simp] theorem State.putSave_site (s : State) (k : Option SaveJob) (q : Side) :
    (s.putSave k).site q = s.site q := rfl
@[simp] theorem State.putSave_feed (s : State) (k : Option SaveJob) (q : Side) :
    (s.putSave k).feed q = s.feed q := rfl
@[simp] theorem State.putSave_linkUp (s : State) (k : Option SaveJob) :
    (s.putSave k).linkUp = s.linkUp := rfl
@[simp] theorem State.putSave_deviceFlag (s : State) (k : Option SaveJob) (f : DeviceFlag) :
    (s.putSave k).deviceFlag f = s.deviceFlag f := rfl
@[simp] theorem State.putSave_channelFlag (s : State) (k : Option SaveJob) (g : ChannelFlag) (d : Channel) :
    (s.putSave k).channelFlag g d = s.channelFlag g d := rfl
@[simp] theorem State.putSave_lastAckOf (s : State) (k : Option SaveJob) (n : Nat) :
    (s.putSave k).lastAckOf n = s.lastAckOf n := rfl
@[simp] theorem State.putSave_engineRunning (s : State) (k : Option SaveJob) :
    (s.putSave k).engineRunning = s.engineRunning := rfl

/-! ## State.evalAlarm -/

@[simp] theorem State.evalAlarm_power (s : State) : (s.evalAlarm).power = s.power := rfl
@[simp] theorem State.evalAlarm_pins (s : State) : (s.evalAlarm).pins = s.pins := rfl
@[simp] theorem State.evalAlarm_live (s : State) : (s.evalAlarm).live = s.live := rfl
@[simp] theorem State.evalAlarm_cdu (s : State) : (s.evalAlarm).cdu = s.cdu := rfl
@[simp] theorem State.evalAlarm_stc (s : State) : (s.evalAlarm).stc = s.stc := rfl
@[simp] theorem State.evalAlarm_sst (s : State) : (s.evalAlarm).sst = s.sst := rfl
@[simp] theorem State.evalAlarm_rpe (s : State) : (s.evalAlarm).rpe = s.rpe := rfl
@[simp] theorem State.evalAlarm_sup (s : State) : (s.evalAlarm).sup = s.sup := rfl
@[simp] theorem State.evalAlarm_aut (s : State) : (s.evalAlarm).aut = s.aut := rfl
@[simp] theorem State.evalAlarm_cus (s : State) : (s.evalAlarm).cus = s.cus := rfl
@[simp] theorem State.evalAlarm_xps (s : State) :
    (s.evalAlarm).xps = { s.xps with alarm := s.alarmValue } := rfl
@[simp] theorem State.evalAlarm_sli (s : State) : (s.evalAlarm).sli = s.sli := rfl
@[simp] theorem State.evalAlarm_store (s : State) : (s.evalAlarm).store = s.store := rfl
@[simp] theorem State.evalAlarm_rx (s : State) : (s.evalAlarm).rx = s.rx := rfl
@[simp] theorem State.evalAlarm_incoming (s : State) : (s.evalAlarm).incoming = s.incoming := rfl
@[simp] theorem State.evalAlarm_freeUsed (s : State) : (s.evalAlarm).freeUsed = s.freeUsed := rfl
@[simp] theorem State.evalAlarm_pending (s : State) : (s.evalAlarm).pending = s.pending := rfl
@[simp] theorem State.evalAlarm_now (s : State) :
    (s.evalAlarm).now = s.now := rfl
@[simp] theorem State.evalAlarm_format (s : State) :
    (s.evalAlarm).format = s.format := rfl
@[simp] theorem State.evalAlarm_cfg (s : State) (d : Channel) :
    (s.evalAlarm).cfg d = s.cfg d := rfl
@[simp] theorem State.evalAlarm_authority (s : State) (d : Channel) :
    (s.evalAlarm).authority d = s.authority d := rfl
@[simp] theorem State.evalAlarm_isMain (s : State) (d : Channel) :
    (s.evalAlarm).isMain d = s.isMain d := rfl
@[simp] theorem State.evalAlarm_cue (s : State) (d : Channel) :
    (s.evalAlarm).cue d = s.cue d := rfl
@[simp] theorem State.evalAlarm_watched (s : State) (d : Channel) :
    (s.evalAlarm).watched d = s.watched d := rfl
@[simp] theorem State.evalAlarm_pages (s : State) (d : Channel) :
    (s.evalAlarm).pages d = s.pages d := rfl
@[simp] theorem State.evalAlarm_site (s : State) (q : Side) :
    (s.evalAlarm).site q = s.site q := rfl
@[simp] theorem State.evalAlarm_feed (s : State) (q : Side) :
    (s.evalAlarm).feed q = s.feed q := rfl
@[simp] theorem State.evalAlarm_linkUp (s : State) :
    (s.evalAlarm).linkUp = s.linkUp := rfl
@[simp] theorem State.evalAlarm_deviceFlag (s : State) (f : DeviceFlag) :
    (s.evalAlarm).deviceFlag f = s.deviceFlag f := rfl
@[simp] theorem State.evalAlarm_channelFlag (s : State) (g : ChannelFlag) (d : Channel) :
    (s.evalAlarm).channelFlag g d = s.channelFlag g d := rfl
@[simp] theorem State.evalAlarm_lastAckOf (s : State) (n : Nat) :
    (s.evalAlarm).lastAckOf n = s.lastAckOf n := rfl
@[simp] theorem State.evalAlarm_engineRunning (s : State) :
    (s.evalAlarm).engineRunning = s.engineRunning := rfl
@[simp] theorem State.evalAlarm_saving (s : State) :
    (s.evalAlarm).saving = s.saving := rfl

/-! ## State.evalTally -/

@[simp] theorem State.evalTally_power (s : State) (c : Channel) : (s.evalTally c).power = s.power := rfl
@[simp] theorem State.evalTally_pins (s : State) (c : Channel) : (s.evalTally c).pins = s.pins := rfl
@[simp] theorem State.evalTally_live (s : State) (c : Channel) : (s.evalTally c).live = s.live := rfl
@[simp] theorem State.evalTally_cdu (s : State) (c : Channel) : (s.evalTally c).cdu = s.cdu := rfl
@[simp] theorem State.evalTally_stc (s : State) (c : Channel) : (s.evalTally c).stc = s.stc := rfl
@[simp] theorem State.evalTally_sst (s : State) (c : Channel) : (s.evalTally c).sst = s.sst := rfl
@[simp] theorem State.evalTally_rpe (s : State) (c : Channel) : (s.evalTally c).rpe = s.rpe := rfl
@[simp] theorem State.evalTally_sup (s : State) (c : Channel) : (s.evalTally c).sup = s.sup := rfl
@[simp] theorem State.evalTally_aut (s : State) (c : Channel) : (s.evalTally c).aut = s.aut := rfl
@[simp] theorem State.evalTally_cus (s : State) (c : Channel) : (s.evalTally c).cus = s.cus := rfl
@[simp] theorem State.evalTally_xps (s : State) (c : Channel) :
    (s.evalTally c).xps = { s.xps with tally := PerChannel.put s.xps.tally c (s.tallyValue c) } := rfl
@[simp] theorem State.evalTally_sli (s : State) (c : Channel) : (s.evalTally c).sli = s.sli := rfl
@[simp] theorem State.evalTally_store (s : State) (c : Channel) : (s.evalTally c).store = s.store := rfl
@[simp] theorem State.evalTally_rx (s : State) (c : Channel) : (s.evalTally c).rx = s.rx := rfl
@[simp] theorem State.evalTally_incoming (s : State) (c : Channel) : (s.evalTally c).incoming = s.incoming := rfl
@[simp] theorem State.evalTally_freeUsed (s : State) (c : Channel) : (s.evalTally c).freeUsed = s.freeUsed := rfl
@[simp] theorem State.evalTally_pending (s : State) (c : Channel) : (s.evalTally c).pending = s.pending := rfl
@[simp] theorem State.evalTally_now (s : State) (c : Channel) :
    (s.evalTally c).now = s.now := rfl
@[simp] theorem State.evalTally_format (s : State) (c : Channel) :
    (s.evalTally c).format = s.format := rfl
@[simp] theorem State.evalTally_cfg (s : State) (c : Channel) (d : Channel) :
    (s.evalTally c).cfg d = s.cfg d := rfl
@[simp] theorem State.evalTally_authority (s : State) (c : Channel) (d : Channel) :
    (s.evalTally c).authority d = s.authority d := rfl
@[simp] theorem State.evalTally_isMain (s : State) (c : Channel) (d : Channel) :
    (s.evalTally c).isMain d = s.isMain d := rfl
@[simp] theorem State.evalTally_cue (s : State) (c : Channel) (d : Channel) :
    (s.evalTally c).cue d = s.cue d := rfl
@[simp] theorem State.evalTally_watched (s : State) (c : Channel) (d : Channel) :
    (s.evalTally c).watched d = s.watched d := rfl
@[simp] theorem State.evalTally_pages (s : State) (c : Channel) (d : Channel) :
    (s.evalTally c).pages d = s.pages d := rfl
@[simp] theorem State.evalTally_site (s : State) (c : Channel) (q : Side) :
    (s.evalTally c).site q = s.site q := rfl
@[simp] theorem State.evalTally_feed (s : State) (c : Channel) (q : Side) :
    (s.evalTally c).feed q = s.feed q := rfl
@[simp] theorem State.evalTally_linkUp (s : State) (c : Channel) :
    (s.evalTally c).linkUp = s.linkUp := rfl
@[simp] theorem State.evalTally_deviceFlag (s : State) (c : Channel) (f : DeviceFlag) :
    (s.evalTally c).deviceFlag f = s.deviceFlag f := rfl
@[simp] theorem State.evalTally_channelFlag (s : State) (c : Channel) (g : ChannelFlag) (d : Channel) :
    (s.evalTally c).channelFlag g d = s.channelFlag g d := rfl
@[simp] theorem State.evalTally_lastAckOf (s : State) (c : Channel) (n : Nat) :
    (s.evalTally c).lastAckOf n = s.lastAckOf n := rfl
@[simp] theorem State.evalTally_engineRunning (s : State) (c : Channel) :
    (s.evalTally c).engineRunning = s.engineRunning := rfl
@[simp] theorem State.evalTally_saving (s : State) (c : Channel) :
    (s.evalTally c).saving = s.saving := rfl

/-! ## State.reportDue -/

@[simp] theorem State.reportDue_power (s : State) : (s.reportDue).power = s.power := rfl
@[simp] theorem State.reportDue_pins (s : State) : (s.reportDue).pins = s.pins := rfl
@[simp] theorem State.reportDue_live (s : State) : (s.reportDue).live = s.live := rfl
@[simp] theorem State.reportDue_cdu (s : State) : (s.reportDue).cdu = s.cdu := rfl
@[simp] theorem State.reportDue_stc (s : State) : (s.reportDue).stc = s.stc := rfl
@[simp] theorem State.reportDue_sst (s : State) : (s.reportDue).sst = s.sst := rfl
@[simp] theorem State.reportDue_rpe (s : State) :
    (s.reportDue).rpe = { s.rpe with port := s.rpe.port.map fun p => p.placeReport s.formReport } := rfl
@[simp] theorem State.reportDue_sup (s : State) : (s.reportDue).sup = s.sup := rfl
@[simp] theorem State.reportDue_aut (s : State) : (s.reportDue).aut = s.aut := rfl
@[simp] theorem State.reportDue_cus (s : State) : (s.reportDue).cus = s.cus := rfl
@[simp] theorem State.reportDue_xps (s : State) : (s.reportDue).xps = s.xps := rfl
@[simp] theorem State.reportDue_sli (s : State) : (s.reportDue).sli = s.sli := rfl
@[simp] theorem State.reportDue_store (s : State) : (s.reportDue).store = s.store := rfl
@[simp] theorem State.reportDue_rx (s : State) : (s.reportDue).rx = s.rx := rfl
@[simp] theorem State.reportDue_incoming (s : State) : (s.reportDue).incoming = s.incoming := rfl
@[simp] theorem State.reportDue_freeUsed (s : State) : (s.reportDue).freeUsed = s.freeUsed := rfl
@[simp] theorem State.reportDue_pending (s : State) : (s.reportDue).pending = s.pending := rfl
@[simp] theorem State.reportDue_now (s : State) :
    (s.reportDue).now = s.now := rfl
@[simp] theorem State.reportDue_format (s : State) :
    (s.reportDue).format = s.format := rfl
@[simp] theorem State.reportDue_cfg (s : State) (d : Channel) :
    (s.reportDue).cfg d = s.cfg d := rfl
@[simp] theorem State.reportDue_authority (s : State) (d : Channel) :
    (s.reportDue).authority d = s.authority d := rfl
@[simp] theorem State.reportDue_isMain (s : State) (d : Channel) :
    (s.reportDue).isMain d = s.isMain d := rfl
@[simp] theorem State.reportDue_cue (s : State) (d : Channel) :
    (s.reportDue).cue d = s.cue d := rfl
@[simp] theorem State.reportDue_watched (s : State) (d : Channel) :
    (s.reportDue).watched d = s.watched d := rfl
@[simp] theorem State.reportDue_pages (s : State) (d : Channel) :
    (s.reportDue).pages d = s.pages d := rfl
@[simp] theorem State.reportDue_site (s : State) (q : Side) :
    (s.reportDue).site q = s.site q := rfl
@[simp] theorem State.reportDue_linkUp (s : State) :
    (s.reportDue).linkUp = s.linkUp := rfl
@[simp] theorem State.reportDue_deviceFlag (s : State) (f : DeviceFlag) :
    (s.reportDue).deviceFlag f = s.deviceFlag f := rfl
@[simp] theorem State.reportDue_channelFlag (s : State) (g : ChannelFlag) (d : Channel) :
    (s.reportDue).channelFlag g d = s.channelFlag g d := rfl
@[simp] theorem State.reportDue_lastAckOf (s : State) (n : Nat) :
    (s.reportDue).lastAckOf n = s.lastAckOf n := rfl
@[simp] theorem State.reportDue_engineRunning (s : State) :
    (s.reportDue).engineRunning = s.engineRunning := rfl
@[simp] theorem State.reportDue_saving (s : State) :
    (s.reportDue).saving = s.saving := rfl

/-! ## State.beginLine -/

@[simp] theorem State.beginLine_power (s : State) : s.beginLine.power = s.power := rfl
@[simp] theorem State.beginLine_live (s : State) : s.beginLine.live = s.live := rfl
@[simp] theorem State.beginLine_cdu (s : State) : s.beginLine.cdu = s.cdu := rfl
@[simp] theorem State.beginLine_stc (s : State) : s.beginLine.stc = s.stc := rfl
@[simp] theorem State.beginLine_sst (s : State) : s.beginLine.sst = s.sst := rfl
@[simp] theorem State.beginLine_rpe (s : State) : s.beginLine.rpe = s.rpe := rfl
@[simp] theorem State.beginLine_sup (s : State) : s.beginLine.sup = s.sup := rfl
@[simp] theorem State.beginLine_aut (s : State) : s.beginLine.aut = s.aut := rfl
@[simp] theorem State.beginLine_cus (s : State) : s.beginLine.cus = s.cus := rfl
@[simp] theorem State.beginLine_xps (s : State) : s.beginLine.xps = s.xps := rfl
@[simp] theorem State.beginLine_sli (s : State) : s.beginLine.sli = s.sli := rfl
@[simp] theorem State.beginLine_rx (s : State) : s.beginLine.rx = s.rx := rfl
@[simp] theorem State.beginLine_incoming (s : State) : s.beginLine.incoming = s.incoming := rfl
@[simp] theorem State.beginLine_freeUsed (s : State) : s.beginLine.freeUsed = s.freeUsed := rfl
@[simp] theorem State.beginLine_pending (s : State) : s.beginLine.pending = s.pending := rfl
@[simp] theorem State.beginLine_pins (s : State) : s.beginLine.pins = s.pins.nextLine := rfl
@[simp] theorem State.beginLine_store (s : State) : s.beginLine.store = s.store.sampleNrst s.pins.nextLine.nrst := rfl
@[simp] theorem State.beginLine_format (s : State) : s.beginLine.format = s.format := rfl
@[simp] theorem Pins.nextLine_tkey (p : Pins) : p.nextLine.tkey = p.tkey := by
  unfold Pins.nextLine
  split <;> rfl

end Sys2Proof.Machine
end

