-- ==== Sys2Proof/Laws/Access.lean ====
section
/-! SUPPORT. Reading back what an update has written. -/

namespace Sys2Proof.Machine

/-! ## A channel's or a port's share, read after it was replaced -/

@[simp] theorem State.authority_putAuthority (s : State) (c d : Channel) (r : Authority) :
    (s.putAuthority c r).authority d = if d = c then r else s.authority d := PerChannel.get_put _ _ _ _

@[simp] theorem State.cue_putCue (s : State) (c d : Channel) (k : CueChannel) :
    (s.putCue c k).cue d = if d = c then k else s.cue d := PerChannel.get_put _ _ _ _

@[simp] theorem State.watched_putWatched (s : State) (c d : Channel) (k : SupChannel) :
    (s.putWatched c k).watched d = if d = c then k else s.watched d := PerChannel.get_put _ _ _ _

@[simp] theorem State.pages_putPages (s : State) (c d : Channel) (k : Pages) :
    (s.putPages c k).pages d = if d = c then k else s.pages d := PerChannel.get_put _ _ _ _

@[simp] theorem State.pages_putNext (s : State) (c d : Channel) (k : NextPage) :
    (s.putNext c k).pages d = if d = c then { s.pages c with next := k } else s.pages d := PerChannel.get_put _ _ _ _

@[simp] theorem State.pages_putActive (s : State) (c d : Channel) (k : Option Page) :
    (s.putActive c k).pages d = if d = c then { s.pages c with active := k } else s.pages d := PerChannel.get_put _ _ _ _

@[simp] theorem State.site_putSite (s : State) (p q : SitePort) (k : SitePortState) :
    (s.putSite p k).site q = if q = p then k else s.site q := PerSide.get_put _ _ _ _

@[simp] theorem State.feed_putFeed (s : State) (p q : FeedPort) (k : FeedPortState) :
    (s.putFeed p k).feed q = if q = p then k else s.feed q := PerSide.get_put _ _ _ _

@[simp] theorem State.cfg_putCfg (s : State) (c d : Channel) (k : ChannelSettings) :
    (s.putCfg c k).cfg d = if d = c then k else s.cfg d := PerChannel.get_put _ _ _ _

@[simp] theorem State.isMain_putAuthority (s : State) (c d : Channel) (r : Authority) :
    (s.putAuthority c r).isMain d = if d = c then r.name == .main else s.isMain d := by
  simp only [State.isMain, State.authority_putAuthority]
  split <;> rfl

@[simp] theorem State.now_putCdu (s : State) (k : Cdu) : (s.putCdu k).now = k.now := rfl

/-! ## Receive stages -/

@[simp] theorem RxStages.get_put (r : RxStages) (l m : LineId) (x : RxStage) :
    (r.put l x).get m = if m = l then x else r.get m := by
  cases l <;> cases m <;> rfl

/-! ## Reports -/

@[simp] theorem FeedPortState.placeReport_receiveSide (p : FeedPortState) (r : Report) :
    (p.placeReport r).receiveSide = p.receiveSide := by
  unfold FeedPortState.placeReport
  split <;> rfl

@[simp] theorem FeedPortState.placeReport_queue (p : FeedPortState) (r : Report) : (p.placeReport r).queue = p.queue := by
  unfold FeedPortState.placeReport
  split <;> rfl

@[simp] theorem FeedPortState.placeReport_enabled (p : FeedPortState) (r : Report) :
    (p.placeReport r).enabled = p.enabled := by
  unfold FeedPortState.placeReport
  split <;> rfl

theorem State.feed_reportDue (s : State) (p : FeedPort) : s.reportDue.feed p = (s.feed p).placeReport s.formReport :=
  PerSide.get_map _ _ _

/-! ## Notices -/

@[simp] theorem SitePortState.offer_withoutPairs (k : SitePortState) (p : PendingPair) (r : Bool) :
    (k.offer p r).withoutPairs = k.withoutPairs := by
  unfold SitePortState.offer
  split
  · split <;> rfl
  · split <;> rfl

/-! ## Flags -/

theorem State.alarmValue_evalAlarm (s : State) : s.evalAlarm.alarmValue = s.alarmValue := rfl

theorem State.evalAlarm_alarmLaw (s : State) : s.evalAlarm.AlarmLaw := rfl

end Sys2Proof.Machine
end

