-- ==== Sys2Proof/Laws/Frame.lean ====
section
/-! SUPPORT. What only some parts of the state change, as a relation that composes; and with it, that the conditions of the
tallies, of ALM and of shared destinations are kept. -/

namespace Sys2Proof.Machine

/-! ## Only some parts change -/

theorem OnlyChanges.refl (ps : List Part) (s : State) : OnlyChanges ps s s := by
  intro p _
  cases p <;> rfl

theorem Part.same.trans {p : Part} {s t u : State} (h : p.same s t) (k : p.same t u) : p.same s u := by
  cases p <;> exact Eq.trans k h

theorem OnlyChanges.trans {ps : List Part} {s t u : State} (h : OnlyChanges ps s t) (k : OnlyChanges ps t u) :
    OnlyChanges ps s u := fun p hp => (h p hp).trans (k p hp)

theorem OnlyChanges.mono {ps qs : List Part} {s t : State} (h : OnlyChanges ps s t) (sub : ps ⊆ qs) : OnlyChanges qs s t :=
  fun p hp => h p fun q => hp (sub q)

/-! ## The conditions that depend on few parts -/

theorem State.isMain_eq {s t : State} {c : Channel} (h : t.authority c = s.authority c) : t.isMain c = s.isMain c := by
  rw [State.isMain, State.isMain, h]

theorem State.cfg_eq {s t : State} (h : t.live = s.live) (c : Channel) : t.cfg c = s.cfg c := by
  rw [State.cfg, State.cfg, h]

theorem State.lastAckOf_eq {s t : State} (h : t.xps.lastAck = s.xps.lastAck) (n : Nat) : t.lastAckOf n = s.lastAckOf n := by
  rw [State.lastAckOf, State.lastAckOf, h]

/-- The tally value of a channel depends on the kind of its authority, its settings and the last acknowledged sources. -/
theorem State.tallyValue_eq {s t : State} {c : Channel}
    (ha : (t.authority c).name.standbyOnAir = (s.authority c).name.standbyOnAir) (hl : t.live = s.live)
    (hx : t.xps.lastAck = s.xps.lastAck) : t.tallyValue c = s.tallyValue c := by
  rw [State.tallyValue, State.tallyValue, ha, State.cfg_eq hl, State.lastAckOf_eq hx]

/-- The alarm value depends on the flags, the health states and the alarm mask. -/
theorem State.alarmValue_eq {s t : State} (hw : ∀ c, (t.watched c).health = (s.watched c).health)
    (hd : t.sli.device = s.sli.device) (hc : ∀ c : Channel, t.sli.channel[c] = s.sli.channel[c])
    (hl : t.live.alarmMask = s.live.alarmMask) : t.alarmValue = s.alarmValue := by
  simp only [State.alarmValue, State.anyFailed, State.maskedFlagSet, State.deviceFlag, State.channelFlag, hw, hd, hc, hl]

/-- What every command keeps of the state: the tallies, ALM, and that no two channels off MAIN share a destination. -/
structure Lawful (s t : State) : Prop where
  tally : s.TallyLaw → t.TallyLaw
  alarm : s.AlarmLaw → t.AlarmLaw
  apart : s.DestinationsApart → t.DestinationsApart

/-- Only the listed parts change, and the conditions are kept. -/
structure Acts (ps : List Part) (s t : State) : Prop where
  only : OnlyChanges ps s t
  lawful : Lawful s t

theorem Acts.refl (ps : List Part) (s : State) : Acts ps s s :=
  ⟨OnlyChanges.refl ps s, fun h => h, fun h => h, fun h => h⟩

theorem Acts.trans {ps : List Part} {s t u : State} (h : Acts ps s t) (k : Acts ps t u) : Acts ps s u :=
  ⟨h.only.trans k.only, fun x => k.lawful.tally (h.lawful.tally x), fun x => k.lawful.alarm (h.lawful.alarm x),
    fun x => k.lawful.apart (h.lawful.apart x)⟩

theorem Acts.mono {ps qs : List Part} {s t : State} (h : Acts ps s t) (sub : ps ⊆ qs) : Acts qs s t :=
  ⟨h.only.mono sub, h.lawful⟩

theorem Acts.ite {ps : List Part} {s t u : State} {p : Prop} [Decidable p] (h : Acts ps s t) (k : Acts ps s u) :
    Acts ps s (if p then t else u) := by
  split
  · exact h
  · exact k

theorem Acts.foldl {α : Type} {ps : List Part} (f : State → α → State) (h : ∀ s x, Acts ps s (f s x)) (xs : List α) (s : State) :
    Acts ps s (xs.foldl f s) := by
  induction xs generalizing s with
  | nil => exact Acts.refl ps s
  | cons x xs ih => exact (h s x).trans (ih _)

theorem Acts.eachChannel {ps : List Part} (f : State → Channel → State) (h : ∀ s c, Acts ps s (f s c)) (s : State) :
    Acts ps s (s.eachChannel f) := Acts.foldl f h _ s

/-- The conditions are kept where the kind of each authority, the settings, the acknowledged sources, the tallies, the flags, the
health states and ALM stay as they were. -/
theorem Lawful.of_same {s t : State} (ha : ∀ c, (t.authority c).name = (s.authority c).name) (hl : t.live = s.live)
    (hx : t.xps.lastAck = s.xps.lastAck) (ht : ∀ c : Channel, t.xps.tally[c] = s.xps.tally[c])
    (hw : ∀ c, (t.watched c).health = (s.watched c).health) (hd : t.sli.device = s.sli.device)
    (hc : ∀ c : Channel, t.sli.channel[c] = s.sli.channel[c]) (hal : t.xps.alarm = s.xps.alarm) : Lawful s t where
  tally h c := by rw [ht, State.tallyValue_eq (by rw [ha]) hl hx]; exact h c
  alarm h := by rw [State.AlarmLaw, hal, State.alarmValue_eq hw hd hc (by rw [hl])]; exact h
  apart h c d hcd := by
    simp only [State.isMain, ha, State.cfg_eq hl]
    exact h c d hcd

/-- A part that the conditions depend on. -/
def Part.governed : Part → Bool
  | .settings => true
  | .watched _ => true
  | .authority _ => true
  | .acknowledged => true
  | .tally _ => true
  | .alarm => true
  | .deviceFlags => true
  | .channelFlags _ => true
  | .power => false
  | .pins => false
  | .cadence => false
  | .clock => false
  | .pages _ => false
  | .engine => false
  | .intake => false
  | .baseline _ => false
  | .reportTimer => false
  | .reports => false
  | .watch => false
  | .scan => false
  | .key => false
  | .plan _ => false
  | .cueQueue => false
  | .crosspoints => false
  | .notices => false
  | .sitePorts => false
  | .store => false
  | .rx => false
  | .incoming => false
  | .freeUsed => false
  | .pending => false

theorem OnlyChanges.acts {ps : List Part} {s t : State} (h : OnlyChanges ps s t) (free : ∀ p ∈ ps, p.governed = false) :
    Acts ps s t := by
  have out (p : Part) (hp : p.governed = true) : p.same s t := h p fun m => by rw [free p m] at hp; cases hp
  refine ⟨h, Lawful.of_same ?_ (out .settings rfl) (out .acknowledged rfl) (fun c => out (.tally c) rfl) ?_
    (out .deviceFlags rfl) (fun c => out (.channelFlags c) rfl) (out .alarm rfl)⟩
  · intro c; rw [show t.authority c = s.authority c from out (.authority c) rfl]
  · intro c; rw [show t.watched c = s.watched c from out (.watched c) rfl]

/-! ## The plain updates -/

theorem State.putCue_acts (s : State) (c : Channel) (k : CueChannel) : Acts [.plan c] s (s.putCue c k) := by
  refine OnlyChanges.acts (fun p hp => ?_) (by simp [Part.governed])
  cases p <;> first | rfl | simp_all [Part.same]

theorem State.putQueue_acts (s : State) (k : List CueEntry) : Acts [.cueQueue] s (s.putQueue k) := by
  refine OnlyChanges.acts (fun p hp => ?_) (by simp [Part.governed])
  cases p <;> first | rfl | simp_all

theorem State.putTxn_acts (s : State) (k : Option Txn) : Acts [.cueQueue] s (s.putTxn k) := by
  refine OnlyChanges.acts (fun p hp => ?_) (by simp [Part.governed])
  cases p <;> first | rfl | simp_all

theorem State.putPendingXp_acts (s : State) (k : List Crosspoint) : Acts [.crosspoints] s (s.putPendingXp k) := by
  refine OnlyChanges.acts (fun p hp => ?_) (by simp [Part.governed])
  cases p <;> first | rfl | simp_all

theorem State.putAwaiting_acts (s : State) (k : List Awaiting) : Acts [.crosspoints] s (s.putAwaiting k) := by
  refine OnlyChanges.acts (fun p hp => ?_) (by simp [Part.governed])
  cases p <;> first | rfl | simp_all

theorem State.sendXp_acts (s : State) (x : Crosspoint) : Acts [.crosspoints] s (s.sendXp x) := by
  refine OnlyChanges.acts (fun p hp => ?_) (by simp [Part.governed])
  cases p <;> first | rfl | simp_all

theorem State.takeEvent_acts (s : State) : Acts [.crosspoints] s s.takeEvent := by
  refine OnlyChanges.acts (fun p hp => ?_) (by simp [Part.governed])
  cases p <;> first | rfl | simp_all

theorem State.reportDue_acts (s : State) : Acts [.reports] s s.reportDue := by
  refine OnlyChanges.acts (fun p hp => ?_) (by simp [Part.governed])
  cases p <;> first | rfl | simp_all [Part.same, PerSide.map]

end Sys2Proof.Machine
end

