-- ==== Sys2Proof/Laws/FlagFrame.lean ====
section
/-! SUPPORT. What setting and clearing flags, and what changes of authority and of health, can do. -/

namespace Sys2Proof.Machine

/-! ## Flags -/

@[simp] theorem State.offerBoth_withoutPairs_a (s : State) (p : PendingPair) (r : Bool) :
    (s.offerBoth p r).sli.port.a.withoutPairs = s.sli.port.a.withoutPairs := SitePortState.offer_withoutPairs _ _ _

@[simp] theorem State.offerBoth_withoutPairs_b (s : State) (p : PendingPair) (r : Bool) :
    (s.offerBoth p r).sli.port.b.withoutPairs = s.sli.port.b.withoutPairs := SitePortState.offer_withoutPairs _ _ _

/-- A state whose ALM has just been evaluated, and whose tallies, authorities, settings and acknowledged sources are those of
another, keeps the conditions. -/
theorem Lawful.of_evaluated {s t : State} (hal : t.AlarmLaw) (ha : t.aut = s.aut) (hl : t.live = s.live)
    (hx : t.xps.lastAck = s.xps.lastAck) (ht : t.xps.tally = s.xps.tally) : Lawful s t where
  tally h c := by
    rw [ht, State.tallyValue_eq (s := s) (by simp only [State.authority, ha]) hl hx]
    exact h c
  alarm _ := hal
  apart h c d hcd := by
    simp only [State.isMain, State.authority, ha, State.cfg_eq hl]
    exact h c d hcd

theorem State.raiseDevice_acts (s : State) (k : DeviceFlag) : Acts deviceFlagParts s (s.raiseDevice k) := by
  refine ⟨fun p hp => ?_, Lawful.of_evaluated rfl rfl rfl rfl rfl⟩
  cases p with
  | sitePorts => exact Prod.ext (State.offerBoth_withoutPairs_a _ _ _) (State.offerBoth_withoutPairs_b _ _ _)
  | _ => first | rfl | (simp [deviceFlagParts] at hp)

theorem State.clearDevice_acts (s : State) (k : DeviceFlag) : Acts [.deviceFlags, .alarm] s (s.clearDevice k) := by
  refine ⟨fun p hp => ?_, Lawful.of_evaluated rfl rfl rfl rfl rfl⟩
  cases p <;> first | rfl | (simp at hp)

theorem State.raiseClassed_acts (s : State) (k : ChannelFlag) (c : Channel) (u : Bool) :
    Acts (flagParts c) s (s.raiseClassed k c u) := by
  refine ⟨fun p hp => ?_, Lawful.of_evaluated rfl rfl rfl rfl rfl⟩
  cases p with
  | sitePorts => exact Prod.ext (State.offerBoth_withoutPairs_a _ _ _) (State.offerBoth_withoutPairs_b _ _ _)
  | channelFlags d => exact PerChannel.get_put_ne _ _ _ _ (by simp [flagParts] at hp; exact hp)
  | _ => first | rfl | (simp [flagParts] at hp)

theorem State.clearFlag_acts (s : State) (k : ChannelFlag) (c : Channel) :
    Acts [.channelFlags c, .alarm] s (s.clearFlag k c) := by
  refine ⟨fun p hp => ?_, Lawful.of_evaluated rfl rfl rfl rfl rfl⟩
  cases p with
  | channelFlags d => exact PerChannel.get_put_ne _ _ _ _ (by simp at hp; exact hp)
  | _ => first | rfl | (simp at hp)

theorem State.raise_acts (s : State) (k : ChannelFlag) (c : Channel) : Acts (flagParts c) s (s.raise k c) :=
  s.raiseClassed_acts k c _

theorem State.raiseHealth_acts (s : State) (c : Channel) (h : Health) : Acts (flagParts c) s (s.raiseHealth c h) :=
  s.raiseClassed_acts _ c _

theorem State.raiseIf_acts (s : State) (b : Bool) (k : ChannelFlag) (c : Channel) : Acts (flagParts c) s (s.raiseIf b k c) :=
  Acts.ite (s.raise_acts k c) (Acts.refl _ s)

theorem State.evalAlarm_acts (s : State) : Acts [.alarm] s s.evalAlarm := by
  refine ⟨fun p hp => ?_, Lawful.of_evaluated rfl rfl rfl rfl rfl⟩
  cases p <;> first | rfl | (simp at hp)

/-- What the clearing of flags can change (R173). -/
def clearedParts : List Part := .alarm :: .deviceFlags :: everyChannel fun c => [.channelFlags c]

theorem channelFlags_sub_cleared (c : Channel) : [Part.channelFlags c, .alarm] ⊆ clearedParts := by
  intro p hp
  simp only [List.mem_cons, List.not_mem_nil, or_false] at hp
  rcases hp with rfl | rfl
  · exact List.mem_cons_of_mem _ (List.mem_cons_of_mem _ (List.mem_flatMap.mpr ⟨c, mem_channels c, List.mem_cons_self ..⟩))
  · exact List.mem_cons_self ..

theorem State.clearAllFlags_acts (s : State) : Acts clearedParts s s.clearAllFlags := by
  refine ⟨fun p hp => ?_, Lawful.of_evaluated rfl rfl rfl rfl rfl⟩
  cases p with
  | channelFlags d => exact absurd (channelFlags_sub_cleared d (List.mem_cons_self ..)) hp
  | deviceFlags => simp [clearedParts] at hp
  | alarm => simp [clearedParts] at hp
  | _ => rfl

/-! ## Authority -/

/-- A record replaced by one that shows as much standby material, and is MAIN as much, keeps the conditions. -/
theorem State.putAuthority_acts (s : State) (c : Channel) (r : Authority)
    (h : r.name.standbyOnAir = (s.authority c).name.standbyOnAir) (hm : (r.name == .main) = s.isMain c) :
    Acts [.authority c] s (s.putAuthority c r) where
  only p hp := by
    cases p with
    | authority d => exact PerChannel.get_put_ne _ _ _ _ (by simpa using hp)
    | _ => rfl
  lawful :=
    { tally := fun k d => by
        rw [State.tallyValue_eq (s := s) (t := s.putAuthority c r) (c := d) ?_ rfl rfl]
        · exact k d
        · rw [State.authority_putAuthority]; split
          · next e => rw [e]; exact h
          · rfl
      alarm := id
      apart := fun k d e hde => by
        simp only [State.isMain_putAuthority]
        have hm' : ∀ x, (if x = c then r.name == AuthorityName.main else s.isMain x) = s.isMain x := by
          intro x; split
          · next e => rw [e]; exact hm
          · rfl
        rw [hm', hm']
        exact k d e hde }

theorem State.putAuthority_acts_same (s : State) (c : Channel) (r : Authority) (h : r.name = (s.authority c).name) :
    Acts [.authority c] s (s.putAuthority c r) := s.putAuthority_acts c r (by rw [h]) (by rw [h]; rfl)

/-- What follows a change of a channel's authority, made after other parts of the channel's plan. -/
theorem State.announce_only (s : State) (c : Channel) : OnlyChanges (authorityParts c) s (s.announce c) := by
  unfold State.announce
  refine OnlyChanges.trans (t := (s.evalTally c).raise .authorityChange c) (OnlyChanges.trans (t := s.evalTally c) ?_
    ((State.raise_acts _ _ _).only.mono ?_)) ((State.reportDue_acts _).only.mono ?_)
  · intro p hp
    cases p with
    | tally d => exact PerChannel.get_put_ne _ _ _ _ (by simp [authorityParts, cueParts, planParts, flagParts] at hp; exact hp)
    | _ => rfl
  · simp [authorityParts, cueParts, planParts, flagParts]
  · simp [authorityParts]

theorem State.announce_tally (s : State) (c d : Channel) :
    (s.announce c).xps.tally[d] = if d = c then s.tallyValue c else s.xps.tally[d] := PerChannel.get_put _ _ _ _

@[simp] theorem State.announce_aut (s : State) (c : Channel) : (s.announce c).aut = s.aut := rfl

@[simp] theorem State.announce_authority (s : State) (c d : Channel) : (s.announce c).authority d = s.authority d := rfl

@[simp] theorem State.announce_live (s : State) (c : Channel) : (s.announce c).live = s.live := rfl

@[simp] theorem State.announce_lastAck (s : State) (c : Channel) : (s.announce c).xps.lastAck = s.xps.lastAck := rfl

theorem State.announce_tallyValue (s : State) (c d : Channel) : (s.announce c).tallyValue d = s.tallyValue d :=
  State.tallyValue_eq (by rw [State.announce_authority]) (s.announce_live c) (s.announce_lastAck c)

theorem State.announce_alarmLaw (s : State) (c : Channel) : (s.announce c).AlarmLaw :=
  ((s.evalTally c).raise .authorityChange c).reportDue_acts.lawful.alarm
    (State.evalAlarm_alarmLaw _)

/-- The new authority of a channel leaves the channels off MAIN at destinations apart: it is MAIN, or was off MAIN already, or no
other channel off MAIN has its destination. -/
def State.MayLeave (s : State) (c : Channel) (r : Authority) : Prop :=
  r.name = .main ∨ s.isMain c = false ∨ s.destinationTaken c = false

theorem State.apart_leave {s t : State} {c : Channel} {r : Authority} (may : s.MayLeave c r)
    (ha : ∀ d, t.authority d = if d = c then r else s.authority d) (hl : t.live = s.live) (h : s.DestinationsApart) :
    t.DestinationsApart := by
  have key : ∀ d, d ≠ c → s.isMain d = false → t.isMain c = false → (s.cfg c).destination ≠ (s.cfg d).destination := by
    intro d hdc hd hc
    rcases may with hm | hm | hm
    · simp [State.isMain, ha, hm] at hc
    · exact h c d (Ne.symm hdc) hm hd
    · intro e
      have : s.destinationTaken c = true := by
        simp only [State.destinationTaken, List.any_eq_true]
        exact ⟨d, mem_channels d, by simp [hdc, e, hd]⟩
      rw [hm] at this; cases this
  have other : ∀ d, d ≠ c → t.isMain d = s.isMain d := fun d hd => State.isMain_eq (by rw [ha, if_neg hd])
  intro d e hde hd he
  rw [State.cfg_eq hl, State.cfg_eq hl]
  by_cases hdc : d = c
  · subst hdc
    exact key e (Ne.symm hde) (other e (Ne.symm hde) ▸ he) hd
  · by_cases hec : e = c
    · subst hec
      exact Ne.symm (key d hdc (other d hdc ▸ hd) he)
    · exact h d e hde (other d hdc ▸ hd) (other e hec ▸ he)

/-- A state in which one channel's authority has been replaced, and then announced. -/
theorem Acts.announced {ps : List Part} {s t : State} (c : Channel) (r : Authority) (h : OnlyChanges ps s t)
    (sub : authorityParts c ⊆ ps) (ha : ∀ d, t.authority d = if d = c then r else s.authority d) (hl : t.live = s.live)
    (hx : t.xps.lastAck = s.xps.lastAck) (ht : ∀ d : Channel, t.xps.tally[d] = s.xps.tally[d]) (may : s.MayLeave c r) :
    Acts ps s (t.announce c) where
  only := h.trans ((t.announce_only c).mono sub)
  lawful :=
    { tally := fun k d => by
        rw [State.announce_tally, State.announce_tallyValue]
        split
        · next e => rw [e]
        · next e => rw [ht, State.tallyValue_eq (s := s) (by rw [ha, if_neg e]) hl hx]; exact k d
      alarm := fun _ => State.announce_alarmLaw t c
      apart := fun k => State.apart_leave may
        (fun d => (State.announce_authority t c d).trans (ha d)) ((State.announce_live t c).trans hl) k }

theorem State.setAuthority_acts (s : State) (c : Channel) (r : Authority) (may : s.MayLeave c r) :
    Acts (authorityParts c) s (s.setAuthority c r) := by
  refine Acts.announced c r ?_ (fun _ h => h) (fun d => State.authority_putAuthority s c d r) rfl rfl (fun _ => rfl) may
  intro p hp
  cases p with
  | authority d => exact PerChannel.get_put_ne _ _ _ _ (by simp [authorityParts, cueParts, planParts, flagParts] at hp; exact hp)
  | _ => rfl

/-! ## Crosspoints and tallies -/

theorem State.evalTally_acts (s : State) (c : Channel) : Acts [.tally c] s (s.evalTally c) where
  only p hp := by
    cases p with
    | tally d => exact PerChannel.get_put_ne _ _ _ _ (by simpa using hp)
    | _ => rfl
  lawful :=
    { tally := fun k d => by
        rw [show (s.evalTally c).xps.tally[d] = if d = c then s.tallyValue c else s.xps.tally[d] from PerChannel.get_put _ _ _ _]
        split
        · next e => rw [e]; rfl
        · exact k d
      alarm := id
      apart := id }

end Sys2Proof.Machine
end

