-- ==== Sys2Proof/Laws/CueFrame.lean ====
section
/-! SUPPORT. What the operations of the Crosspoint Sequencer and of the Cue Scheduler can do. -/

namespace Sys2Proof.Machine

/-! ## Crosspoints -/

theorem State.placeXp_acts (s : State) (x : Crosspoint) : Acts [.crosspoints] s (s.placeXp x) := by
  unfold State.placeXp
  exact Acts.ite ((s.putPendingXp_acts _).trans (State.sendXp_acts _ _)) (s.putPendingXp_acts _)

theorem State.placeOnAir_acts (s : State) (c : Channel) (e : LocalFrame) (x : Nat) :
    Acts [.crosspoints] s (s.placeOnAir c e x) := s.placeXp_acts _

theorem State.withdrawXp_acts (s : State) (c : Channel) (e : LocalFrame) : Acts [.crosspoints] s (s.withdrawXp c e) :=
  s.putPendingXp_acts _

theorem State.issueOn_acts (s : State) (n : Nat) : Acts [.crosspoints] s (s.issueOn n) := by
  unfold State.issueOn
  split
  · exact Acts.refl _ s
  · exact (s.putPendingXp_acts _).trans (State.sendXp_acts _ _)

/-- What an acknowledgement changes: the last acknowledged source, and tallies. -/
def acknowledgeParts : List Part := .acknowledged :: everyChannel fun c => [.tally c]

theorem tally_mem_acknowledge (c : Channel) : [Part.tally c] ⊆ acknowledgeParts := by
  intro p hp
  exact List.mem_cons_of_mem _ (List.mem_flatMap.mpr ⟨c, mem_channels c, hp⟩)

/-- Re-evaluating every tally of a destination leaves it right, and the others as they were. -/
theorem State.evalTallies (t : State) (dest : Nat) (cs : List Channel) (d : Channel) :
    (cs.foldl (fun t c => if (t.cfg c).destination == dest then t.evalTally c else t) t).xps.tally[d]
      = if d ∈ cs ∧ (t.cfg d).destination = dest then t.tallyValue d else t.xps.tally[d] := by
  induction cs generalizing t with
  | nil => simp
  | cons c cs ih =>
    rw [List.foldl_cons, ih]
    by_cases h : (t.cfg c).destination = dest
    · have e1 : (if ((t.cfg c).destination == dest) = true then t.evalTally c else t) = t.evalTally c := by simp [h]
      rw [e1, State.evalTally_cfg, show (t.evalTally c).tallyValue d = t.tallyValue d from
        State.tallyValue_eq (by rw [State.evalTally_authority]) rfl rfl,
        show (t.evalTally c).xps.tally[d] = if d = c then t.tallyValue c else t.xps.tally[d] from PerChannel.get_put _ _ _ _]
      by_cases hd : d = c
      · subst hd; simp [h]
      · simp [hd]
    · have e1 : (if ((t.cfg c).destination == dest) = true then t.evalTally c else t) = t := by simp [h]
      rw [e1]
      by_cases hd : d = c
      · subst hd; simp [h]
      · simp [hd]

theorem State.acknowledge_acts (s : State) (dest source : Nat) : Acts acknowledgeParts s (s.acknowledge dest source) := by
  let t : State := { s with xps := { s.xps with lastAck := s.xps.lastAck.setIfInBounds dest (some source) } }
  have e : s.acknowledge dest source
      = channels.foldl (fun t c => if (t.cfg c).destination == dest then t.evalTally c else t) t := rfl
  have acts : Acts acknowledgeParts t (s.acknowledge dest source) := by
    rw [e]
    exact Acts.foldl _ (fun u c => Acts.ite ((u.evalTally_acts c).mono (tally_mem_acknowledge c)) (Acts.refl _ u)) _ t
  refine ⟨?_, ?_, fun h => acts.lawful.alarm h, fun h => acts.lawful.apart h⟩
  · refine OnlyChanges.trans (t := t) (fun p hp => ?_) acts.only
    cases p with
    | acknowledged => exact absurd (List.mem_cons_self ..) hp
    | _ => rfl
  · intro h d
    have same : ∀ u : State, u.aut = t.aut → u.live = t.live → u.xps.lastAck = t.xps.lastAck →
        u.tallyValue d = t.tallyValue d := fun u h1 h2 h3 =>
      State.tallyValue_eq (by simp only [State.authority, h1]) h2 h3
    have out (p : Part) (hp : p ∉ acknowledgeParts) := acts.only p hp
    have hval : (s.acknowledge dest source).tallyValue d = t.tallyValue d := by
      have hl : (s.acknowledge dest source).live = t.live := out .settings (by simp [acknowledgeParts, everyChannel])
      have ha : (s.acknowledge dest source).authority d = t.authority d :=
        out (.authority d) (by simp [acknowledgeParts, everyChannel])
      have hx : (s.acknowledge dest source).xps.lastAck = t.xps.lastAck := by
        rw [e]
        exact List.foldlRecOn (motive := fun (u : State) => u.xps.lastAck = t.xps.lastAck) channels _ rfl
          (fun u hu c _ => by split <;> exact hu)
      exact State.tallyValue_eq (by rw [ha]) hl hx
    rw [hval, e, State.evalTallies]
    split
    · rfl
    · next hn =>
      have hne : (t.cfg d).destination ≠ dest := fun he => hn ⟨mem_channels d, he⟩
      show s.xps.tally[d] = t.tallyValue d
      rw [h d]
      have : t.lastAckOf (t.cfg d).destination = s.lastAckOf (s.cfg d).destination := by
        show ((s.xps.lastAck.setIfInBounds dest (some source))[(s.cfg d).destination]?).join = _
        rw [Vector.getElem?_setIfInBounds, if_neg (fun he => hne he.symm)]
        rfl
      unfold State.tallyValue
      rw [this]
      rfl

/-! ## Groups of parts -/

theorem plan_sub (c : Channel) : [Part.plan c] ⊆ planParts c := by simp [planParts]

theorem queue_sub (c : Channel) : [Part.cueQueue] ⊆ planParts c := by simp [planParts]

theorem xp_sub (c : Channel) : [Part.crosspoints] ⊆ planParts c := by simp [planParts]

theorem record_sub_cue (c : Channel) : [Part.authority c] ⊆ cueParts c := by simp [cueParts]

theorem flags_sub_cue (c : Channel) : flagParts c ⊆ cueParts c := by
  intro p hp
  simp [cueParts, hp]

/-- What changes only a channel's plan, the cue queue and crosspoints. -/
theorem Acts.inCue {c : Channel} {s t : State} (h : Acts (planParts c) s t) : Acts (cueParts c) s t :=
  h.mono fun p hp => by simp [cueParts, hp]

theorem OnlyChanges.authority_eq {c : Channel} {s t : State} (h : OnlyChanges (planParts c) s t) (d : Channel) :
    t.authority d = s.authority d := h (.authority d) (by simp [planParts])

theorem State.raise_inCue (s : State) (k : ChannelFlag) (c : Channel) : Acts (cueParts c) s (s.raise k c) :=
  (s.raise_acts k c).mono (flags_sub_cue c)

theorem State.raiseIf_inCue (s : State) (b : Bool) (k : ChannelFlag) (c : Channel) : Acts (cueParts c) s (s.raiseIf b k c) :=
  (s.raiseIf_acts b k c).mono (flags_sub_cue c)

/-! ## The Cue Scheduler: players, the queue, and withdrawal -/

theorem State.putCue_in (s : State) (c : Channel) (k : CueChannel) : Acts (planParts c) s (s.putCue c k) :=
  (s.putCue_acts c k).mono (plan_sub c)

theorem State.putQueue_in (s : State) (c : Channel) (k : List CueEntry) : Acts (planParts c) s (s.putQueue k) :=
  (s.putQueue_acts k).mono (queue_sub c)

theorem State.putTxn_in (s : State) (c : Channel) (k : Option Txn) : Acts (planParts c) s (s.putTxn k) :=
  (s.putTxn_acts k).mono (queue_sub c)

theorem State.placeOnAir_in (s : State) (c : Channel) (e : LocalFrame) (x : Nat) : Acts (planParts c) s (s.placeOnAir c e x) :=
  (s.placeOnAir_acts c e x).mono (xp_sub c)

theorem State.withdrawXp_in (s : State) (c : Channel) (e : LocalFrame) : Acts (planParts c) s (s.withdrawXp c e) :=
  (s.withdrawXp_acts c e).mono (xp_sub c)

theorem State.setPlayer_acts (s : State) (c : Channel) (p : Player) (x : PlayerState) :
    Acts (planParts c) s (s.setPlayer c p x) :=
  s.putCue_in c _

theorem State.uncue_acts (s : State) (c : Channel) (p : Player) : Acts (planParts c) s (s.uncue c p) :=
  Acts.ite (s.setPlayer_acts c p _) (Acts.refl _ s)

theorem State.queuePlay_acts (s : State) (c d : Channel) (p : Player) (x : List Byte) (m : Nat) (e : LocalFrame) (n : Nat)
    (i : EventId) : Acts (planParts d) s (s.queuePlay c p x m e n i) := s.putQueue_in d _

theorem State.queueCancel_acts (s : State) (c d : Channel) (p : Player) : Acts (planParts d) s (s.queueCancel c p) :=
  s.putQueue_in d _

theorem State.markWithdrawn_acts (s : State) (c : Channel) : Acts (planParts c) s s.markWithdrawn := s.putTxn_in c _

theorem State.withdrawPlay_acts (s : State) (c : Channel) (p : Player) (e : LocalFrame) :
    Acts (planParts c) s (s.withdrawPlay c p e) := by
  unfold State.withdrawPlay
  exact Acts.ite (s.putQueue_in c _) (Acts.ite ((s.markWithdrawn_acts c).trans (State.uncue_acts _ c p))
    (Acts.ite ((s.queueCancel_acts c c p).trans (State.setPlayer_acts _ c p _)) (Acts.refl _ s)))

theorem State.withdrawSegment_acts (s : State) (c : Channel) (p : Option Player) (e : LocalFrame) :
    Acts (planParts c) s (s.withdrawSegment c p e) := by
  cases p with
  | none => exact s.withdrawXp_in c e
  | some p => exact (s.withdrawPlay_acts c p e).trans (State.withdrawXp_in _ c e)

theorem State.putPlanned_acts (s : State) (c : Channel) (xs : List Planned) : Acts (planParts c) s (s.putPlanned c xs) :=
  s.putCue_in c _

theorem State.withdrawPlanned_acts (s : State) (c : Channel) (p : Planned → Bool) :
    Acts (planParts c) s (s.withdrawPlanned c p) :=
  (s.putPlanned_acts c _).trans (Acts.foldl _ (fun s _ => s.withdrawSegment_acts c _ _) _ _)

theorem State.withdrawPlan_acts (s : State) (c : Channel) : Acts (planParts c) s (s.withdrawPlan c) :=
  s.withdrawPlanned_acts c _

theorem State.cueToMain_acts (s : State) (c : Channel) : Acts (planParts c) s (s.cueToMain c) := s.putCue_in c _

/-! ## The Cue Scheduler: planning -/

theorem State.appendSegment_acts (s : State) (c : Channel) (x : PlannedContent) (i : EventId) (e : LocalFrame)
    (stop : Option LocalFrame) (n : Nat) : Acts (planParts c) s (s.appendSegment c x i e stop n) := by
  unfold State.appendSegment
  dsimp only
  split
  · exact (s.putPlanned_acts c _).trans (State.queuePlay_acts _ c c _ _ _ _ _ _)
  all_goals
    split
    · exact (s.putPlanned_acts c _).trans (State.placeOnAir_in _ c _ _)
    · exact s.putPlanned_acts c _

theorem State.handOn_acts (s : State) (c : Channel) (p : JoinPlan) (n : Nat) : Acts (planParts c) s (s.handOn c p n) := by
  unfold State.handOn
  repeat' split
  all_goals first
    | exact Acts.refl _ s
    | exact s.placeOnAir_in c _ _
    | exact s.queuePlay_acts c c _ _ _ _ _ _

theorem Authority.withAir_name (r : Authority) (a : OnAir) : (r.withAir a).name = r.name := by cases r <;> rfl

theorem State.amendAir_acts (s : State) (c : Channel) (f : OnAir → OnAir) : Acts (cueParts c) s (s.amendAir c f) := by
  unfold State.amendAir
  split
  · exact (s.putAuthority_acts_same c _ (Authority.withAir_name _ _)).mono (record_sub_cue c)
  · exact Acts.refl _ s

theorem State.endAirAt_acts (s : State) (c : Channel) (e : LocalFrame) : Acts (cueParts c) s (s.endAirAt c e) :=
  s.amendAir_acts c _

theorem State.noteExhausted_acts (s : State) (c : Channel) (b : Bool) : Acts (cueParts c) s (s.noteExhausted c b) :=
  (s.putCue_in c _).inCue.trans (State.raiseIf_inCue _ b _ c)

theorem State.planAt_acts (s : State) (c : Channel) (e : LocalFrame) (p : Player) (n : Nat) :
    Acts (cueParts c) s (s.planAt c e p n) := by
  unfold State.planAt
  split
  · exact Acts.refl _ s
  · exact (s.noteExhausted_acts c _).trans (State.appendSegment_acts _ c _ _ _ _ _).inCue

theorem State.planNext_acts (s : State) (c : Channel) (e : LocalFrame) : Acts (cueParts c) s (s.planNext c e) :=
  s.planAt_acts c e _ 1

theorem State.noteJoin_acts (s : State) (c : Channel) (j : Join) : Acts (cueParts c) s (s.noteJoin c j) :=
  (s.putCue_in c _).inCue.trans (State.noteExhausted_acts _ c _)

theorem State.bridgeTo_acts (s : State) (c : Channel) (b : Bool) (x : Option Planned) (e : LocalFrame) :
    Acts (cueParts c) s (s.bridgeTo c b x e) := by
  unfold State.bridgeTo
  dsimp only
  repeat' split
  all_goals first
    | exact s.endAirAt_acts c e
    | exact (s.appendSegment_acts c _ _ _ _ _).inCue

theorem State.planJoin_acts (s : State) (c : Channel) (b : Bool) (x : Option Planned) (j : Join) :
    Acts (cueParts c) s (s.planJoin c b x j) :=
  ((s.noteJoin_acts c j).trans (State.bridgeTo_acts _ c b x _)).trans (State.appendSegment_acts _ c _ _ _ _ _).inCue

theorem State.freshJoin_acts (s : State) (c : Channel) (b : Bool) : Acts (cueParts c) s (s.freshJoin c b) :=
  (s.withdrawPlan_acts c).inCue.trans (State.planJoin_acts _ c b _ _)

/-! ## The Cue Scheduler: starts, changes of page, late and failed PLAYs -/

theorem State.removeLate_acts (s : State) (c : Channel) (x : Planned) : Acts (cueParts c) s (s.removeLate c x) := by
  unfold State.removeLate
  dsimp only
  split
  · exact Acts.refl _ s
  · have h := fun p => (s.withdrawPlay_acts c p x.start).inCue.trans (State.raise_inCue _ .cueLate c)
    split
    · exact Acts.ite (h _) ((h _).trans (State.placeOnAir_in _ c _ _).inCue)
    · exact h _

theorem State.playersFor_acts (s : State) (c : Channel) (a : OnAir) (b : Bool) : Acts (cueParts c) s (s.playersFor c a b) :=
  (s.putCue_in c _).inCue

theorem State.planAfterStart_acts (s : State) (c : Channel) (late : Bool) : Acts (cueParts c) s (s.planAfterStart c late) := by
  unfold State.planAfterStart
  repeat' split
  all_goals first
    | exact Acts.refl _ s
    | exact s.freshJoin_acts c true
    | exact s.planNext_acts c _

theorem State.startHead_acts (s : State) (c : Channel) (x : Planned) : Acts (cueParts c) s (s.startHead c x) := by
  unfold State.startHead
  dsimp only
  have h := Acts.ite (p := s.lateAtStart c x = true) (s.removeLate_acts c x) (Acts.refl (cueParts c) s)
  exact ((h.trans (State.putPlanned_acts _ c _).inCue).trans (State.amendAir_acts _ c _)).trans (State.playersFor_acts _ c _ _)

theorem State.dropAnchor_acts (s : State) (c : Channel) : Acts (cueParts c) s (s.dropAnchor c) := (s.putCue_in c _).inCue

theorem State.pageChange_acts (s : State) (c : Channel) : Acts (cueParts c) s (s.pageChange c) := by
  unfold State.pageChange
  split
  · dsimp only
    split
    · exact (((s.startHead_acts c _).trans (State.withdrawPlan_acts _ c).inCue).trans (State.dropAnchor_acts _ c)).trans
        (State.planJoin_acts _ c _ _ _)
    · exact ((s.withdrawPlan_acts c).inCue.trans (State.dropAnchor_acts _ c)).trans (State.planJoin_acts _ c _ _ _)
  all_goals exact s.dropAnchor_acts c

theorem State.replanLast_acts (s : State) (c : Channel) (x : Planned) : Acts (cueParts c) s (s.replanLast c x) := by
  unfold State.replanLast
  split
  · exact ((s.putPlanned_acts c _).inCue.trans (State.withdrawXp_in _ c _).inCue).trans (State.planNext_acts _ c _)
  · exact Acts.refl _ s

theorem State.rejoinExhausted_acts (s : State) (c : Channel) : Acts (cueParts c) s (s.rejoinExhausted c) := by
  unfold State.rejoinExhausted
  dsimp only
  exact Acts.ite ((s.withdrawPlan_acts c).inCue.trans (State.noteJoin_acts _ c _))
    ((s.withdrawPlan_acts c).inCue.trans (State.planJoin_acts _ c _ _ _))

theorem State.reviewPlan_acts (s : State) (c : Channel) : Acts (cueParts c) s (s.reviewPlan c) := by
  unfold State.reviewPlan
  repeat' split
  all_goals first
    | exact Acts.refl _ s
    | exact s.rejoinExhausted_acts c
    | exact s.replanLast_acts c _

theorem State.fillInstead_acts (s : State) (c : Channel) (x : Planned) : Acts (cueParts c) s (s.fillInstead c x) :=
  (s.putPlanned_acts c _).inCue.trans (State.appendSegment_acts _ c _ _ _ _ _).inCue

/-- The join plan of an ARMED channel is replaced (R122): the authority stays ARMED. -/
theorem State.armPlan_acts (s : State) (c : Channel) (o : Origin) (p : Player) (n : Nat)
    (h : (s.authority c).name = .armed) : Acts (cueParts c) s (s.armPlan c o p n) := by
  unfold State.armPlan
  dsimp only
  refine (((s.putAuthority_acts_same c _ ?_).mono (record_sub_cue c)).trans (State.noteJoin_acts _ c _)).trans
    (State.handOn_acts _ c _ n).inCue
  exact h.symm

theorem State.rearmPlan_acts (s : State) (c : Channel) (o : Origin) (x : JoinPlan) (p : Player) (n : Nat)
    (h : (s.authority c).name = .armed) : Acts (cueParts c) s (s.rearmPlan c o x p n) :=
  (s.withdrawXp_in c _).inCue.trans (State.armPlan_acts _ c o p n h)

theorem State.latePlay_acts (s : State) (x : CueEntry) : Acts (cueParts x.channel) s (s.latePlay x) := by
  unfold State.latePlay
  dsimp only
  refine (s.raise_inCue .cueLate x.channel).trans ?_
  repeat' split
  all_goals first
    | exact Acts.refl _ _
    | exact State.freshJoin_acts _ _ _
    | exact State.fillInstead_acts _ _ _
    | skip
  next h _ => exact State.rearmPlan_acts _ _ _ _ _ _ (by rw [h]; rfl)

theorem State.uncue_authority (s : State) (c d : Channel) (p : Player) : (s.uncue c p).authority d = s.authority d := by
  unfold State.uncue
  split <;> rfl

theorem State.failArmed_acts (s : State) (x : CueEntry) (o : Origin) (plan : JoinPlan)
    (h : (s.authority x.channel).name = .armed) : Acts (cueParts x.channel) s (s.failArmed x o plan) := by
  have hu : ((s.uncue x.channel x.player).authority x.channel).name = .armed := by rw [State.uncue_authority]; exact h
  unfold State.failArmed
  dsimp only
  refine (s.uncue_acts x.channel x.player).inCue.trans ?_
  generalize s.uncue x.channel x.player = t at hu ⊢
  refine Acts.ite (t.rearmPlan_acts _ _ _ _ _ hu) ?_
  refine (t.withdrawXp_in x.channel plan.start).inCue.trans ?_
  refine (State.raise_inCue _ .cueFailed x.channel).trans ?_
  refine ((State.putAuthority_acts_same _ x.channel _ ?_).mono (record_sub_cue _)).trans (State.handOn_acts _ _ _ 1).inCue
  exact hu.symm

theorem State.failPlanned_acts (s : State) (x : CueEntry) (seg : Planned) :
    Acts (cueParts x.channel) s (s.failPlanned x seg) := by
  unfold State.failPlanned
  dsimp only
  refine (s.uncue_acts x.channel x.player).inCue.trans ?_
  refine (State.withdrawXp_in _ x.channel seg.start).inCue.trans ?_
  generalize (s.uncue x.channel x.player).withdrawXp x.channel seg.start = t
  refine Acts.ite ?_ ?_
  · exact (t.putPlanned_acts _ _).inCue.trans (State.planAt_acts _ _ _ _ _)
  · exact (t.raise_inCue .cueFailed _).trans (State.fillInstead_acts _ _ _)

theorem State.failOnAir_acts (s : State) (x : CueEntry) (a : OnAir) : Acts (cueParts x.channel) s (s.failOnAir x a) := by
  unfold State.failOnAir
  dsimp only
  have h := (s.setPlayer_acts x.channel x.player .idle).inCue.trans (State.amendAir_acts _ x.channel
    fun _ => { a with kind := .fill, source := ((s.setPlayer x.channel x.player .idle).cfg x.channel).filler, player := none })
  split
  · exact Acts.ite h (h.trans (State.placeOnAir_in _ _ _ _).inCue)
  · exact h

theorem State.failStarted_acts (s : State) (x : CueEntry) : Acts (cueParts x.channel) s (s.failStarted x) := by
  unfold State.failStarted
  dsimp only
  refine (s.raise_inCue .cueFailed x.channel).trans ?_
  split
  · exact Acts.ite (State.failOnAir_acts _ x _) (Acts.refl _ _)
  · exact Acts.refl _ _

theorem State.failedPlay_acts (s : State) (x : CueEntry) : Acts (cueParts x.channel) s (s.failedPlay x) := by
  unfold State.failedPlay
  split
  · next h => exact Acts.ite (s.failArmed_acts x _ _ (by rw [h]; rfl)) (s.failStarted_acts x)
  · exact s.failPlanned_acts x _
  · exact s.failStarted_acts x

/-! ## The Cue Scheduler: transactions -/

theorem State.takeEntry_acts (s : State) (x : CueEntry) (rest : List CueEntry) :
    Acts (cueParts x.channel) s (s.takeEntry x rest) := by
  unfold State.takeEntry
  dsimp only
  exact (s.putQueue_in _ _).inCue.trans (Acts.ite (State.latePlay_acts _ x) (State.putTxn_in _ _ _).inCue)

theorem State.markPlaced_acts (s : State) (x : CueEntry) : Acts (planParts x.channel) s (s.markPlaced x) :=
  s.putPlanned_acts _ _

theorem State.playSent_acts (s : State) (x : CueEntry) : Acts (planParts x.channel) s (s.playSent x) := by
  unfold State.playSent
  dsimp only
  exact (s.setPlayer_acts _ _ _).trans (Acts.ite (Acts.refl _ _)
    ((State.placeOnAir_in _ _ _ _).trans (State.markPlaced_acts _ x)))

theorem State.sendEnded_acts (s : State) (t : Txn) : Acts (planParts t.entry.channel) s (s.sendEnded t) := by
  unfold State.sendEnded
  dsimp only
  exact (s.putTxn_in _ _).trans (Acts.ite (State.playSent_acts _ _) (Acts.refl _ _))

theorem State.endTxn_acts (s : State) (t : Txn) (ok : Bool) : Acts (cueParts t.entry.channel) s (s.endTxn t ok) := by
  unfold State.endTxn
  dsimp only
  refine (s.putTxn_in _ none).inCue.trans (Acts.ite (Acts.ite (Acts.ite ?_ (Acts.refl _ _))
    (Acts.ite (Acts.refl _ _) (State.failedPlay_acts _ _))) (Acts.refl _ _))
  exact (State.queueCancel_acts _ _ _ _).inCue

end Sys2Proof.Machine
end

