-- ==== Sys2Proof/Laws/AuthorityFrame.lean ====
section
/-! SUPPORT. What the operations of the Authority Table and of the Supervision Unit can do. -/

namespace Sys2Proof.Machine

/-! ## Groups of parts -/

theorem cue_sub_authority (c : Channel) : cueParts c ⊆ authorityParts c := by
  intro p hp
  simp [authorityParts, hp]

theorem authority_sub_health (c : Channel) : authorityParts c ⊆ healthParts c := by
  intro p hp
  simp [healthParts, hp]

theorem mem_everyChannel {f : Channel → List Part} (c : Channel) : f c ⊆ everyChannel f :=
  fun _ hp => List.mem_flatMap.mpr ⟨c, mem_channels c, hp⟩

theorem Acts.inAuthority {c : Channel} {s t : State} (h : Acts (cueParts c) s t) : Acts (authorityParts c) s t :=
  h.mono (cue_sub_authority c)

theorem Acts.inHealth {c : Channel} {s t : State} (h : Acts (authorityParts c) s t) : Acts (healthParts c) s t :=
  h.mono (authority_sub_health c)

theorem Acts.onEvery {f : Channel → List Part} {c : Channel} {s t : State} (h : Acts (f c) s t) : Acts (everyChannel f) s t :=
  h.mono (mem_everyChannel c)

theorem flags_sub_authority (c : Channel) : flagParts c ⊆ authorityParts c :=
  fun _ hp => cue_sub_authority c (flags_sub_cue c hp)

theorem State.raise_inAuthority (s : State) (k : ChannelFlag) (c : Channel) : Acts (authorityParts c) s (s.raise k c) :=
  (s.raise_acts k c).mono (flags_sub_authority c)

/-! ## Arming -/

theorem State.offMain {s : State} {c : Channel} (h : (s.authority c).name ≠ .main) : s.isMain c = false := by
  simp [State.isMain, h]

theorem State.noteJoin_authority (s : State) (c d : Channel) (j : Join) : (s.noteJoin c j).authority d = s.authority d := by
  unfold State.noteJoin State.noteExhausted State.raiseIf
  split <;> rfl

theorem State.armPlan_authority (s : State) (c d : Channel) (o : Origin) (p : Player) (n : Nat) :
    (s.armPlan c o p n).authority d
      = if d = c then .armed o { (s.join c).plan with player := if (s.join c).plan.content.isClip then some p else none }
        else s.authority d := by
  unfold State.armPlan
  dsimp only
  rw [OnlyChanges.authority_eq (State.handOn_acts _ c _ n).only, State.noteJoin_authority, State.authority_putAuthority]

theorem State.armPlan_only (s : State) (c : Channel) (o : Origin) (p : Player) (n : Nat) :
    OnlyChanges (cueParts c) s (s.armPlan c o p n) := by
  unfold State.armPlan
  dsimp only
  refine OnlyChanges.trans ?_ ((State.noteJoin_acts _ c _).only.trans (State.handOn_acts _ c _ n).inCue.only)
  intro q hq
  cases q with
  | authority d => exact PerChannel.get_put_ne _ _ _ _ (by simp [cueParts] at hq; exact hq.1)
  | _ => rfl

theorem State.arm_acts (s : State) (c : Channel) (o : Origin)
    (may : s.isMain c = false ∨ s.destinationTaken c = false) : Acts (authorityParts c) s (s.arm c o) := by
  have h := s.armPlan_only c o (s.armingPlayer c) 1
  have out (p : Part) (hp : p ∉ cueParts c) := h p hp
  exact Acts.announced c _ (h.mono (cue_sub_authority c)) (fun _ m => m) (s.armPlan_authority c · o _ 1)
    (out .settings (by simp [cueParts, planParts, flagParts])) (out .acknowledged (by simp [cueParts, planParts, flagParts]))
    (fun d => out (.tally d) (by simp [cueParts, planParts, flagParts])) (Or.inr may)

theorem State.ready_apart {s : State} {c : Channel} (h : s.readiness c = .ready) : s.destinationTaken c = false := by
  unfold State.readiness at h
  split at h
  · split at h
    · cases h
    · next k => simpa using k
  · cases h

theorem State.armOrBlock_acts (s : State) (c : Channel) (o : Origin) : Acts (authorityParts c) s (s.armOrBlock c o) := by
  unfold State.armOrBlock
  split
  · next h => exact s.arm_acts c o (Or.inr (State.ready_apart h))
  · exact s.raise_inAuthority _ c

theorem State.passOver_acts (s : State) (o : Origin) (c : Channel) : Acts (authorityParts c) s (s.passOver o c) :=
  Acts.ite (s.armOrBlock_acts c o) (Acts.refl _ s)

theorem State.keyArming_acts (s : State) : Acts (everyChannel authorityParts) s s.keyArming :=
  Acts.eachChannel _ (fun s c => (s.passOver_acts .key c).onEvery) s

/-! ## Going to air, and back -/

theorem State.setAuthority_off (s : State) (c : Channel) (r : Authority) (h : (s.authority c).name ≠ .main) :
    Acts (authorityParts c) s (s.setAuthority c r) := s.setAuthority_acts c r (Or.inr (Or.inl (State.offMain h)))

theorem State.becomeMain_acts (s : State) (c : Channel) : Acts (authorityParts c) s (s.becomeMain c) :=
  ((s.withdrawPlan_acts c).inCue.inAuthority.trans (State.cueToMain_acts _ c).inCue.inAuthority).trans
    (State.setAuthority_acts _ c _ (Or.inl rfl))

theorem State.abort_acts (s : State) (c : Channel) (p : JoinPlan) : Acts (authorityParts c) s (s.abort c p) :=
  (s.withdrawSegment_acts c _ _).inCue.inAuthority.trans (State.becomeMain_acts _ c)

theorem State.removeLate_authority (s : State) (c d : Channel) (x : Planned) :
    (s.removeLate c x).authority d = s.authority d := by
  unfold State.removeLate
  have h := fun p => (s.withdrawPlay_acts c p x.start).only.authority_eq d
  dsimp only
  split
  · rfl
  · split
    · split
      · exact h _
      · rw [(State.placeOnAir_in _ c _ _).only.authority_eq d]; exact h _
    · exact h _

theorem State.goToAir_acts (s : State) (c : Channel) (p : JoinPlan) (h : (s.authority c).name ≠ .main) :
    Acts (authorityParts c) s (s.goToAir c p) := by
  unfold State.goToAir
  dsimp only
  generalize hx : (if s.lateAtStart c p.segment = true then s.removeLate c p.segment else s) = x
  have a : Acts (authorityParts c) s x ∧ (x.authority c).name ≠ .main := by
    rw [← hx]
    split
    · exact ⟨(s.removeLate_acts c _).inAuthority, by rw [State.removeLate_authority]; exact h⟩
    · exact ⟨Acts.refl _ s, h⟩
  exact ((a.1.trans (x.setAuthority_off c _ a.2)).trans (State.playersFor_acts _ c _ _).inAuthority).trans
    (State.planAfterStart_acts _ c _).inAuthority

theorem State.hold_acts (s : State) (c : Channel) (p : SitePort) (a : OnAir) (h : (s.authority c).name ≠ .main) :
    Acts (authorityParts c) s (s.hold c p a) := by
  refine (s.withdrawPlan_acts c).inCue.inAuthority.trans (State.setAuthority_off _ c _ ?_)
  rw [(s.withdrawPlan_acts c).only.authority_eq]
  exact h

theorem State.route_acts (s : State) (c : Channel) (p : SitePort) (n : Nat) (h : (s.authority c).name = .held) :
    Acts [.authority c, .plan c, .crosspoints] s (s.route c p n) := by
  unfold State.route
  dsimp only
  refine ((s.placeOnAir_acts c s.nextWindowFrame n).mono (by simp)).trans ?_
  refine ((State.putAuthority_acts_same _ c _ ?_).mono (by simp)).trans ((State.putCue_acts _ c _).mono (by simp))
  rw [(s.placeOnAir_in c _ n).only.authority_eq, h]
  rfl

theorem State.release_acts (s : State) (c : Channel) (h : (s.authority c).name ≠ .main) :
    Acts (authorityParts c) s (s.release c) := s.arm_acts c _ (Or.inl (State.offMain h))

theorem State.lapse_acts (s : State) (c : Channel) (h : (s.authority c).name ≠ .main) :
    Acts (authorityParts c) s (s.lapse c) :=
  (s.raise_inAuthority .holdLapsed c).trans (State.release_acts _ c h)

theorem State.heldBy_off {s : State} {p : SitePort} {c : Channel} (h : s.heldBy p c = true) : (s.authority c).name ≠ .main := by
  unfold State.heldBy at h
  split at h
  · next e => rw [e]; simp [Authority.name]
  all_goals cases h

theorem State.lapseHolds_acts (s : State) (p : SitePort) : Acts (everyChannel authorityParts) s (s.lapseHolds p) := by
  refine Acts.eachChannel _ (fun s c => Acts.onEvery (c := c) ?_) s
  split
  · next h => exact s.lapse_acts c (State.heldBy_off h)
  · exact Acts.refl _ s

theorem State.acceptReturn_acts (s : State) (c : Channel) (p : Prior) (m : ReturnMode) (a : OnAir)
    (h : (s.authority c).name ≠ .main) : Acts (authorityParts c) s (s.acceptReturn c p m a) := by
  unfold State.acceptReturn
  dsimp only
  refine ((s.withdrawPlanned_acts c _).inCue.trans (State.placeOnAir_in _ c _ _).inCue).inAuthority.trans
    (State.setAuthority_off _ c _ ?_)
  rw [(State.placeOnAir_in _ c _ _).only.authority_eq, (s.withdrawPlanned_acts c _).only.authority_eq]
  exact h

theorem State.resumePlan_acts (s : State) (c : Channel) (a : OnAir) : Acts (cueParts c) s (s.resumePlan c a) := by
  unfold State.resumePlan
  split
  · exact Acts.ite (s.planNext_acts c _) (Acts.refl _ s)
  · exact s.freshJoin_acts c false

theorem State.dropReturn_acts (s : State) (c : Channel) (e : LocalFrame) : Acts (cueParts c) s (s.dropReturn c e) :=
  (s.withdrawXp_in c e).inCue.trans (State.raise_inCue _ _ c)

theorem State.dropReturn_authority (s : State) (c d : Channel) (e : LocalFrame) :
    (s.dropReturn c e).authority d = s.authority d := rfl

theorem State.setAuthority_authority (s : State) (c d : Channel) (r : Authority) :
    (s.setAuthority c r).authority d = if d = c then r else s.authority d := s.authority_putAuthority c d r

theorem State.abortReturn_acts (s : State) (c : Channel) (p : Prior) (e : LocalFrame) (a : OnAir)
    (h : (s.authority c).name ≠ .main) : Acts (authorityParts c) s (s.abortReturn c p e a) := by
  have h' : ((s.dropReturn c e).authority c).name ≠ .main := by rw [State.dropReturn_authority]; exact h
  unfold State.abortReturn
  dsimp only
  refine (s.dropReturn_acts c e).inAuthority.trans ?_
  generalize s.dropReturn c e = t at h' ⊢
  split
  · exact (t.setAuthority_off c _ h').trans (State.resumePlan_acts _ c a).inAuthority
  · refine (t.setAuthority_off c _ h').trans (Acts.ite (Acts.refl _ _) (State.lapse_acts _ c ?_))
    rw [State.setAuthority_authority, if_pos rfl]
    simp [Authority.name]

theorem State.healthReaction_acts (s : State) (c : Channel) (h : Health) :
    Acts (authorityParts c) s (s.healthReaction c h) := by
  unfold State.healthReaction
  split
  · exact Acts.ite (s.armOrBlock_acts c _) (Acts.refl _ s)
  · exact Acts.ite (s.abort_acts c _) (Acts.refl _ s)
  · next e => exact Acts.ite (Acts.refl _ s) (s.abortReturn_acts c _ _ _ (by rw [e]; simp [Authority.name]))
  · exact Acts.refl _ s
  · exact Acts.refl _ s

/-! ## Health -/

/-- A channel's share at SUP replaced, its health kept. -/
theorem State.putWatched_acts (s : State) (c : Channel) (k : SupChannel) (h : k.health = (s.watched c).health) :
    Acts [.watched c] s (s.putWatched c k) where
  only p hp := by
    cases p with
    | watched d => exact PerChannel.get_put_ne _ _ _ _ (by simpa using hp)
    | _ => rfl
  lawful := Lawful.of_same (fun _ => rfl) rfl rfl (fun _ => rfl)
    (fun d => by rw [State.watched_putWatched]; split
                 · next e => rw [e]; exact h
                 · rfl) rfl (fun _ => rfl) rfl

theorem State.putWatched_in (s : State) (c : Channel) (k : SupChannel) (h : k.health = (s.watched c).health) :
    Acts (healthParts c) s (s.putWatched c k) := (s.putWatched_acts c k h).mono (by simp [healthParts])

/-- A change of health with its flag and ALM (R109, R161). -/
theorem State.storeHealth_acts (s : State) (c : Channel) (h : Health) :
    Acts (healthParts c) s (((s.storeHealth c h).raiseHealth c h).evalAlarm) where
  only := by
    refine OnlyChanges.trans (t := s.storeHealth c h) (fun p hp => ?_) (OnlyChanges.trans ((State.raiseHealth_acts _ c h).only.mono
      fun p hp => authority_sub_health c (flags_sub_authority c hp)) ((State.evalAlarm_acts _).only.mono ?_))
    · cases p with
      | watched d => exact PerChannel.get_put_ne _ _ _ _ (by simp [healthParts] at hp; exact hp.1)
      | _ => rfl
    · simp [healthParts, authorityParts, cueParts, flagParts]
  lawful := Lawful.of_evaluated rfl rfl rfl rfl rfl

theorem State.setHealth_acts (s : State) (c : Channel) (h : Health) : Acts (healthParts c) s (s.setHealth c h) :=
  Acts.ite (Acts.refl _ s) ((s.storeHealth_acts c h).trans (State.healthReaction_acts _ c h).inHealth)

theorem State.evaluate_acts (s : State) (c : Channel) : Acts (healthParts c) s (s.evaluate c) :=
  Acts.ite (s.setHealth_acts c _) (Acts.refl _ s)

theorem State.enableChanged_acts (s : State) (c : Channel) : Acts (healthParts c) s (s.enableChanged c) :=
  Acts.ite (s.evaluate_acts c) (s.setHealth_acts c _)

theorem State.unhear_acts (s : State) (c : Channel) : Acts (healthParts c) s (s.unhear c) :=
  (s.putWatched_in c { s.watched c with heard := false } rfl).trans (State.setHealth_acts _ c _)

theorem State.evaluateAll_acts (s : State) : Acts (everyChannel healthParts) s s.evaluateAll :=
  Acts.eachChannel _ (fun s c => (s.evaluate_acts c).onEvery) s

theorem State.clearReports_acts (s : State) : Acts (everyChannel healthParts) s s.clearReports :=
  Acts.eachChannel _ (fun s c => (s.putWatched_in c { s.watched c with latestAir := none, latestResume := none } rfl).onEvery) s

theorem State.hearItem_acts (s : State) (c : Channel) (x : HeartbeatItem) : Acts (healthParts c) s (s.hearItem c x) := by
  unfold State.hearItem
  dsimp only
  refine (s.putWatched_in c _ ?_).trans (Acts.ite (Acts.refl _ _) (State.evaluate_acts _ c))
  rfl

theorem State.hearHeartbeat_acts (s : State) (h : Heartbeat) : Acts (everyChannel healthParts) s (s.hearHeartbeat h) :=
  Acts.eachChannel _ (fun s c => (s.hearItem_acts c _).onEvery) s

theorem State.takeSample_acts (s : State) (c : Channel) (n : Nat) : Acts (healthParts c) s (s.takeSample c n) := by
  unfold State.takeSample
  dsimp only
  refine (s.putWatched_in c _ ?_).trans (Acts.ite (Acts.refl _ _) (State.evaluate_acts _ c))
  rfl

theorem State.unscan_acts (s : State) (c : Channel) : Acts (healthParts c) s (s.unscan c) := by
  unfold State.unscan
  dsimp only
  refine (s.putWatched_in c _ ?_).trans (Acts.ite (Acts.refl _ _) (State.evaluate_acts _ c))
  rfl

/-! ## The feed watch timers -/

theorem State.putWatch_acts (s : State) (p : FeedPort) (w : Watch) : Acts [.watch] s (s.putWatch p w) := by
  refine OnlyChanges.acts (fun p hp => ?_) (by simp [Part.governed])
  cases p <;> first | rfl | simp_all

theorem State.putStc_acts (s : State) (k : Stc) : Acts [.clock] s (s.putStc k) := by
  refine OnlyChanges.acts (fun p hp => ?_) (by simp [Part.governed])
  cases p <;> first | rfl | simp_all

/-- What heartbeat seen changes: the watch timers, and health. -/
def seenParts : List Part := .watch :: everyChannel healthParts

theorem State.heartbeatSeen_acts (s : State) (p : FeedPort) : Acts seenParts s (s.heartbeatSeen p) := by
  have w := (s.putWatch_acts p ⟨true, s.live.hbTimeout⟩).mono (qs := seenParts) (by simp [seenParts])
  unfold State.heartbeatSeen
  dsimp only
  exact Acts.ite w (w.trans ((State.evaluateAll_acts _).mono fun q hq => List.mem_cons_of_mem _ hq))

theorem State.enterHoldover_acts (s : State) : Acts [.clock] s s.enterHoldover :=
  Acts.ite (s.putStc_acts _) (Acts.refl _ s)

/-- What the silence of a feed port changes. -/
def silentParts : List Part := .watch :: .clock :: (deviceFlagParts ++ everyChannel healthParts)

theorem State.feedSilent_acts (s : State) (p : FeedPort) : Acts silentParts s (s.feedSilent p) := by
  have w := (s.putWatch_acts p ⟨false, 0⟩).mono (qs := silentParts) (by simp [silentParts])
  have f := (State.raiseDevice_acts (s.putWatch p ⟨false, 0⟩) (.feedSilent p)).mono (qs := silentParts) (by
    intro q hq; simp [silentParts, hq])
  have sub : everyChannel healthParts ⊆ silentParts := fun q hq => by simp [silentParts, hq]
  unfold State.feedSilent
  dsimp only
  generalize (s.putWatch p ⟨false, 0⟩).raiseDevice (.feedSilent p) = t at f ⊢
  refine (w.trans f).trans (Acts.ite (Acts.refl _ t) ?_)
  exact ((t.enterHoldover_acts.mono (by simp [silentParts])).trans ((State.clearReports_acts _).mono sub)).trans
    ((State.evaluateAll_acts _).mono sub)

theorem State.putKey_acts (s : State) (k : KeyFilter) : Acts [.key] s (s.putKey k) := by
  refine OnlyChanges.acts (fun p hp => ?_) (by simp [Part.governed])
  cases p <;> first | rfl | simp_all

end Sys2Proof.Machine
end

