-- ==== Sys2Proof/Laws/Edits.lean ====
section
/-! SUPPORT. What telling the new record of an edit apart does (R63): the walk of R55 reads no id, so the edited list with the new record
under another id resolves to the same starts and durations. -/

namespace Sys2Proof.Machine

/-- An event without its id. -/
def Event.nameless (e : Event) : Event := { e with id := 0 }

@[simp] theorem Event.nameless_hardRel (e : Event) : e.nameless.hardRel = e.hardRel := rfl
@[simp] theorem Event.nameless_isHard (e : Event) : e.nameless.isHard = e.isHard := rfl
@[simp] theorem Event.nameless_duration (e : Event) : e.nameless.duration = e.duration := rfl
@[simp] theorem Event.nameless_nameless (e : Event) : e.nameless.nameless = e.nameless := rfl

@[simp] theorem firstHard_nameless (es : List Event) : firstHard (es.map Event.nameless) = firstHard es := by
  simp only [firstHard, List.findSome?_map]
  rfl

/-- Resolution carries each event's id through and reads none. -/
theorem resolveFrom_nameless (prevEnd : Nat) (es : List Event) :
    resolveFrom prevEnd (es.map Event.nameless) = ((resolveFrom prevEnd es).1.map Event.nameless, (resolveFrom prevEnd es).2) := by
  induction es generalizing prevEnd with
  | nil => rfl
  | cons e es ih =>
    simp only [List.map_cons, resolveFrom, Event.nameless_hardRel, firstHard_nameless, Event.nameless_duration, ih]
    split <;> rfl

/-- Two lists that differ in ids alone resolve to lists that differ in ids alone, with as many events removed. -/
theorem resolveFrom_congr (prevEnd : Nat) {xs ys : List Event} (h : xs.map Event.nameless = ys.map Event.nameless) :
    (resolveFrom prevEnd xs).1.map Event.nameless = (resolveFrom prevEnd ys).1.map Event.nameless
      ∧ (resolveFrom prevEnd xs).2 = (resolveFrom prevEnd ys).2 := by
  have hx := resolveFrom_nameless prevEnd xs
  rw [h, resolveFrom_nameless prevEnd ys] at hx
  exact ⟨(congrArg Prod.fst hx).symm, (congrArg Prod.snd hx).symm⟩

/-- Setting an id changes nothing else of a list. -/
theorem map_nameless_modify (es : List Event) (i : Nat) :
    (es.modify i Event.nameless).map Event.nameless = es.map Event.nameless := by
  apply List.ext_getElem?
  intro j
  simp only [List.getElem?_map, List.getElem?_modify]
  split <;> cases es[j]? <;> rfl

/-- An insertion's new record is the one told apart. -/
theorem Edited.newApart_insertAfter (ref : EventId) (r : EventRecord) (e : Event) (pre post : List Event) :
    (⟨pre ++ e :: post, pre.length⟩ : Edited).newApart (.insertAfter ref r) = ⟨pre ++ e.nameless :: post, pre.length⟩ := by
  have h : (pre ++ e :: post).modify pre.length Event.nameless = pre ++ e.nameless :: post := by
    induction pre with
    | nil => rfl
    | cons x xs ih => exact congrArg (x :: ·) ih
  exact congrArg (fun es => Edited.mk es pre.length) h

/-- A replacement's new record is the one told apart. -/
theorem Edited.newApart_replace (id : EventId) (r : EventRecord) (e : Event) (pre post : List Event) :
    (⟨pre ++ e :: post, pre.length⟩ : Edited).newApart (.replace id r) = ⟨pre ++ e.nameless :: post, pre.length⟩ :=
  Edited.newApart_insertAfter id r e pre post

/-- The walk begins at the same place whatever the ids are. -/
theorem Edited.walkFrom_nameless (x : Edited) : (⟨x.events.map Event.nameless, x.point⟩ : Edited).walkFrom = x.walkFrom := by
  simp [Edited.walkFrom, ← List.map_take, ← List.map_reverse, List.takeWhile_map, Function.comp_def]

/-- R63: the list with the new record told apart resolves as the edited list does, but for that record's id. -/
theorem Edited.newApart_resolved (x : Edited) (op : EditOp) :
    (x.newApart op).resolved.1.map Event.nameless = x.resolved.1.map Event.nameless
      ∧ (x.newApart op).resolved.2 = x.resolved.2 := by
  have h : (x.newApart op).events.map Event.nameless = x.events.map Event.nameless ∧ (x.newApart op).point = x.point := by
    cases op <;> first | exact ⟨map_nameless_modify x.events x.point, rfl⟩ | exact ⟨rfl, rfl⟩
  have hw : (x.newApart op).walkFrom = x.walkFrom := by
    rw [← Edited.walkFrom_nameless, ← x.walkFrom_nameless, h.1, h.2]
  have hd := resolveFrom_congr 0 (xs := (x.newApart op).events.drop x.walkFrom) (ys := x.events.drop x.walkFrom)
    (by rw [List.map_drop, List.map_drop, h.1])
  simp only [Edited.resolved, hw, List.map_append, List.map_take, h.1, hd.1, hd.2, and_self]

end Sys2Proof.Machine
end

