-- ==== Sys2Proof/Laws/StoreFrame.lean ====
section
/-! SUPPORT. What the operations of the Schedule Store, the Replication Engine, the Station Clock and the Cadence Unit can do. -/

namespace Sys2Proof.Machine

/-! ## Plain updates -/

theorem State.putPages_acts (s : State) (c : Channel) (k : Pages) : Acts [.pages c] s (s.putPages c k) := by
  refine OnlyChanges.acts (fun p hp => ?_) (by simp [Part.governed])
  cases p with
  | pages d => exact PerChannel.get_put_ne _ _ _ _ (by simpa using hp)
  | _ => rfl

theorem State.putBaseline_acts (s : State) (c : Channel) (k : Option SeqNo) : Acts [.baseline c] s (s.putBaseline c k) := by
  refine OnlyChanges.acts (fun p hp => ?_) (by simp [Part.governed])
  cases p with
  | baseline d => exact PerChannel.get_put_ne _ _ _ _ (by simpa using hp)
  | _ => rfl

theorem State.putCdu_acts (s : State) (k : Cdu) : Acts [.cadence] s (s.putCdu k) := by
  refine OnlyChanges.acts (fun p hp => ?_) (by simp [Part.governed])
  cases p <;> first | rfl | simp_all

theorem State.putScan_acts (s : State) (k : Scan) : Acts [.scan] s (s.putScan k) := by
  refine OnlyChanges.acts (fun p hp => ?_) (by simp [Part.governed])
  cases p <;> first | rfl | simp_all

theorem State.putSave_acts (s : State) (k : Option SaveJob) : Acts [.store] s (s.putSave k) := by
  refine OnlyChanges.acts (fun p hp => ?_) (by simp [Part.governed])
  cases p <;> first | rfl | simp_all

theorem State.rxWait_acts (s : State) (l : LineId) : Acts [.rx] s (s.rxWait l) := by
  refine OnlyChanges.acts (fun p hp => ?_) (by simp [Part.governed])
  cases p <;> first | rfl | simp_all

theorem State.putSite_acts (s : State) (p : SitePort) (k : SitePortState) : Acts [.sitePorts, .notices] s (s.putSite p k) := by
  refine OnlyChanges.acts (fun p hp => ?_) (by simp [Part.governed])
  cases p <;> first | rfl | simp_all

/-- A site port replaced, its pending-notice set kept. -/
theorem State.putSite_acts_port (s : State) (p : SitePort) (k : SitePortState) (h : k.pairs = (s.site p).pairs) :
    Acts [.sitePorts] s (s.putSite p k) := by
  refine OnlyChanges.acts (fun q hq => ?_) (by simp [Part.governed])
  cases q with
  | notices => cases p
               · exact Prod.ext h rfl
               · exact Prod.ext rfl h
  | sitePorts => simp at hq
  | _ => rfl

/-- A feed port replaced, its transmit side kept. -/
theorem State.putFeed_acts (s : State) (p : FeedPort) (k : FeedPortState) (h : k.tx = (s.feed p).tx) :
    Acts [.intake] s (s.putFeed p k) := by
  refine OnlyChanges.acts (fun q hq => ?_) (by simp [Part.governed])
  cases q with
  | reports => cases p
               · exact Prod.ext h rfl
               · exact Prod.ext rfl h
  | intake => simp at hq
  | _ => rfl

theorem State.putFeed_acts_both (s : State) (p : FeedPort) (k : FeedPortState) : Acts [.intake, .reports] s (s.putFeed p k) := by
  refine OnlyChanges.acts (fun q hq => ?_) (by simp [Part.governed])
  cases q <;> first | rfl | simp_all

/-- The Schedule Store's engine, commit queue or due mark replaced. -/
theorem State.engine_acts (s : State) (e : Engine) (q : List Channel) (d : Bool) :
    Acts [.engine] s { s with sst := { s.sst with engine := e, queue := q, startDue := d } } := by
  refine OnlyChanges.acts (fun p hp => ?_) (by simp [Part.governed])
  cases p <;> first | rfl | simp_all

theorem State.setEngine_acts (s : State) (e : Engine) : Acts [.engine, .reports] s (s.setEngine e) :=
  ((s.engine_acts e s.sst.queue s.sst.startDue).mono (by simp)).trans ((State.reportDue_acts _).mono (by simp))

/-! ## Lists -/

/-- What the frames of a list, and a flip's, can change for a channel at the store. -/
def listParts (c : Channel) : List Part := .pages c :: .engine :: flagParts c

theorem pages_sub_list (c : Channel) : [Part.pages c] ⊆ listParts c := by simp [listParts]

theorem engine_sub_list (c : Channel) : [Part.engine] ⊆ listParts c := by simp [listParts]

theorem flags_sub_list (c : Channel) : flagParts c ⊆ listParts c := fun p hp => by simp [listParts, hp]

/-- What an EVENT can change for a channel at the store. -/
def loadParts (c : Channel) : List Part := .pages c :: deviceFlagParts

theorem pages_sub_load (c : Channel) : [Part.pages c] ⊆ loadParts c := by simp [loadParts]

theorem device_sub_load (c : Channel) : deviceFlagParts ⊆ loadParts c := fun p hp => by simp [loadParts, hp]

theorem State.leaveQueue_acts (s : State) (c : Channel) : Acts [.engine] s (s.leaveQueue c) :=
  s.engine_acts s.sst.engine _ _

theorem State.putNext_acts (s : State) (c : Channel) (k : NextPage) : Acts [.pages c] s (s.putNext c k) := s.putPages_acts c _

theorem State.putNext_list (s : State) (c : Channel) (k : NextPage) : Acts (listParts c) s (s.putNext c k) :=
  (s.putNext_acts c k).mono (pages_sub_list c)

theorem State.discardNext_acts (s : State) (c : Channel) : Acts (listParts c) s (s.discardNext c) :=
  (((s.leaveQueue_acts c).mono (engine_sub_list c)).trans (State.putNext_list _ c _)).trans
    ((State.raiseIf_acts _ _ _ c).mono (flags_sub_list c))

theorem State.beginList_acts (s : State) (c : Channel) (n : BitVec 16) (a b : Nat) : Acts (listParts c) s (s.beginList c n a b) :=
  (s.discardNext_acts c).trans (State.putNext_list _ c _)

theorem State.loadEvent_acts (s : State) (c : Channel) (p : LoadPage) (r : EventRecord) :
    Acts (loadParts c) s (s.loadEvent c p r) := by
  have page (k : NextPage) := (s.putNext_acts c k).mono (pages_sub_load c)
  unfold State.loadEvent
  split
  · exact page _
  · exact Acts.ite (Acts.ite ((page _).trans ((State.raiseDevice_acts _ _).mono (device_sub_load c))) (page _)) (page _)

theorem State.takeEventRecord_acts (s : State) (c : Channel) (r : EventRecord) :
    Acts (loadParts c) s (s.takeEventRecord c r) := by
  unfold State.takeEventRecord
  split
  · exact Acts.ite (Acts.refl _ s) (s.loadEvent_acts c _ r)
  · exact Acts.refl _ s

theorem State.abortList_acts (s : State) (c : Channel) : Acts (listParts c) s (s.abortList c) := by
  unfold State.abortList
  split
  · exact s.discardNext_acts c
  · exact Acts.refl _ s

theorem State.rejectList_acts (s : State) (c : Channel) : Acts (listParts c) s ((s.discardNext c).raise .listRejected c) :=
  (s.discardNext_acts c).trans ((State.raise_acts _ _ c).mono (flags_sub_list c))

theorem State.endList_acts (s : State) (c : Channel) (n : BitVec 16) (m : Nat) : Acts (listParts c) s (s.endList c n m) := by
  unfold State.endList
  split
  · exact Acts.refl _ s
  · exact Acts.ite ((s.putNext_list c _).trans ((State.engine_acts _ _ _ _).mono (engine_sub_list c))) (s.rejectList_acts c)

theorem State.recordFlip_acts (s : State) (c : Channel) (t : TimeBytes) :
    Acts (.pages c :: flagParts c) s (s.recordFlip c t) := by
  have flag := (s.raise_acts .flipMissed c).mono (List.subset_cons_self (.pages c) _)
  unfold State.recordFlip
  split
  · exact flag
  · exact (s.putNext_acts c _).mono (by simp)
  · exact flag

theorem State.finishCommit_acts (s : State) (c : Channel) (p : LoadPage) : Acts (listParts c) s (s.finishCommit c p) := by
  unfold State.finishCommit
  dsimp only
  exact Acts.ite (s.putNext_list c _) (s.rejectList_acts c)

/-! ## Edits, flips and clearing -/

/-- What an edit can change for a channel. -/
def editParts (c : Channel) : List Part := .pages c :: .engine :: .reports :: (deviceFlagParts ++ cueParts c)

theorem pages_sub_edit (c : Channel) : [Part.pages c] ⊆ editParts c := by simp [editParts]

theorem engine_sub_edit (c : Channel) : [Part.engine, .reports] ⊆ editParts c := by simp [editParts]

theorem device_sub_edit (c : Channel) : deviceFlagParts ⊆ editParts c := fun p hp => by simp [editParts, hp]

theorem cue_sub_edit (c : Channel) : cueParts c ⊆ editParts c := fun _ hp => by simp [editParts, hp]

theorem flags_sub_edit (c : Channel) : flagParts c ⊆ editParts c := fun _ hp => cue_sub_edit c (flags_sub_cue c hp)

theorem list_sub_edit (c : Channel) : listParts c ⊆ editParts c := by
  simp [listParts, editParts, flagParts, cueParts]

theorem load_sub_edit (c : Channel) : loadParts c ⊆ editParts c := by
  simp [loadParts, editParts, deviceFlagParts]

theorem State.abandonWork_acts (s : State) : Acts [.engine, .reports] s s.abandonWork :=
  ((s.engine_acts s.sst.engine s.sst.queue false).mono (by simp)).trans (State.setEngine_acts _ _)

theorem State.abandonOn_acts (s : State) (c : Channel) : Acts [.engine, .reports] s (s.abandonOn c) :=
  Acts.ite s.abandonWork_acts (Acts.refl _ s)

theorem State.emptyPages_acts (s : State) (c : Channel) : Acts [.pages c, .engine, .reports] s (s.emptyPages c) :=
  (((s.leaveQueue_acts c).mono (by simp)).trans ((State.putPages_acts _ c _).mono (by simp))).trans
    ((State.abandonOn_acts _ c).mono (by simp))

theorem State.diverge_acts (s : State) (c : Channel) : Acts (.pages c :: flagParts c) s (s.diverge c) :=
  ((s.putPages_acts c _).mono (by simp)).trans ((State.raise_acts _ _ c).mono (List.subset_cons_self _ _))

theorem State.diverge_edit (s : State) (c : Channel) : Acts (editParts c) s (s.diverge c) :=
  (s.diverge_acts c).mono (List.cons_subset.mpr ⟨pages_sub_edit c (by simp), flags_sub_edit c⟩)

theorem State.refuseEdit_acts (s : State) (c : Channel) (a b : Bool) : Acts (editParts c) s (s.refuseEdit c a b) := by
  unfold State.refuseEdit
  dsimp only
  have h := (s.diverge_edit c).trans ((State.raiseIf_acts _ b .editLocked c).mono (flags_sub_edit c))
  exact Acts.ite (h.trans ((State.raiseDevice_acts _ _).mono (device_sub_edit c))) h

theorem State.acceptEdit_acts (s : State) (c : Channel) (p : Page) (r : List Event × Nat) :
    Acts (editParts c) s (s.acceptEdit c p r) :=
  ((s.putPages_acts c _).mono (pages_sub_edit c)).trans ((State.reviewPlan_acts _ c).mono (cue_sub_edit c))

theorem State.completeEdit_acts (s : State) (c : Channel) (op : EditOp) : Acts (editParts c) s (s.completeEdit c op) := by
  unfold State.completeEdit
  split
  · exact s.diverge_edit c
  · split
    · exact s.diverge_edit c
    · exact Acts.ite (s.acceptEdit_acts c _ _) (s.refuseEdit_acts c _ _)

theorem State.takeEditOp_acts (s : State) (c : Channel) (op : EditOp) : Acts (editParts c) s (s.takeEditOp c op) := by
  unfold State.takeEditOp
  dsimp only
  exact Acts.ite (s.completeEdit_acts c op) ((s.setEngine_acts _).mono (engine_sub_edit c))

/-- What the performing of a flip can change for a channel. -/
def flipParts (c : Channel) : List Part := .pages c :: .engine :: authorityParts c

theorem authority_sub_flip (c : Channel) : authorityParts c ⊆ flipParts c := fun _ hp => by simp [flipParts, hp]

theorem State.airFirst_acts (s : State) (c : Channel) : Acts (authorityParts c) s (s.airFirst c) := by
  unfold State.airFirst
  split
  · next e => exact Acts.ite (s.goToAir_acts c _ (by rw [e]; simp [Authority.name])) (Acts.refl _ s)
  all_goals exact Acts.refl _ s

theorem State.abandonEdit_acts (s : State) (c : Channel) : Acts [.engine, .reports] s (s.abandonEdit c) := by
  unfold State.abandonEdit
  split
  · exact Acts.ite s.abandonWork_acts (Acts.refl _ s)
  · exact Acts.refl _ s
  · exact Acts.refl _ s

theorem State.performFlip_acts (s : State) (c : Channel) (p : ReadyPage) : Acts (flipParts c) s (s.performFlip c p) := by
  unfold State.performFlip
  dsimp only
  have h := (((s.airFirst_acts c).mono (authority_sub_flip c)).trans
    ((State.putPages_acts (s.airFirst c) c ⟨some p.activated, .empty⟩).mono (by simp [flipParts]))).trans
    ((State.abandonEdit_acts _ c).mono (by simp [flipParts, authorityParts]))
  exact Acts.ite h (h.trans ((State.pageChange_acts _ c).inAuthority.mono (authority_sub_flip c)))

/-! ## The Station Clock -/

/-- What the tracking of a heartbeat changes. -/
def trackParts : List Part := .clock :: deviceFlagParts

theorem State.putStc_track (s : State) (k : Stc) : Acts trackParts s (s.putStc k) :=
  (s.putStc_acts k).mono (by simp [trackParts])

theorem State.raiseDevice_track (s : State) (k : DeviceFlag) : Acts trackParts s (s.raiseDevice k) :=
  (s.raiseDevice_acts k).mono fun p hp => by simp [trackParts, hp]

theorem State.slewStep_acts (s : State) (d : SlewDir) : Acts trackParts s (s.slewStep d) := by
  unfold State.slewStep
  dsimp only
  exact Acts.ite ((s.putStc_track _).trans (State.raiseDevice_track _ _)) (s.putStc_track _)

theorem State.candidate_acts (s : State) (m : Nat) : Acts trackParts s (s.candidate m) := by
  unfold State.candidate
  dsimp only
  exact Acts.ite ((s.putStc_track _).trans (State.raiseDevice_track _ _)) (s.putStc_track _)

theorem State.track_acts (s : State) (m : Nat) : Acts trackParts s (s.track m) := by
  unfold State.track
  dsimp only
  exact Acts.ite (s.candidate_acts m) (Acts.ite (s.slewStep_acts _) (Acts.ite (s.slewStep_acts _) (s.putStc_track _)))

theorem State.takeStamp_acts (s : State) (h : Nat) (n : LocalFrame) : Acts trackParts s (s.takeStamp h n) := by
  unfold State.takeStamp
  dsimp only
  split
  · exact s.putStc_track _
  · exact s.putStc_track _
  · exact (s.putStc_track _).trans (State.track_acts _ _)
  · exact s.track_acts _

/-! ## The Replication Engine -/

/-- What the Schedule Store can change for a channel by a frame of each kind (R79). -/
def frameParts (c : Channel) : FeedBody → List Part
  | .listBegin _ _ _ => listParts c
  | .event _ => loadParts c
  | .listEnd _ _ => listParts c
  | .listAbort => listParts c
  | .edit _ => editParts c
  | .flip _ => .pages c :: flagParts c

theorem State.storeFrame_acts (s : State) (c : Channel) (b : FeedBody) : Acts (frameParts c b) s (s.storeFrame c b) := by
  cases b with
  | listBegin _ _ _ => exact s.beginList_acts c _ _ _
  | event _ => exact s.takeEventRecord_acts c _
  | listEnd _ _ => exact s.endList_acts c _ _
  | listAbort => exact s.abortList_acts c
  | edit _ => exact s.takeEditOp_acts c _
  | flip _ => exact s.recordFlip_acts c _

theorem State.recordGap_acts (s : State) (c : Channel) : Acts (.pages c :: flagParts c) s (s.recordGap c) :=
  ((s.putPages_acts c _).mono (by simp)).trans ((State.raise_acts _ _ c).mono (List.subset_cons_self _ _))

/-- What a replication frame can change for its channel. -/
def replicationParts (c : Channel) (b : FeedBody) : List Part := .baseline c :: .pages c :: (flagParts c ++ frameParts c b)

theorem State.takeReplication_acts (s : State) (c : Channel) (n : SeqNo) (b : FeedBody) :
    Acts (replicationParts c b) s (s.takeReplication c n b) := by
  have base (t : State) := (t.putBaseline_acts c (some n)).mono (qs := replicationParts c b) (by simp [replicationParts])
  have frame (t : State) := (t.storeFrame_acts c b).mono (qs := replicationParts c b) fun p hp => by
    simp [replicationParts, hp]
  have gap := (s.recordGap_acts c).mono (qs := replicationParts c b) (by simp [replicationParts, flagParts])
  unfold State.takeReplication
  split
  · exact Acts.refl _ s
  · exact (gap.trans (base _)).trans (frame _)
  · exact (base s).trans (frame _)
  · exact (base s).trans (frame _)

/-- What a heartbeat can change. -/
def heartbeatParts : List Part :=
  .clock :: (deviceFlagParts ++ (everyChannel healthParts ++ everyChannel fun c => [.pages c]))

theorem State.divergenceCheck_acts (s : State) (c : Channel) (i : EventId) :
    Acts heartbeatParts s (s.divergenceCheck c i) := by
  unfold State.divergenceCheck
  refine Acts.ite ((((s.putPages_acts c _).mono ?_)).trans ((State.raise_acts _ _ c).mono fun p hp => ?_)) (Acts.refl _ s)
  · intro p hp
    have := mem_everyChannel (f := fun c => [Part.pages c]) c hp
    simp [heartbeatParts, this]
  · have := mem_everyChannel (f := healthParts) c (authority_sub_health c (flags_sub_authority c hp))
    simp [heartbeatParts, this]

theorem State.takeHeartbeatFrame_acts (s : State) (h : Heartbeat) (n : LocalFrame) :
    Acts heartbeatParts s (s.takeHeartbeatFrame h n) := by
  unfold State.takeHeartbeatFrame
  refine Acts.ite ((((s.takeStamp_acts _ n).mono fun p hp => ?_).trans ((State.hearHeartbeat_acts _ h).mono fun p hp => ?_)).trans
    (Acts.eachChannel _ (fun t c => t.divergenceCheck_acts c _) _)) ((s.raiseDevice_acts _).mono fun p hp => ?_)
  · simp only [trackParts, List.mem_cons] at hp
    rcases hp with hp | hp <;> simp [heartbeatParts, hp]
  · simp [heartbeatParts, hp]
  · simp [heartbeatParts, hp]

theorem State.dropHead_acts (s : State) (p : FeedPort) : Acts [.intake] s (s.dropHead p) := by
  refine (s.putFeed_acts p { s.feed p with queue := (s.feed p).queue.drop 1 } rfl).trans ?_
  refine OnlyChanges.acts (fun q hq => ?_) (by simp [Part.governed])
  cases q <;> first | rfl | simp_all

/-- What the completion of a frame on a feed port can change. -/
def completionParts : List Part := .intake :: (deviceFlagParts ++ seenParts)

theorem State.completeFrame_acts (s : State) (p : FeedPort) (x : Option FeedFrame) :
    Acts completionParts s (s.completeFrame p x) := by
  have flag (k : DeviceFlag) : Acts completionParts s (s.raiseDevice k) :=
    (s.raiseDevice_acts k).mono fun q hq => by simp [completionParts, hq]
  unfold State.completeFrame
  split
  · exact flag _
  · next x =>
    refine Acts.trans (t := s.offerFrame p x) ?_ ?_
    · unfold State.offerFrame
      dsimp only
      refine Acts.ite ((s.putFeed_acts p _ ?_).mono (by simp [completionParts])) (flag _)
      rfl
    · unfold State.seenIf
      split
      · exact (State.heartbeatSeen_acts _ p).mono fun q hq => by simp [completionParts, hq]
      · exact Acts.refl _ _

end Sys2Proof.Machine
end

