-- ==== Sys2Proof/Laws/RequestFrame.lean ====
section
/-! SUPPORT. What the taking of a command, of a site frame and of a request can do, whatever its owner decides. -/

namespace Sys2Proof.Machine

/-! ## Any command -/

theorem whenRunning_eq {s : State} {f : State → State} (h : s.power = .running) : whenRunning s f = .next (f s) := by
  simp only [whenRunning, h]

theorem whenRunning_held {s : State} {f : State → State} (h : s.power = .held) : whenRunning s f = .next s := by
  simp only [whenRunning, h]

theorem whenRunning_cases {s t : State} {f : State → State} (h : whenRunning s f = .next t) : t = f s ∨ t = s := by
  unfold whenRunning at h
  split at h
  · exact .inl (Host.Outcome.next.inj h).symm
  · exact .inr (Host.Outcome.next.inj h).symm

theorem whenRunning_acts {ps : List Part} {s t : State} {f : State → State} (h : whenRunning s f = .next t)
    (k : Acts ps s (f s)) : Acts ps s t := by
  rcases whenRunning_cases h with rfl | rfl
  · exact k
  · exact Acts.refl _ _

/-! ## Requests (R164 to R168) -/

/-- What the taking of a request and the queuing of its answer change. -/
def takingParts : List Part := [.sitePorts, .rx]

theorem State.validFrame_acts (s : State) (p : SitePort) : Acts takingParts s (s.validFrame p) := by
  unfold State.validFrame
  refine Acts.trans ((s.putSite_acts_port p _ ?_).mono ?_) ((State.rxWait_acts _ _).mono ?_)
  · rfl
  · simp [takingParts]
  · simp [takingParts]

theorem State.queueAnswer_acts (s : State) (p : SitePort) (a : Answer) : Acts [.sitePorts] s (s.queueAnswer p a) :=
  s.putSite_acts_port p _ rfl

theorem State.answerBy_acts {ps : List Part} (s : State) (p : SitePort) (code : Byte) (tag : Tag) (owner : State → Verdict)
    (h : ∀ t, Acts ps t (owner t).state) (sub : takingParts ⊆ ps) : Acts ps s (s.answerBy p code tag owner) := by
  unfold State.answerBy
  dsimp only
  refine ((s.validFrame_acts p).mono sub).trans (Acts.ite ((h _).trans ((State.queueAnswer_acts _ p _).mono ?_)) (Acts.refl _ _))
  exact fun q hq => sub (by simp_all [takingParts])

theorem State.request_acts {α : Type} {ps : List Part} (s : State) (p : SitePort) (code : Byte) (r : Request α)
    (owner : α → State → Verdict) (h : ∀ x t, Acts ps t (owner x t).state) (sub : takingParts ⊆ ps) :
    Acts ps s (s.request p code r owner) := by
  unfold State.request
  refine s.answerBy_acts p code _ _ (fun t => ?_) sub
  split
  · exact h _ t
  · exact Acts.refl _ t

theorem State.onChannel_acts {ps : List Part} (s : State) (b : Byte) (owner : Channel → Verdict)
    (h : ∀ c, Acts ps s (owner c).state) : Acts ps s (s.onChannel b owner).state := by
  unfold State.onChannel
  split
  · exact h _
  · exact Acts.refl _ s

theorem State.asHolder_acts {ps : List Part} (s : State) (p : SitePort) (c : Channel) (owner : Verdict)
    (h : Acts ps s owner.state) : Acts ps s (s.asHolder p c owner).state := by
  unfold State.asHolder
  split
  · split
    · exact h
    · exact Acts.refl _ s
  · exact h

/-! ## What a request comes to (R164, R165, R168) -/

theorem State.site_validFrame (s : State) (p q : SitePort) :
    (s.validFrame p).site q = if q = p then { s.site p with live := true, timer := s.live.siteTimeout } else s.site q :=
  State.site_putSite s p q _

@[simp] theorem State.validFrame_live (s : State) (p : SitePort) : (s.validFrame p).live = s.live := rfl

@[simp] theorem State.validFrame_power (s : State) (p : SitePort) : (s.validFrame p).power = s.power := rfl

@[simp] theorem State.validFrame_rx (s : State) (p : SitePort) : (s.validFrame p).rx = s.rx.put (siteLine p) .waiting := rfl

@[simp] theorem State.validFrame_pairs (s : State) (p q : SitePort) : ((s.validFrame p).site q).pairs = (s.site q).pairs := by
  rw [State.site_validFrame]
  split
  · next h => rw [h]
  · rfl

@[simp] theorem State.validFrame_answers (s : State) (p q : SitePort) :
    ((s.validFrame p).site q).answers = (s.site q).answers := by
  rw [State.site_validFrame]
  split
  · next h => rw [h]
  · rfl

theorem State.validFrame_takes (s : State) (p : SitePort) :
    (s.validFrame p).takesRequests p = decide ((s.site p).answers.length < 4) := by
  rw [State.takesRequests, State.validFrame_answers]
  rfl

/-- A valid frame that finds room: the owner decides on the state after it, and its answer is queued. -/
theorem State.answerBy_room {s : State} {p : SitePort} (h : (s.site p).answers.length < 4) (code : Byte) (tag : Tag)
    (owner : State → Verdict) :
    s.answerBy p code tag owner = (owner (s.validFrame p)).state.queueAnswer p
      ⟨tag, code, (owner (s.validFrame p)).code, (owner (s.validFrame p)).result⟩ := by
  simp only [State.answerBy, State.validFrame_takes, h, decide_true, if_true]

/-- A valid frame that finds four answers queued is not taken. -/
theorem State.answerBy_full {s : State} {p : SitePort} (h : (s.site p).answers.length = 4) (code : Byte) (tag : Tag)
    (owner : State → Verdict) : s.answerBy p code tag owner = s.validFrame p := by
  simp [State.answerBy, State.validFrame_takes, h]

theorem State.request_formed {α : Type} {s : State} {p : SitePort} (h : (s.site p).answers.length < 4) (code : Byte) (tag : Tag)
    (x : α) (owner : α → State → Verdict) :
    s.request p code (.formed tag x) owner = (owner x (s.validFrame p)).state.queueAnswer p
      ⟨tag, code, (owner x (s.validFrame p)).code, (owner x (s.validFrame p)).result⟩ :=
  State.answerBy_room h code tag fun s => owner x s

theorem State.request_malformed {α : Type} {s : State} {p : SitePort} (h : (s.site p).answers.length < 4) (code : Byte)
    (tag : Tag) (owner : α → State → Verdict) :
    s.request p code (.malformed tag) owner = (s.validFrame p).queueAnswer p ⟨tag, code, .badValue, []⟩ :=
  State.answerBy_room h code tag fun s => s.refuse .badValue

theorem State.request_full {α : Type} {s : State} {p : SitePort} (h : (s.site p).answers.length = 4) (code : Byte)
    (r : Request α) (owner : α → State → Verdict) : s.request p code r owner = s.validFrame p :=
  State.answerBy_full h code _ _

theorem State.onChannel_of {s : State} {b : Byte} {c : Channel} (h : b.toNat = c.val) (owner : Channel → Verdict) :
    s.onChannel b owner = owner c := by
  have e : channelOf b = some c := by
    unfold channelOf
    rw [dif_pos (by have := c.isLt; omega)]
    exact congrArg some (Fin.ext h)
  simp only [State.onChannel, e]

theorem State.onChannel_none {s : State} {b : Byte} (h : 11 < b.toNat) (owner : Channel → Verdict) :
    s.onChannel b owner = s.refuse .noChannel := by
  have e : channelOf b = none := by
    unfold channelOf
    rw [dif_neg (by omega)]
  simp only [State.onChannel, e]

end Sys2Proof.Machine
end

