-- ==== Sys2Proof/Tests/Slice0.lean ====
section
/-! SUPPORT. Tests of the model: ill-formed commands are refused, the manual's worked examples come out, each command takes one step
on a small state, and each statement with hypotheses has a concrete state that meets them. Expected values are the manual's own or
worked by hand from its rules. -/

namespace Sys2Proof.Tests

open Sys2Proof Sys2Proof.Machine

set_option Elab.async false

/-! ## Ill-formed commands (WellFormed.lean) -/

theorem test_wellFormed_rePhasing : (Instr.rePhasing 624).wellFormed = true ∧ (Instr.rePhasing 625).wellFormed = false := by decide

theorem test_wellFormed_body :
    (Instr.feedFrameCompletion .A 1 (List.replicate 512 0) 0).wellFormed = true
      ∧ (Instr.feedFrameCompletion .A 1 (List.replicate 513 0) 0).wellFormed = false := by decide +kernel

theorem test_wellFormed_presencePulse :
    (Instr.presencePulse 0 937).wellFormed = true ∧ (Instr.presencePulse 0 0).wellFormed = false
      ∧ (Instr.presencePulse 0 938).wellFormed = false := by decide

theorem test_wellFormed_unknownRequest :
    (Instr.unknownRequest .A 0x39 0).wellFormed = true ∧ (Instr.unknownRequest .A 0x20 0).wellFormed = false
      ∧ (Instr.unknownRequest .A 0x38 0).wellFormed = false := by decide

theorem test_wellFormed_take :
    (Instr.take .A (.formed 1 11)).wellFormed = true ∧ (Instr.take .A (.formed 1 0xFF)).wellFormed = false := by decide

theorem test_wellFormed_clearFlags :
    (Instr.clearFlags .A (.formed 1 (List.replicate 254 ⟨1, 0xFF⟩))).wellFormed = true
      ∧ (Instr.clearFlags .A (.formed 1 (List.replicate 255 ⟨1, 0xFF⟩))).wellFormed = false := by decide +kernel

/-! ## Worked examples of chapters 1, 2, 4 and 10 -/

/-- R25: 23:59:59;29 is frame 2,589,407 of the day and 00:10:00;00 frame 17,982. R24: 23:59:59:24 is 2,159,999 in F25. -/
theorem test_stageA :
    (stageA .f30d ⟨0, 23, 59, 59, 29⟩).map StageA.frame = some 2589407
      ∧ (stageA .f30d ⟨0, 0, 10, 0, 0⟩).map StageA.frame = some 17982
      ∧ (stageA .f25 ⟨0, 23, 59, 59, 24⟩).map StageA.frame = some 2159999
      ∧ stageA .f25 ⟨0, 24, 0, 0, 0⟩ = none := by decide

/-- R26, worked case 7004: day 1 14:02:00;00 is taken as 14:02:00;02, relative frame 1,514,086. -/
theorem test_stageA_adjusts :
    stageA .f30d ⟨1, 14, 2, 0, 0⟩ = some ⟨2589408 + 1514086, ⟨1, 14, 2, 0, 2⟩, true⟩ := by decide

/-- R29: frame 1,511,743 is 14:00:41;25 and frame 1,512,288 is 14:01:00;02. -/
theorem test_stageB :
    stageB .f30d 1511743 = ⟨0, 14, 0, 41, 25⟩ ∧ stageB .f30d 1512288 = ⟨0, 14, 1, 0, 2⟩ := by decide

/-- R15: the table of W. -/
theorem test_wrapShift : wrapShift .f25 = 887296 ∧ wrapShift .f30d = 17265280 ∧ wrapShift .f30n = 12983296 := by decide

/-- R189: generator 1021h, preset FFFFh, most significant bit first, not inverted: the known check value of "123456789" is 29B1h. -/
theorem test_crc : crc [0x31, 0x32, 0x33, 0x34, 0x35, 0x36, 0x37, 0x38, 0x39] = 0x29B1 := by decide +kernel

/-- 10.3: the bytes of RETURN 29h, tag 0102h, channel 5, mode 1, and of ROUTE 2Ah, tag 0003h, channel 5, source 200. -/
theorem test_siteCommand :
    siteCommand .A 0x29 [0x01, 0x02, 0x05, 0x01] = .returnToMain .A (.formed 0x0102 ⟨5, 1⟩)
      ∧ siteCommand .B 0x2A [0x00, 0x03, 0x05, 0x00, 0xC8] = .route .B (.formed 3 ⟨5, 200⟩)
      ∧ siteCommand .A 0x25 [0x00, 0x01, 0xFF] = .takeAll .A 1
      ∧ siteCommand .A 0x20 [0x07] = .status .A (.malformed 0) := by decide

/-- 10.2: a LIST BEGIN of channel 5, sequence 258, serial 17, base day 2, count 6, and a DELETE edit of event 501. -/
theorem test_feedFrame :
    feedFrame 0x01 [0x05, 0x01, 0x02, 0x00, 0x11, 0x02, 0x00, 0x06] = some (.replication 5 258 (.listBegin 17 2 6))
      ∧ feedFrame 0x05 [0x05, 0x00, 0x09, 0x03, 0x00, 0x00, 0x01, 0xF5] = some (.replication 5 9 (.edit (.delete 501)))
      ∧ feedFrame 0x05 [0x05, 0x00, 0x09, 0x04, 0x00, 0x00, 0x01, 0xF5] = none
      ∧ feedFrame 0x04 [0x0C, 0x00, 0x09] = none := by decide

/-- 10.2: an EVENT body of 34 bytes, event 7001 of the worked cases: HARD, CLIP, JOIN, 1,800 frames, a start, trim 120. -/
def body7001 : List Byte :=
  [0x03, 0x00, 0x01, 0x00, 0x00, 0x1B, 0x59, 0x00, 0x00, 0x00, 0x00, 0x00, 0x07, 0x08, 0x01, 0x01, 0x0E, 0x00, 0x00, 0x00,
   0x01, 0x00, 0x00, 0x78, 0x00, 0x08, 0x41, 0x42, 0x43, 0x44, 0x45, 0x46, 0x47, 0x48]

theorem test_feedFrame_event :
    body7001.length = 34
      ∧ feedFrame 0x02 body7001 = some (.replication 3 1 (.event ⟨7001, 0, 0, 0, 1800, some ⟨1, 14, 0, 0, 0⟩, some 120, none,
          [0x41, 0x42, 0x43, 0x44, 0x45, 0x46, 0x47, 0x48]⟩)) := by decide +kernel

/-! ## Small states -/

/-- The state after a command, as it was where the command does not answer a next state. -/
def after (i : Instr) (s : State) : State :=
  match exec i s with
  | .next t => t
  | .fault _ => s
  | .refused _ => s

/-- The settings of the worked takeover of chapter 7, policy AUTO. -/
def rigCfg (c : Channel) : ChannelSettings where
  enabled := true
  policy := .auto
  destination := 20 + c.val
  mainSource := 40 + c.val
  filler := some 90
  players := ⟨⟨c.val + 1, 100 + 2 * c.val⟩, ⟨c.val + 13, 101 + 2 * c.val⟩⟩
  cueLead := 10
  minRemain := 50
  threshold := 64
  absenceCount := 3
  confirm := 125
  tallyPolarity := .activeHigh

/-- An F25 house, O = 4,764,999, LOCKED, at local frame 150,000 (the worked sequence of chapter 6). -/
def rig : State :=
  { State.reset with
    live := { State.reset.live with channel := PerChannel.build rigCfg }
    cdu := { State.reset.cdu with now := 150000 }
    stc := ⟨4764999, .locked, none, none, 0, none⟩ }

/-- A resolved event of the worked list load of chapter 3. -/
def ev (id : EventId) (hard : Option Nat) (start dur full : Nat) (kind : EventKind) (policy : JoinPolicy) : Event :=
  ⟨id, (match hard with | some x => .hard ⟨2, 6, 0, 0, 0⟩ x | none => .follow), full, kind, policy, false,
    some ⟨start, dur, decide (dur < full)⟩⟩

/-- The events of that list as they are resolved. -/
def events5 : List Event :=
  [ev 501 (some 540000) 540000 45000 45000 (.clip [0x41] 250) .join, ev 502 none 585000 22500 22500 (.clip [0x50] 0) .join,
   ev 503 none 607500 22500 30000 (.clip [0x53] 0) .noJoin, ev 505 (some 630000) 630000 90000 90000 (.live 12) .join,
   ev 506 none 720000 750 750 .fill .join]

/-- The page of channel 5: serial 17, base day 2. -/
def page5 : Page := ⟨2, 17, events5, 1, false, false⟩

/-- The rig with channel 5's page. -/
def paged : State := rig.putPages 5 ⟨some page5, .empty⟩

/-- Clip 502 on player B, on air until 162,501. -/
def air502 : OnAir := ⟨.clip, 502, some 111, some .B, some 162501, 140001⟩

/-- Channel 5 in STANDBY on clip 502, with nothing planned. -/
def onAir : State :=
  { paged with aut := PerChannel.put paged.aut 5 (.standby air502) }.putCue 5
    ⟨⟨.idle, .onAir⟩, some .B, some (140001, 585000), [], false, false⟩

/-- Channel 5 HELD by SA on clip 502. -/
def held5 : State := { onAir with aut := PerChannel.put onAir.aut 5 (.held .A air502) }

/-- A join plan of channel 5 at 150,010 on a live source. -/
def plan5 : JoinPlan := ⟨150010, 4915009, .live 12, 505, some 200000, none, false, none⟩

/-- Channel 5 ARMED by health with that plan. -/
def armed5 : State := { paged with aut := PerChannel.put paged.aut 5 (.armed .auto plan5) }

/-- Channel 5 RETURNING at the next frame. -/
def returning5 : State := { onAir with aut := PerChannel.put onAir.aut 5 (.returning .standby .now 150001 air502) }

/-- A state whose switch-window event is being taken, at a local frame. -/
def atWindow (s : State) (n : LocalFrame) : State :=
  { s with cdu := { s.cdu with now := n, line := 7, windowOpened := true, windowEvent := true } }

/-- A frame that heads the queue of FA, whose turn it is. -/
def feeding (s : State) (f : FeedFrame) : State := s.putFeed .A { s.feed .A with queue := [⟨s.now, f⟩] }

/-- A heartbeat of a stamp that reports every channel OK and RESUME-READY. -/
def beat (stamp : BitVec 32) : FeedFrame := .heartbeat ⟨stamp, 0, PerChannel.same ⟨.ok, true, 0⟩⟩

/-- The record of event 501 as it is received. -/
def record501 : EventRecord := ⟨501, 0, 0, 0, 45000, some ⟨2, 6, 0, 0, 0⟩, some 250, none, [0x41]⟩

/-- A LOADING page of serial 17 that has event 501. -/
def loading5 : LoadPage := ⟨2, 17, 1, [⟨501, .hard ⟨2, 6, 0, 0, 0⟩ 540000, 45000, .clip [0x41] 250, .join, false, none⟩], false, none⟩

/-- The six records of the worked list as they stand before the commit. -/
def raw5 : List Event :=
  [⟨501, .hard ⟨2, 6, 0, 0, 0⟩ 540000, 45000, .clip [0x41] 250, .join, false, none⟩,
   ⟨502, .follow, 22500, .clip [0x50] 0, .join, false, none⟩, ⟨503, .follow, 30000, .clip [0x53] 0, .noJoin, false, none⟩,
   ⟨504, .follow, 1500, .clip [0x54] 0, .join, false, none⟩, ⟨505, .hard ⟨2, 7, 0, 0, 0⟩ 630000, 90000, .live 12, .join, false, none⟩,
   ⟨506, .follow, 750, .fill, .join, false, none⟩]

/-- The answer that a command has queued on SA. -/
def answerOf (i : Instr) (s : State) : Option (AnswerCode × List Byte) :=
  (((after i s).site .A).answers.getLast?).map fun a => (a.code, a.result)

/-! ## Chapters 2 and 3: worked cases -/

/-- The page of the worked cases of chapter 2. -/
def events3 : List Event :=
  [ev 7001 (some 1510488) 1510488 1800 1800 (.clip [1] 120) .join, ev 7002 none 1512288 900 900 (.clip [2] 40) .join,
   ev 7003 none 1513188 600 600 (.live 41) .join, ev 7004 (some 1514086) 1514086 3000 3000 (.clip [4] 0) .noJoin]

/-- The F30D channel of the worked cases at a local frame: K = 15, base day 1, O = 3,101,136. -/
def house (n : LocalFrame) : State :=
  let live := { rig.live with format := .f30d, channel := PerChannel.put rig.live.channel 3 { rigCfg 3 with cueLead := 15 } }
  State.putPages { rig with live := live, cdu := { rig.cdu with now := n, frame := FrameTiming.ofSettings live }, stc := ⟨3101136, .locked, none, none, 0, none⟩ } 3
    ⟨some ⟨1, 1, events3, 0, false, false⟩, .empty⟩

/-- Cases 1, 3 and 4 of chapter 2: jl, js, what is on air first, and its end. -/
theorem test_join_cases :
    (let p := (house 1000000).join 3
     (p.plan.start, p.plan.station, p.plan.content, p.plan.stop) = (1000015, 4101151, .clip [1] 1375, some 1000560))
    ∧ (let p := (house 1000550).join 3
       (p.plan.start, p.plan.content, p.plan.stop, p.plan.id) = (1000565, .clip [2] 45, some 1001460, 7002))
    ∧ (let p := (house 1000510).join 3
       (p.plan.start, p.plan.content, p.plan.stop, p.plan.id, p.plan.next) = (1000525, .filler, some 1000560, 7001, some (7002, 1000560))) := by
  decide +kernel

/-- "Where other joins land on the same page". -/
theorem test_join_places :
    ((placeOn .f30d 50 events3 1510000).content, (placeOn .f30d 50 events3 1510000).length) = (.filler, some 488)
    ∧ (placeOn .f30d 50 events3 18017964).length = some 1618380
    ∧ ((placeOn .f30d 50 events3 1512288).content, (placeOn .f30d 50 events3 1512288).length) = (.clip [2] 40, some 900)
    ∧ ((placeOn .f30d 50 events3 1513500).content, (placeOn .f30d 50 events3 1513500).length) = (.live 41, some 288)
    ∧ ((placeOn .f30d 50 events3 1513900).id, (placeOn .f30d 50 events3 1513900).length) = (0, some 186) := by decide +kernel

/-- The commit of the worked list load resolves to the table of chapter 3, with one event dropped. -/
theorem test_resolution : resolveFrom 0 raw5 = (events5.map fun e =>
    if e.id = 505 then { e with start := .hard ⟨2, 7, 0, 0, 0⟩ 630000 } else e, 1) := by decide +kernel

/-- R76: differences of 1, 3, 0, 32767, 32768 and 25536. -/
theorem test_seqClass :
    (seqClass (some 65535) 0, seqClass (some 65535) 2, seqClass (some 10) 10, seqClass (some 10) 32777,
      seqClass (some 10) 32778, seqClass (some 40000) 0, seqClass none 7)
    = (SeqClass.next, SeqClass.gap, SeqClass.old, SeqClass.gap, SeqClass.old, SeqClass.gap, SeqClass.first) := by decide

/-! ## One step of each command -/

/-- R186: a power-on reset returns every channel to MAIN and holds the part, its outputs undriven. -/
theorem test_powerOnReset :
    ((after .powerOnReset onAir).power, (after .powerOnReset onAir).authority 5, (after .powerOnReset onAir).alarmLevel)
      = (.held, .main, none) := by decide +kernel

/-- R187, R21: an accepted NRST puts the station offset back to 0 and UNSET. -/
theorem test_nrstAccepted : (after .nrstAccepted onAir).stc = ⟨0, .unset, none, none, 0, none⟩ := by decide +kernel

/-- R186: the part runs when the reset ends, with ALM at the inactive level of ACTIVE-LOW. -/
theorem test_resetEnd : (after .resetEnd (after .powerOnReset onAir)).alarmLevel = some true := by decide +kernel

/-- R187: an idle part that an accepted NRST holds runs again when a line period begins with NRST released, and not before. -/
theorem test_resetEnd_nrst :
    (let s := { after .nrstAccepted onAir with pins := ⟨false, true, [true, false]⟩ }
     let one (s : State) : State := match step s with
       | .next t => t
       | .fault _ => s
       | .refused _ => s
     ((one s).power, (one (one s)).power)) = (.held, .running) := by decide +kernel

/-- R5: the first pulse in FREERUN makes ACQUIRING. -/
theorem test_refLinePulse :
    (after .refLinePulse { rig with cdu := { rig.cdu with refState := .freerun } }).cdu.refState = .acquiring := by decide +kernel

/-- R187: a line that begins on a reference pulse takes a sample of NRST, at the level that it has by then. -/
theorem test_refLinePulse_nrst :
    (let s := { rig with cdu := { rig.cdu with refState := .locked, phase := .aligned, refLine := some 300, line := 300 },
                         pins := ⟨false, false, [true]⟩ }
     let t := after .refLinePulse s
     (t.cdu.line, t.pins, t.store.nrstCount)) = (301, ⟨false, true, []⟩, 1) := by decide +kernel

/-- R3: the 25th in-place frame pulse makes LOCKED. -/
theorem test_refFramePulse :
    (after .refFramePulse { rig with cdu := { rig.cdu with refLine := some 625, qualifying := 24 } }).cdu.refState = .locked := by
  decide +kernel

/-- The rig with the reference locked and the phase aligned at line 300. -/
def locked : State := { rig with cdu := { rig.cdu with refState := .locked, phase := .aligned, refLine := some 300, line := 300 } }

/-- R4: a line silence in LOCKED is a loss of reference. -/
theorem test_lineSilence :
    ((after .lineSilence locked).cdu.refState, (after .lineSilence locked).deviceFlag .refLost) = (.freerun, true) := by
  decide +kernel

/-- R3: in ACQUIRING a missing frame pulse leaves the count. -/
theorem test_missingFramePulse :
    (after .missingFramePulse { rig with cdu := { rig.cdu with refLine := some 625, qualifying := 9 } }).cdu.qualifying = 9 := by
  decide +kernel

/-- R6: a pulse 312 line periods after the frame end stretches the frame, one 313 after has the next frame cut. -/
theorem test_rePhasing :
    (let s := { locked with cdu := { locked.cdu with phase := .pending, line := 625 } }
     ((after (.rePhasing 312) s).cdu.adjust, (after (.rePhasing 313) s).cdu.adjust)) = (.stretching, .cutNext) := by decide +kernel

/-- R2: the count wraps from 4,294,967,295 to 0. -/
theorem test_frameStart :
    (after (.frameStart false) { rig with cdu := { rig.cdu with now := 4294967295 } }).cdu.now = 0 := by decide +kernel

/-- R8: the window opens at line 7 in F25. -/
theorem test_switchWindowEvent :
    ((after .switchWindowEvent rig).cdu.line, (after .switchWindowEvent rig).windowOpen) = (7, true) := by decide +kernel

/-- R15: W of F25 is added to O. -/
theorem test_localFrameWrap :
    (after .localFrameWrap { rig with cdu := { rig.cdu with wrapDue := true } }).stc.offset = 4764999 + 887296 := by decide +kernel

/-- The rig at a local frame with a Station Clock. -/
def clockAt (n : LocalFrame) (c : Stc) : State := { rig with cdu := { rig.cdu with now := n }, stc := c }

/-- Worked slewing of chapter 1: the turn recorded at 575 is gone at frame 826 and there at 825. -/
theorem test_turnRecordExpiry :
    ((after .turnRecordExpiry (clockAt 826 { rig.stc with turn := some 575 })).stc.turn,
      (after .turnRecordExpiry (clockAt 825 { rig.stc with turn := some 575 })).stc.turn) = (none, some 575) := by decide +kernel

/-- R69: a frame whose check disagrees sets FEED-CHECK (A). -/
theorem test_feedFrameCompletion_check :
    (after (.feedFrameCompletion .A 0x04 [5, 0, 1] 0) rig).deviceFlag (.feedCheck .A) = true := by decide +kernel

/-- R70: the third frame of a full queue is discarded, with FEED-OVERRUN (A). -/
theorem test_feedFrameCompletion_overrun :
    (let f : QueuedFrame := ⟨1, .replication 5 1 .listAbort⟩
     let s := rig.putFeed .A { rig.feed .A with queue := [f, f] }
     let t := after (.feedFrameCompletion .A 0x04 [5, 0, 1] (frameCheck 0x04 [5, 0, 1])) s
     ((t.feed .A).queue, t.deviceFlag (.feedOverrun .A))) =
      ([⟨1, .replication 5 1 .listAbort⟩, ⟨1, .replication 5 1 .listAbort⟩], true) := by decide +kernel

/-- R189: an abandoned partial frame on FB sets FEED-CHECK (B). -/
theorem test_partialFrameAbandon :
    (after (.partialFrameAbandon .fb) { rig with rx := { rig.rx with fb := .gathering [1] false true } }).deviceFlag (.feedCheck .B)
      = true := by decide +kernel

/-- R49: a declared count of 0 opens the page BROKEN. -/
theorem test_listBegin :
    ((after .listBegin (feeding rig (.replication 5 1 (.listBegin 17 2 0)))).pages 5).next
      = .loading ⟨2, 17, 0, [], true, none⟩ := by decide +kernel

/-- R50, worked list load: event 501 joins the page at relative start 540,000. -/
theorem test_event :
    ((after .event (feeding (rig.putPages 5 ⟨none, .loading { loading5 with events := [] }⟩)
        (.replication 5 1 (.event record501)))).pages 5).next = .loading loading5 := by decide +kernel

/-- R52: serial and counts agree, and the page joins the commit queue. -/
theorem test_listEnd :
    (after .listEnd (feeding (rig.putPages 5 ⟨none, .loading loading5⟩) (.replication 5 1 (.listEnd 17 1)))).sst.queue = [5] := by
  decide +kernel

/-- R51: an aborted page is EMPTY. -/
theorem test_listAbort :
    ((after .listAbort (feeding (rig.putPages 5 ⟨none, .loading loading5⟩) (.replication 5 1 .listAbort))).pages 5).next
      = .empty := by decide +kernel

/-- The page of the worked edits of chapter 3: channel 3 in STANDBY on live event 7003, with a PLAY for 7004 in the queue. -/
def editing : State :=
  let s := house 1001500
  { s with
    aut := PerChannel.put s.aut 3 (.standby ⟨.live, 7003, some 41, none, some 1002060, 1001460⟩)
    cus := { s.cus with queue := [⟨3, .A, 4, 1002343, 1002358, .play [4] 0 1 7004⟩] } }

/-- Worked edits of chapter 3: 7011 after 7002 would move the locked 7003, and is refused. -/
theorem test_insertAfter_refused :
    (let t := after .insertAfter (feeding editing (.replication 3 1 (.edit (.insertAfter 7002
        ⟨7011, 0, 2, 0, 300, some ⟨1, 14, 1, 40, 0⟩, none, none, []⟩))))
     (t.channelFlag .editLocked 3, t.channelFlag .diverged 3, activeEvents (t.pages 3).active)) = (true, true, events3) := by
  decide +kernel

/-- Worked edits of chapter 3: 7010 after 7003 stands from 1,513,936 in the former gap. -/
theorem test_insertAfter_applied :
    ((activeEvents ((after .insertAfter (feeding editing (.replication 3 1 (.edit (.insertAfter 7003
        ⟨7010, 0, 2, 0, 60, some ⟨1, 14, 1, 55, 0⟩, none, none, []⟩))))).pages 3).active).map fun e => (e.id, e.res.map Resolution.start))
      = [(7001, some 1510488), (7002, some 1512288), (7003, some 1513188), (7010, some 1513936), (7004, some 1514086)] := by
  decide +kernel

/-- Worked edits of chapter 3: 7004 has a pending PLAY, and its replacement is refused. -/
theorem test_replace :
    (after .replace (feeding editing (.replication 3 1 (.edit (.replace 7004
        ⟨7004, 0, 0, 1, 2400, some ⟨1, 14, 2, 0, 0⟩, none, none, [4]⟩))))).channelFlag .editLocked 3 = true := by decide +kernel

/-- R63: a new record that repeats the id of the locked clip 502. At the head, with 502 where it was, the edit is refused without
EDIT-LOCKED; in 502's place, with 502 moved behind it, it is refused with EDIT-LOCKED too. -/
theorem test_insertAfter_repeatsId :
    (let s (ref : EventId) (r : EventRecord) : State := after .insertAfter (feeding onAir (.replication 5 1 (.edit (.insertAfter ref r))))
     let flags (t : State) := (t.channelFlag .editLocked 5, t.channelFlag .diverged 5, activeEvents (t.pages 5).active == events5)
     (flags (s 0 ⟨502, 0, 2, 0, 750, some ⟨2, 5, 0, 0, 0⟩, none, none, []⟩), flags (s 501 ⟨502, 1, 2, 0, 22500, none, none, none, []⟩)))
      = ((false, true, true), (true, true, true)) := by decide +kernel

/-- R61: with 505 deleted, 503 has no limit before the end and regains its 30,000 frames. -/
theorem test_delete :
    ((activeEvents ((after .delete (feeding paged (.replication 5 1 (.edit (.delete 505))))).pages 5).active).map
        fun e => (e.id, e.res.map Resolution.dur))
      = [(501, some 45000), (502, some 22500), (503, some 30000), (506, some 750)] := by decide +kernel

/-- Worked list load: day 2 05:50:00:00 is station frame 4,845,000. -/
theorem test_flip :
    (((after .flip (feeding (rig.putPages 5 ⟨none, .loading loading5⟩) (.replication 5 1 (.flip ⟨2, 5, 50, 0, 0⟩)))).pages 5).next).flip
      = some 4845000 := by decide +kernel

/-- Worked slewing of chapter 1: heartbeat 1 sets O to 999,502 from UNSET. -/
theorem test_heartbeat_unset :
    (after .heartbeat (feeding (clockAt 500 ⟨0, .unset, none, none, 0, none⟩) (beat 1000000))).stc = ⟨999502, .locked, none, none, 0, none⟩ := by decide +kernel

/-- Worked slewing of chapter 1: heartbeat 7 completes a step to 999,604. -/
theorem test_heartbeat_step :
    (let t := after .heartbeat (feeding (clockAt 650 ⟨999503, .locked, some .up, some 575, 2, some 999605⟩) (beat 1000252))
     (t.stc, t.deviceFlag .offsetStep)) = (⟨999604, .locked, none, none, 0, none⟩, true) := by decide +kernel

/-- Channel 5's worked list waiting for its commit. -/
def waiting : State := rig.putPages 5 ⟨none, .committing { loading5 with events := raw5 }⟩

/-- R53: a commit of 6 events takes one frame. -/
theorem test_commitStart :
    (after .commitStart { waiting with sst := { waiting.sst with queue := [5], startDue := true } }).sst.engine
      = .committing 5 1 := by decide +kernel

/-- A state whose engine is at the end of some work. -/
def engineAt (s : State) (e : Engine) : State := { s with sst := { s.sst with engine := e } }

/-- Worked list load: the page is READY with 5 events and one dropped. -/
theorem test_commitEnd :
    (match ((after .commitEnd (engineAt waiting (.committing 5 0))).pages 5).next with
     | .ready p => (p.events.length, p.dropped)
     | .empty => (0, 0)
     | .loading _ => (0, 0)
     | .committing _ => (0, 0)) = (5, 1) := by decide +kernel

/-- R61: the edit that ran is applied when it completes. -/
theorem test_editComplete :
    ((activeEvents ((after .editComplete (engineAt paged (.editing 5 (.delete 506) 0))).pages 5).active).map Event.id)
      = [501, 502, 503, 505] := by decide +kernel

/-- Worked list load: at local frame 80,001 station now is 4,845,000, and the flip is due; a frame before it is not. -/
theorem test_flipPerform :
    (let s := rig.putPages 5 ⟨none, .ready ⟨2, 17, events5, 1, some 4845000⟩⟩
     (((after (.flipPerform 5) (atWindow s 80001)).pages 5).active, ((after (.flipPerform 5) (atWindow s 80000)).pages 5).active))
      = (some page5, none) := by decide +kernel

/-- R86: the report timer is reloaded with 25 when a report falls due. -/
theorem test_reportTimerExpiry :
    (let t := after .reportTimerExpiry { rig with rpe := { rig.rpe with reportTimer := 0 } }
     (t.rpe.reportTimer, (t.feed .A).tx.sending.isSome)) = (25, true) := by decide +kernel

/-- R88: the waiting report begins when a transmission ends. -/
theorem test_reportTransmitEnd :
    (((after (.reportTransmitEnd .A) (rig.putFeed .A { rig.feed .A with tx := ⟨some rig.formReport, some onAir.formReport⟩ })).feed .A).tx)
      = ⟨some onAir.formReport, none⟩ := by decide +kernel

/-- R74: the feed port is disabled. -/
theorem test_feedEnable : ((after (.feedEnable .A (.formed 1 ⟨1, 0⟩)) rig).feed .B).enabled = false := by decide +kernel

/-- R91: a port whose timer has run out is SILENT. -/
theorem test_feedWatchExpiry :
    (let t := after (.feedWatchExpiry .B) { rig with sup := { rig.sup with watch := ⟨⟨false, 0⟩, ⟨true, 0⟩⟩ } }
     (t.sup.watch.get .B, t.deviceFlag (.feedSilent .B), t.stc.state)) = (⟨false, 0⟩, true, .holdover) := by decide +kernel

/-! ### Supervision -/

/-- The rig with a scanner state. -/
def scanning (x : Scan) : State := { rig with live := { rig.live with scanMask := 0x021 }, sup := { rig.sup with scan := x } }

/-- R95, R9: line 23 is gated and line 22 is not, and a count of 65535 stays. -/
theorem test_presencePulse :
    ((after (.presencePulse 5 23) (scanning (.sequential 5 0 7))).sup.scan, (after (.presencePulse 5 22) (scanning (.sequential 5 0 7))).sup.scan,
      (after (.presencePulse 5 23) (scanning (.sequential 5 0 65535))).sup.scan)
    = (.sequential 5 0 8, .sequential 5 0 7, .sequential 5 0 65535) := by decide +kernel

/-- R100: a count of T is PRESENT. R102: the sweep ends with SCAN-DONE and begins again, as repeat is ON. -/
theorem test_windowEnd :
    (let t := after .windowEnd (scanning (.sequential 5 4096 64))
     ((t.watched 5).run, t.deviceFlag .scanDone, t.sup.scan)) = (some (true, 1), true, .starting false) := by decide +kernel

/-- R98: in a sweep of channels 0 and 5 the window of channel 5 follows that of channel 0; 63 is below T. -/
theorem test_windowEnd_next :
    (let s := scanning (.sequential 0 4096 63)
     let t := after .windowEnd s
     ((t.watched 0).run, t.sup.scan)) = (some (false, 1), .sequential 5 0 0) := by decide +kernel

/-- R98: the sweep opens at the lowest masked channel. -/
theorem test_sweepStart :
    (let s := scanning (.starting true)
     (after .sweepStart { s with live := { s.live with scanMode := .sequential } }).sup.scan) = .sequential 0 0 0 := by decide +kernel

/-- The rig with what SUP keeps of channel 5. -/
def judged (h : Health) (confirm : Nat) : State :=
  rig.putWatched 5 { SupChannel.reset with heard := true, health := h, confirm := confirm, presence := .absent }

/-- R108, R118: FAILED arms the AUTO channel. -/
theorem test_confirmExpiry :
    (let t := after (.confirmExpiry 5) (judged .failing 0)
     ((t.watched 5).health, (t.authority 5).name, t.xps.alarm)) = (.failed, .armed, true) := by decide +kernel

/-- R111, R112: after a reset every channel is disabled, and the accepted key blocks them all. -/
theorem test_keyLevelAccepted :
    (let t := after .keyLevelAccepted { State.reset with sup := { State.reset.sup with key := ⟨false, 8⟩ } }
     (t.sup.key, t.deviceFlag .keyTakeover, channels.all fun c => t.channelFlag .takeoverBlocked c)) = (⟨true, 0⟩, true, true) := by
  decide +kernel

/-! ### Authority -/

/-- R123: at jl the channel is in STANDBY with the live source. -/
theorem test_goToAir :
    (after (.goToAir 5) (atWindow armed5 150010)).authority 5 = .standby ⟨.live, 505, some 12, none, some 200000, 150010⟩ := by
  decide +kernel

/-- R135: at the return point the channel is MAIN. -/
theorem test_returnComplete : (after (.returnComplete 5) (atWindow returning5 150001)).authority 5 = .main := by decide +kernel

/-- Channel 5 in STANDBY with clip 503 planned on player A, CUED. -/
def planned503 : State :=
  onAir.putCue 5 ⟨⟨.cued, .onAir⟩, some .B, some (140001, 585000), [⟨.clip .A [0x53] 0, 503, 162501, some 185001, true⟩], false, false⟩

/-- Worked sequence of chapter 6: at 162,501 clip 503 goes on air, and 505 is planned with its crosspoint to 12 due at 185,001. -/
theorem test_segmentStart :
    (let t := after (.segmentStart 5) (atWindow planned503 162501)
     (t.authority 5, t.xps.pending)) = (.standby ⟨.clip, 503, some 110, some .A, some 185001, 162501⟩, [⟨25, 185001, 12, 5⟩]) := by
  decide +kernel

/-- R126: CANCEL aborts an ARMED channel. -/
theorem test_cancel :
    (answerOf (.cancel .A (.formed 1 5)) armed5, (after (.cancel .A (.formed 1 5)) armed5).authority 5) = (some (.done, []), .main) := by
  decide +kernel

/-- Worked sequence of chapter 6: HOLD from SA. -/
theorem test_hold :
    (answerOf (.hold .A (.formed 1 5)) onAir, (after (.hold .A (.formed 1 5)) onAir).authority 5)
      = (some (.done, []), .held .A air502) := by decide +kernel

/-- Worked sequence of chapter 6: RETURN from SB on a channel held by SA. -/
theorem test_returnToMain_heldElsewhere : ((after (.returnToMain .B (.formed 1 ⟨5, 0⟩)) held5).site .B).answers = [⟨1, 0x29, .heldElsewhere, []⟩] := by
  decide +kernel

/-- R133, R134: RETURN NEXT-BOUNDARY hands back at the segment's end, 162,501, with the crosspoint to main source 45. -/
theorem test_returnToMain :
    (let s := onAir.putWatched 5 { SupChannel.reset with heard := true, health := .good, latestResume := some true }
     (answerOf (.returnToMain .A (.formed 1 ⟨5, 1⟩)) s, (after (.returnToMain .A (.formed 1 ⟨5, 1⟩)) s).xps.pending))
      = (some (.done, [0x00, 0x02, 0x7A, 0xC5]), [⟨25, 162501, 45, 5⟩]) := by decide +kernel

/-- Worked sequence of chapter 6: ROUTE source 200 from the holder. -/
theorem test_route :
    (let t := after (.route .A (.formed 1 ⟨5, 200⟩)) held5
     (t.authority 5, t.xps.pending)) = (.held .A ⟨.routed, 0, some 200, none, none, 150000⟩, [⟨25, 150000, 200, 5⟩]) := by decide +kernel

/-- Worked sequence of chapter 6: RELEASE at 160,000 joins clip 502 at 160,010 with media point 20,009, up to 162,501. -/
theorem test_release :
    (after (.release .A (.formed 1 5)) { held5 with cdu := { held5.cdu with now := 160000 } }).authority 5
      = .armed .lapse ⟨160010, 4925009, .clip [0x50] 20009, 502, some 162501, some (503, 162501), false, some .A⟩ := by decide +kernel

/-- R119: TAKE at 150,000 answers jl 150,010, day 2 06:36:40:09, CLIP, event 502. -/
theorem test_take :
    answerOf (.take .A (.formed 1 5)) paged
      = some (.done, [0x00, 0x02, 0x49, 0xFA, 2, 6, 36, 40, 9, 0, 0x00, 0x00, 0x01, 0xF6]) := by decide +kernel

/-- R120: every channel of the rig is ready, and TAKE ALL answers with all twelve. -/
theorem test_takeAll : answerOf (.takeAll .A 1) rig = some (.done, [0x0F, 0xFF]) := by decide +kernel

/-- R138: CLEAR CHANNEL empties the pages. -/
theorem test_clearChannel : (after (.clearChannel .A (.formed 1 5)) paged).pages 5 = ⟨none, .empty⟩ := by decide +kernel

/-! ### Cues and crosspoints -/

/-- The PLAY of the worked RELEASE, queued. -/
def entry502 : CueEntry := ⟨5, .A, 6, 160000, 160010, .play [0x50] 20009 1 502⟩

/-- Channel 5 ARMED for clip 502 at 160,010, with its PLAY queued. -/
def cueing : State :=
  { paged with
    cdu := { paged.cdu with now := 160000 }
    aut := PerChannel.put paged.aut 5 (.armed .lapse ⟨160010, 4925009, .clip [0x50] 20009, 502, some 162501, some (503, 162501), false, some .A⟩)
    cus := { paged.cus with queue := [entry502] } }

/-- A transaction of that PLAY. -/
def sent (s : State) (p : TxnPhase) : State :=
  { s with cus := { s.cus with queue := [], txn := some ⟨entry502, false, p, 3, .play 6 [0x50] 20009 9⟩ } }

/-- R151: a PLAY taken at its deadline ends its send at 160,001, and its start delay is 9. -/
theorem test_cueTake :
    ((after .cueTake cueing).cus.txn.map fun t => (t.phase, t.message)) = some (.sending false, .play 6 [0x50] 20009 9) := by
  decide +kernel

/-- R153: a PLAY taken a frame after its deadline is late. -/
theorem test_cueTake_late :
    (after .cueTake { cueing with cdu := { cueing.cdu with now := 160001 } }).channelFlag .cueLate 5 = true := by decide +kernel

/-- R151: the end of the send cues the player and places its crosspoint. -/
theorem test_cueSendEnd :
    (let t := after .cueSendEnd (sent cueing (.sending true))
     ((t.cue 5).players.a, t.xps.pending)) = (.cued, [⟨25, 160010, 110, 5⟩]) := by decide +kernel

/-- R152, R195: a reply of another address is discarded, and CUE-OK of address 6 ends the transaction. -/
theorem test_cueReply :
    ((after (.cueReply 7 0) (sent cueing (.awaiting 2))).cus.txn.isSome, (after (.cueReply 6 0) (sent cueing (.awaiting 2))).cus.txn.isSome)
      = (true, false) := by decide +kernel

/-- R195, log 45: CUE-OK that comes while the PLAY is still being sent cues the player and ends the transaction. -/
theorem test_cueReply_sending :
    (let t := after (.cueReply 6 0) (sent cueing (.sending false))
     (t.cus.txn.isSome, (t.cue 5).players.a)) = (false, .cued) := by decide +kernel

/-- R154: a timeout in ARMED retries on the other player by a fresh join. -/
theorem test_cueReplyTimeout :
    ((after .cueReplyTimeout (sent cueing (.awaiting 0))).cus.queue.map fun x => (x.player, x.deadline, x.action))
      = [(.B, 160000, .play [0x50] 20009 2 502)] := by decide +kernel

/-- R157: of two crosspoints due at one destination the later is issued and the other is discarded. -/
theorem test_crosspointIssue :
    (let s := atWindow { rig with xps := { rig.xps with pending := [⟨25, 160009, 7, 5⟩, ⟨25, 160010, 8, 5⟩, ⟨25, 160011, 9, 5⟩] } } 160010
     let t := after .crosspointIssue s
     (t.xps.pending, t.xps.awaiting)) = ([⟨25, 160011, 9, 5⟩], [⟨25, 8, 5, 2⟩]) := by decide +kernel

/-- Channel 5 on air with source 111 issued and awaiting. -/
def awaiting (left : Nat) : State := { onAir with xps := { onAir.xps with awaiting := [⟨25, 111, 5, left⟩] } }

/-- R158, R160: the positive acknowledgement makes TL5 active. -/
theorem test_crosspointAck :
    (let t := after (.crosspointAck 25 111 0) (awaiting 2)
     (t.lastAckOf 25, t.xps.tally[(5 : Channel)], t.tallyLevel 5)) = (some 111, true, some true) := by decide +kernel

/-- R158: a missing acknowledgement sets ROUTE-UNCONFIRMED. -/
theorem test_crosspointAckTimeout :
    (after (.crosspointAckTimeout 25) (awaiting 0)).channelFlag .routeUnconfirmed 5 = true := by decide +kernel

/-! ### Site ports -/

/-- R164: a site frame that fails its check does not reload the silence timer. -/
theorem test_siteFrameCheckFail : ((after (.siteFrameCheckFail .A) rig).site .A).live = false := by decide +kernel

/-- R132: the silence of the holder re-arms the channel, with HOLD-LAPSED. -/
theorem test_siteSilenceExpiry :
    (let t := after (.siteSilenceExpiry .A) (held5.putSite .A { held5.site .A with live := true, timer := 0 })
     ((t.authority 5).name, t.channelFlag .holdLapsed 5, (t.site .A).live)) = (.armed, true, false) := by decide +kernel

/-- A site port SA that is LIVE with some pairs pending and some answers queued. -/
def linked (pairs : List PendingPair) (answers : List Answer) : State :=
  rig.putSite .A { rig.site .A with live := true, timer := 9, pairs := pairs, answers := answers }

/-- R165: an answer goes before every notice. -/
theorem test_answerTransmitBegin :
    ((after (.answerTransmitBegin .A) (linked [⟨4, none, true⟩] [⟨1, 0x38, .done, []⟩])).site .A).sending
      = some (.answer ⟨1, 0x38, .done, []⟩) := by decide +kernel

/-- R177, worked sequence of chapter 8: an URGENT pair goes before a ROUTINE one of a lower kind. -/
theorem test_noticeTransmitBegin :
    (match ((after (.noticeTransmitBegin .A) (linked [⟨12, none, false⟩, ⟨16, some 2, true⟩] [])).site .A).sending with
     | some (.notice n) => some (n.kind, n.channel)
     | some (.answer _) => none
     | none => none) = some (16, some 2) := by decide +kernel

/-- R165: the line is free when a transmission has ended. -/
theorem test_siteTransmitEnd :
    ((after (.siteTransmitEnd .A) (after (.answerTransmitBegin .A) (linked [] [⟨1, 0x38, .done, []⟩]))).site .A).sending = none := by
  decide +kernel

/-- R192: a code outside 20h to 38h is echoed in the answer. -/
theorem test_unknownRequest :
    ((after (.unknownRequest .A 0x01 7) rig).site .A).answers = [⟨7, 0x01, .unknownRequest, []⟩] := by decide +kernel

/-- R169: STATUS begins with the reference state, whether re-phasing is pending, and the offset state. -/
theorem test_status : (answerOf (.status .A (.formed 1 ())) rig).map (fun x => x.2.take 3) = some [0, 0, 1] := by decide +kernel

/-- R168 step 3: channel 12 is refused with NO-CHANNEL; a read of channel 5 is answered. -/
theorem test_channel :
    ((answerOf (.channel .A (.formed 1 12)) rig).map Prod.fst, (answerOf (.channel .A (.formed 1 5)) paged).map Prod.fst)
      = (some .noChannel, some .done) := by decide +kernel

/-- R66: the index at the page's event count is refused; event 503 ends with its effective duration, 22,500. -/
theorem test_eventRead :
    (answerOf (.eventRead .A (.formed 1 ⟨5, 0, 5⟩)) paged,
      (answerOf (.eventRead .A (.formed 1 ⟨5, 0, 2⟩)) paged).map fun x => x.2.reverse.take 4)
    = (some (.badValue, []), some [0xE4, 0x57, 0x00, 0x00]) := by decide +kernel

/-- R169: station now at 150,000 is day 2 06:36:39:24. -/
theorem test_clock : answerOf (.clock .A (.formed 1 ())) rig = some (.done, [1, 1, 2, 6, 36, 39, 24, 0, 0]) := by decide +kernel

/-- R193: 183 flags, three masks and a polarity. -/
theorem test_flags : (answerOf (.flags .A (.formed 1 ())) rig).map (fun x => x.2.length) = some 196 := by decide +kernel

/-- R20: SET TIME of day 2 06:00:00:00 at 150,000 gives O = 4,710,000. -/
theorem test_setTime :
    (after (.setTime .A (.formed 1 ⟨2, 6, 0, 0, 0⟩)) (clockAt 150000 Stc.reset)).stc = ⟨4710000, .set, none, none, 0, none⟩ := by
  decide +kernel

/-- No item of a channel settings record. -/
def noItems : ChannelItems :=
  ⟨none, none, none, none, none, none, none, none, none, none, none, none, none, none, none⟩

/-- R194: K of 1 is clamped to 2. -/
theorem test_configureChannel :
    (let i := Instr.configureChannel .A (.formed 1 ⟨5, { noItems with cueLead := some 1 }⟩)
     ((answerOf i rig).map Prod.fst, ((after i rig).cfg 5).cueLead)) = (some .clamped, 2) := by decide +kernel

/-- R181: the players of a channel cannot share an address. -/
theorem test_configureChannel_address :
    (answerOf (.configureChannel .A (.formed 1 ⟨5, { noItems with addressA := some 18 }⟩)) rig).map Prod.fst = some .badValue := by
  decide +kernel

/-- R10: SW_FIRST of 1 is clamped to 2. -/
theorem test_configureCadence :
    answerOf (.configureCadence .A (.formed 1 ⟨none, some 1, none, none⟩)) rig = some (.clamped, [0, 2, 9]) := by decide +kernel

/-- R10 step 2: with a channel off MAIN the window is locked. -/
theorem test_configureCadence_locked :
    answerOf (.configureCadence .A (.formed 1 ⟨none, some 7, none, some 0⟩)) onAir = some (.locked, []) := by decide +kernel

/-- R170: a REPLY_TIMEOUT of 9 is clamped to 8. -/
theorem test_configurePorts :
    answerOf (.configurePorts .A (.formed 1 ⟨none, none, none, some 9⟩)) rig = some (.clamped, [0, 50, 2, 0, 250, 8]) := by decide +kernel

/-- R96: a mask with bit 12 is refused. -/
theorem test_configureScan :
    answerOf (.configureScan .A (.formed 1 ⟨none, none, none, some 0x1000⟩)) rig = some (.badValue, []) := by decide +kernel

/-- R97: SCAN START with an empty mask is refused with NOT-READY. -/
theorem test_scanStart : answerOf (.scanStart .A (.formed 1 ())) rig = some (.notReady, []) := by decide +kernel

/-- R103: SCAN STOP ends the sweep without SCAN-DONE. -/
theorem test_scanStop :
    (let t := after (.scanStop .A (.formed 1 ())) (scanning (.sequential 5 10 3))
     (t.sup.scan, t.deviceFlag .scanDone)) = (.idle, false) := by decide +kernel

/-- R173: AUTHORITY-CHANGE of channel 5 is cleared. -/
theorem test_clearFlags :
    (let s := after (.hold .A (.formed 1 5)) onAir
     (s.channelFlag .authorityChange 5, (after (.clearFlags .A (.formed 2 [⟨17, 5⟩])) s).channelFlag .authorityChange 5))
      = (true, false) := by decide +kernel

/-- R174, R192: bit 0 is no kind. -/
theorem test_setNoticeMask :
    (((after (.setNoticeMask .A (.formed 1 0x00020000)) rig).site .A).mask, answerOf (.setNoticeMask .A (.formed 1 1)) rig)
      = (0x00020000, some (.badValue, [])) := by decide +kernel

/-- R178: adding a kind whose flag is set makes ALM active at that instant. -/
theorem test_setAlarmMask :
    (after (.setAlarmMask .A (.formed 1 ⟨0x00020000, none⟩)) (after (.hold .A (.formed 1 5)) onAir)).xps.alarm = true := by decide +kernel

/-- R182, R183: on factory defaults the first SAVE writes bank 0 with generation 1, for 50 frame starts. -/
theorem test_save :
    ((after (.save .A (.formed 1 ())) rig).store.save.map fun j => (j.bank, j.content.generation, j.left)) = some (.A, 1, 50) := by
  decide +kernel

/-- R183: a bank that reads back as it was written becomes current. -/
theorem test_saveComplete :
    (let s := { rig with store := { rig.store with save := some ⟨.A, ⟨1, storeImage rig.live⟩, 0⟩ } }
     ((after (.saveComplete (some ⟨1, storeImage rig.live⟩)) s).store.current, (after (.saveComplete none) s).store.outcome)) = (some .A, .failed) := by
  decide +kernel

/-- R166, R170: KEEPALIVE reloads the silence timer with 250. -/
theorem test_keepalive : ((after (.keepalive .A (.formed 1 ())) rig).site .A).timer = 250 := by decide +kernel

/-! ### The queue -/

/-- A step runs the front command on the rest of the queue. -/
theorem test_step :
    step { rig with pending := [.keepalive .A (.formed 1 ()), .resetEnd] }
      = exec (.keepalive .A (.formed 1 ())) { rig with pending := [.resetEnd] } := rfl

/-! ## Witnesses: for each statement with hypotheses, a concrete state that meets them, clause by clause

Where a statement has several clauses, the theorem gives one input for each, at the boundary where they meet. -/

theorem witness_EveryCommandCompletes :
    (after .powerOnReset onAir).power = .held ∧ Instr.keepalive .A (.formed 1 ()) ≠ .resetEnd := by decide +kernel

theorem witness_EachCommandChangesOnlyItsParts :
    exec (.hold .A (.formed 1 5)) onAir = .next (after (.hold .A (.formed 1 5)) onAir)
      ∧ (after (.hold .A (.formed 1 5)) onAir).authority 5 ≠ onAir.authority 5 := ⟨rfl, by decide +kernel⟩

/-- Channel 5 on air with source 111 acknowledged on its destination, its tally active, and a command waiting. -/
def confirmed : State := { after (.crosspointAck 25 111 0) (awaiting 2) with pending := [.hold .A (.formed 1 5)] }

theorem witness_TalliesStayRight :
    confirmed.TallyLaw ∧ confirmed.xps.tally[(5 : Channel)] = true ∧ (∃ t, step confirmed = .next t)
      ∧ confirmed.power = .running := by
  refine ⟨?_, by decide +kernel, ⟨_, rfl⟩, by decide +kernel⟩
  unfold State.TallyLaw
  decide +kernel

/-- Channel 5 FAILED, so that ALM is active. -/
def alarmed : State := { after (.confirmExpiry 5) (judged .failing 0) with pending := [.clearFlags .A (.formed 1 [])] }

theorem witness_AlarmStaysRight :
    alarmed.AlarmLaw ∧ alarmed.xps.alarm = true ∧ (∃ t, step alarmed = .next t) ∧ alarmed.power = .running := by
  refine ⟨?_, by decide +kernel, ⟨_, rfl⟩, by decide +kernel⟩
  unfold State.AlarmLaw
  decide +kernel

/-- Channel 4 configured with the destination of channel 5, which is on air. -/
def shared : State := { onAir.putCfg 4 { rigCfg 4 with destination := 25 } with pending := [.take .A (.formed 1 4)] }

theorem witness_DestinationsStayApart :
    shared.DestinationsApart ∧ (∃ t, step shared = .next t) ∧ shared.isMain 5 = false
      ∧ (shared.cfg 4).destination = (shared.cfg 5).destination ∧ shared.readyAlone 4 = true := by
  refine ⟨?_, ⟨_, rfl⟩, by decide +kernel, by decide +kernel, by decide +kernel⟩
  unfold State.DestinationsApart
  decide +kernel

/-- Both queues of port A full, two segments planned, and two pairs pending on SA. -/
def full : State :=
  let f : QueuedFrame := ⟨1, .replication 5 1 .listAbort⟩
  let a : Answer := ⟨1, 0x38, .done, []⟩
  let s := (onAir.putFeed .A { onAir.feed .A with queue := [f, f] }).putSite .A { onAir.site .A with
    answers := [a, a, a, a], mask := 0x00011000, pairs := [⟨12, none, false⟩, ⟨16, some 2, true⟩] }
  { s.putCue 5 ⟨⟨.idle, .onAir⟩, some .B, none, [⟨.fill, 503, 162501, some 162600, false⟩, ⟨.fill, 503, 162600, none, false⟩], false, false⟩ with
    pending := [.listAbort] }

theorem witness_QueuesStayWithinRoom :
    full.QueuesFit ∧ full.PlansFit ∧ full.PairsRanked ∧ (full.feed .A).queue.length = 2 ∧ (full.site .A).answers.length = 4
      ∧ (full.site .A).pairs.length = 2 ∧ ∃ t, step full = .next t := by
  refine ⟨⟨fun p => by cases p <;> decide +kernel, fun p => by cases p <;> decide +kernel⟩, ?_, fun p => by cases p <;> decide +kernel,
    by decide +kernel, by decide +kernel, by decide +kernel, _, rfl⟩
  unfold State.PlansFit
  decide +kernel

theorem events5_resolved : resolvedWell .f25 events5 := by
  refine ⟨by decide, by decide, ?_, by simp [events5, ev], by decide⟩
  intro e he
  simp only [events5, List.mem_cons, List.not_mem_nil, or_false] at he
  rcases he with rfl | rfl | rfl | rfl | rfl <;>
    exact ⟨by decide, _, rfl, by decide, by decide, by decide, by simp [ev, Event.hardRel]⟩

theorem paged_pages_ne (c : Channel) (h : c ≠ 5) : paged.pages c = ⟨none, .empty⟩ := by
  revert c
  decide +kernel

theorem witness_PagesStayOrderedAndWithinRoom :
    paged.EventsFit ∧ paged.PagesSound ∧ ∃ t, step { paged with pending := [.clearChannel .A (.formed 1 5)] } = .next t := by
  refine ⟨by unfold State.EventsFit; decide +kernel, ?_, _, rfl⟩
  intro c
  by_cases h : c = 5
  · subst h
    exact ⟨fun p hp => (Option.some.inj hp : page5 = p) ▸ events5_resolved, trivial⟩
  · rw [paged_pages_ne c h]
    exact ⟨fun p hp => (nomatch hp), trivial⟩

theorem witness_SettingsAndOffsetStayLegal :
    rig.SettingsLegal ∧ (clockAt 9 ⟨15119999, .locked, none, none, 0, none⟩).OffsetLegal
      ∧ (let s := { clockAt 9 ⟨18143999, .set, none, none, 0, none⟩ with
           cdu := { rig.cdu with frame := ⟨.f30n, 7, 9⟩ }, pending := [.frameStart false] }
         s.OffsetLegal ∧ wf s.live.format ≤ s.stc.offset ∧ ∃ t, step s = .next t) := by
  refine ⟨?_, ?_, ?_, by decide +kernel, _, rfl⟩
  · unfold State.SettingsLegal
    decide +kernel
  all_goals
    unfold State.OffsetLegal
    decide +kernel

/-- The PLAY of the worked RELEASE, waiting to be taken with its channel ARMED for its clip, and a CANCEL of channel 3 due. -/
def cueQueue : State :=
  { cueing with cus := { cueing.cus with queue := [⟨3, .B, 16, 160000, 160000, .cancel⟩, entry502] }, pending := [.cueTake] }

theorem cueQueue_law (c : Channel) : cueQueue.CueLawOf c where
  shape := by
    refine ⟨?_, .inl (by revert c; decide +kernel)⟩
    by_cases h : c = 5
    · subst h
      exact ⟨by decide +kernel, by decide +kernel⟩
    · have h : cueQueue.authority c = .main := by revert c; decide +kernel
      rw [h]
      show (cueQueue.cue c).planned = []
      revert c
      decide +kernel
  onePlay := by revert c; decide +kernel
  playExpected x hx := by
    have h : c = 5 ∧ x = entry502 := by revert x c; decide +kernel
    obtain ⟨rfl, rfl⟩ := h
    exact ⟨by decide +kernel, by decide +kernel, fun k hk => nomatch (hk : none = some k)⟩
  oneObligation := by revert c; decide +kernel
  noneBesideTxn k hk := nomatch (hk : none = some k)
  cuedExpected p hp := absurd hp (by clear hp; revert c; cases p <;> decide +kernel)

theorem witness_CueQueueStaysOrderedAndWithinRoom :
    cueQueue.CueLaw ∧ cueQueue.CuesNear ∧ cueQueue.cus.queue.length = 2
      ∧ ∃ t, step cueQueue = .next t ∧ t.CuesNear ∧ t.cus.txn.isSome = true := by
  refine ⟨⟨by decide +kernel, by decide +kernel, cueQueue_law⟩, ?_, by decide +kernel, _, rfl, ?_, by decide +kernel⟩ <;>
  · unfold State.CuesNear nearFrames
    decide +kernel

/-! ### Chapter 1 -/

/-- The rig with a Cadence Unit. -/
def cadence (c : Cdu) : State := { rig with cdu := c }

theorem witness_PulsesQualifyTheReference :
    (let s := cadence { rig.cdu with refLine := some 625, qualifying := 23 }
     s.power = .running ∧ s.cdu.refState = .acquiring ∧ s.cdu.refLine = some s.cdu.frame.lines ∧ s.cdu.qualifying < 24)
    ∧ (let s := cadence { rig.cdu with refLine := some 625, qualifying := 24 }
       s.cdu.refState = .acquiring ∧ s.cdu.refLine = some s.cdu.frame.lines ∧ s.cdu.qualifying = 24)
    ∧ (let s := cadence { rig.cdu with refLine := some 624 }
       s.cdu.refState = .acquiring ∧ s.cdu.refLine ≠ some s.cdu.frame.lines)
    ∧ (let s := cadence { rig.cdu with refState := .freerun }
       s.power = .running ∧ s.cdu.refState = .freerun) := by decide +kernel

theorem witness_LossOfReferenceRunsFree :
    locked.power = .running ∧ locked.cdu.refState = .locked ∧ (∃ n, locked.cdu.refLine = some n ∧ n ≠ locked.cdu.frame.lines)
      ∧ locked.cdu.refLine.isSome ∧ locked.cdu.adjust = .none ∧ locked.cdu.rephaseDue = false :=
  ⟨rfl, rfl, ⟨300, rfl, by decide +kernel⟩, rfl, rfl, rfl⟩

/-- R4, R6: lost in a stretched frame, at the end of a line L at which re-phasing was due, and in a frame that is cut. -/
theorem witness_LossOfReferenceRunsFree_adjusted :
    (let s := cadence { locked.cdu with phase := .pending, adjust := .stretching, line := 700 }
     s.power = .running ∧ s.cdu.refState = .locked ∧ s.cdu.refLine.isSome ∧ s.cdu.adjust = .stretching)
    ∧ (let s := cadence { locked.cdu with phase := .pending, rephaseDue := true, line := 625 }
       s.cdu.rephaseDue = true ∧ s.cdu.refLine.isSome)
    ∧ (let s := cadence { locked.cdu with phase := .pending, adjust := .cutting, line := 1 }
       s.cdu.adjust ≠ .stretching ∧ s.cdu.rephaseDue = false) := by decide +kernel

/-- R6: an in-place frame pulse in a stretched frame, in the first line of a frame that is cut, while the decision at the end of line L is
due, and with the phase pending and nothing to end. -/
theorem witness_AlignedTimingFollowsPulses_adjusted :
    (∀ k ∈ [{ locked.cdu with adjust := .stretching, line := 626 }, { locked.cdu with adjust := .cutting, line := 1 },
        { locked.cdu with rephaseDue := true, line := 625 }],
      let s := cadence { k with phase := .pending, refLine := some 625 }
      s.power = .running ∧ s.cdu.refState = .locked ∧ s.cdu.refLine = some s.cdu.frame.lines
        ∧ (s.cdu.adjust = .stretching ∨ s.cdu.adjust = .cutting ∨ s.cdu.phase = .pending ∧ s.cdu.rephaseDue = true))
    ∧ (let s := cadence { locked.cdu with phase := .pending, refLine := some 625 }
       s.cdu.phase = .pending ∧ s.cdu.refLine = some s.cdu.frame.lines ∧ s.cdu.adjust = .none ∧ s.cdu.rephaseDue = false) := by
  decide +kernel

theorem witness_AlignedTimingFollowsPulses :
    (let s := cadence { locked.cdu with line := 624, refLine := some 625 }
     s.power = .running ∧ s.cdu.refState = .locked ∧ s.cdu.phase = .aligned ∧ s.cdu.adjust = .none ∧ s.cdu.frameDue = false
       ∧ s.cdu.rephaseDue = false ∧ s.cdu.line < s.cdu.frame.lines ∧ s.cdu.refLine = some s.cdu.frame.lines ∧ s.cdu.line ≠ 1) := by
  decide +kernel

theorem witness_RePhasingIsDecidedAtLineEnd :
    (let s := cadence { locked.cdu with phase := .pending, line := 625 }
     s.power = .running ∧ s.cdu.refState = .locked ∧ s.cdu.phase = .pending ∧ s.cdu.adjust = .none ∧ s.cdu.quietStart = true
       ∧ (∀ c, (s.authority c).busy = false) ∧ 312 ≤ s.cdu.frame.lines / 2 ∧ s.cdu.frame.lines / 2 < 313)
    ∧ (let s := { armed5 with cdu := { locked.cdu with phase := .pending, line := 625 } }
       s.cdu.quietStart = true ∧ 312 ≤ s.cdu.frame.lines / 2 ∧ ∃ c, (s.authority c).busy = true)
    ∧ (let s := cadence { locked.cdu with phase := .pending, quietStart := false }
       s.cdu.phase = .pending ∧ s.cdu.quietStart = false) := by
  refine ⟨by decide +kernel, ⟨by decide +kernel, by decide +kernel, 5, by decide +kernel⟩, by decide +kernel⟩

theorem witness_FrameStartAdvancesEveryCount : rig.power = .running := rfl

theorem witness_WindowOpensOncePerFrame :
    (rig.power = .running ∧ rig.cdu.windowOpened = false)
      ∧ (after .switchWindowEvent rig).power = .running ∧ (after .switchWindowEvent rig).cdu.windowOpened = true := by decide +kernel

theorem witness_StationNowRunsOnAcrossTheWrap :
    (let s := clockAt 4294967295 { rig.stc with turn := some 4294967044 }
     s.power = .running ∧ s.cdu.wrapDue = false ∧ s.cdu.now = 4294967295 ∧ s.stc.turn = some 4294967044
       ∧ 250 < (s.cdu.now - 4294967044).toNat)
    ∧ (let s := clockAt 825 { rig.stc with turn := some 575 }
       s.stc.turn = some 575 ∧ (s.cdu.now - 575).toNat ≤ 250) := by decide +kernel

/-- A heartbeat of the worked slewing at local frame 1000, whose measured offset is the stamp less 998. -/
def beatAt (stc : Stc) (stamp : BitVec 32) : State := feeding (clockAt 1000 stc) (beat stamp)

/-- The heartbeat that `beat` carries. -/
def beatOf (stamp : BitVec 32) : Heartbeat := ⟨stamp, 0, PerChannel.same ⟨.ok, true, 0⟩⟩

/-- The signed error of that heartbeat against the offset. -/
def errorOf (s : State) (stamp : Nat) : Int := stationSigned s.live.format (measuredOffset s stamp 1000) s.stc.offset

theorem witness_HeartbeatMovesTheOffset :
    (takesNext (beatAt Stc.reset 1998) .A ⟨1000, .heartbeat (beatOf 1998)⟩ ∧ (beatOf 1998).format.toNat = formatCode rig.live.format
      ∧ (beatAt Stc.reset 1998).stc.state = .unset)
    ∧ (takesNext (beatAt ⟨1000, .locked, some .down, some 900, 2, some 1026⟩ 1998) .A ⟨1000, .heartbeat (beatOf 1998)⟩)
    ∧ errorOf (beatAt ⟨1000, .locked, none, none, 0, none⟩ 1998) 1998 = 0
    ∧ errorOf (beatAt ⟨1000, .locked, some .down, some 900, 0, none⟩ 2023) 2023 = 25
    ∧ errorOf (beatAt ⟨1000, .holdover, some .up, some 900, 0, none⟩ 1973) 1973 = -25
    ∧ errorOf (beatAt ⟨1000, .locked, none, none, 2, some 1025⟩ 2024) 2024 = 26
    ∧ (stationSigned .f25 (measuredOffset (beatAt ⟨1000, .locked, none, none, 2, some 1025⟩ 2024) 2024 1000) 1025).natAbs ≤ 1
    ∧ 1 < (stationSigned .f25 (measuredOffset (beatAt ⟨1000, .locked, none, none, 2, some 1024⟩ 2024) 2024 1000) 1024).natAbs := by
  unfold takesNext
  decide +kernel

/-- A heartbeat of this format code and on-air event id waits on FA, with channel 5's page loaded. -/
def onAirBeat (format : Byte) (id : EventId) : State := feeding paged (.heartbeat ⟨7, format, PerChannel.same ⟨.fault, true, id⟩⟩)

/-- R82, R84, R85: another format's heartbeat, one whose on-air id channel 5's page holds, and one whose id it does not. -/
theorem witness_HeartbeatMovesTheOffset_taken :
    ∀ x ∈ [((1 : Byte), (501 : EventId)), (0, 501), (0, 99)],
      takesNext (onAirBeat x.1 x.2) .A ⟨paged.now, .heartbeat ⟨7, x.1, PerChannel.same ⟨.fault, true, x.2⟩⟩⟩ := by
  intro x _
  exact ⟨rfl, rfl, fun _ => rfl, .inl rfl, rfl⟩

/-- R85: a channel in MAIN with such a page and no READY one, and a channel with an EMPTY page. -/
theorem witness_HeartbeatMovesTheOffset_items :
    (1 : Byte).toNat ≠ formatCode paged.live.format ∧ (0 : Byte).toNat = formatCode paged.live.format
    ∧ (paged.pages 5).active = some page5 ∧ paged.isMain 5 = true ∧ (∃ e ∈ page5.events, e.id = 501)
    ∧ (∀ e ∈ page5.events, e.id ≠ 99) ∧ (paged.pages 5).next = .empty ∧ (paged.pages 4).active = none
    ∧ (paged.cfg 5).enabled = true ∧ (paged.watched 5).heard = false := by
  decide +kernel

/-! ### Requests of a site port -/

/-- A page that is LOADING beside channel 5's active page. -/
def loadingToo : State := rig.putPages 5 ⟨some page5, .loading loading5⟩

theorem witness_ReadsAnswerAndChangeNothing :
    canTake loadingToo .A ∧ (5 : Byte).toNat = (5 : Channel).val ∧ (loadingToo.pages 5).active = some page5
      ∧ (page5.events[(4 : BitVec 16).toNat]?).isSome ∧ (activeEvents (loadingToo.pages 5).active).length ≤ (5 : BitVec 16).toNat
      ∧ (loadingToo.pages 5).next.events.length ≤ (1 : BitVec 16).toNat := by
  unfold canTake
  decide +kernel

theorem witness_RefusedRequestsChangeNothing :
    canTake rig .A ∧ (Instr.status .A (.malformed 9), 0x20) ∈ malformedRequests .A 9 ∧ 11 < (12 : Byte).toNat ∧ (12 : Byte) ≠ 0xFF
      ∧ 11 < (0xFE : Byte).toNat ∧ (0xFE : Byte) ≠ 0xFF
      ∧ (full.power = .running ∧ (full.site .A).answers.length = 4 ∧ IsRequest .A (.takeAll .A 1)) := by
  unfold canTake
  exact ⟨by decide +kernel, by decide, by decide, by decide, by decide, by decide, by decide +kernel, by decide +kernel, .takeAll 1⟩

theorem witness_SetTimeSetsTheOffset :
    (canTake rig .A ∧ rig.stc.state = .locked)
    ∧ (canTake (clockAt 9 Stc.reset) .B ∧ (clockAt 9 Stc.reset).stc.state = .unset
        ∧ (stageA .f25 (labelOf ⟨6, 23, 59, 59, 24⟩)).isSome ∧ stageA .f25 (labelOf ⟨6, 23, 59, 59, 25⟩) = none) := by
  unfold canTake
  decide +kernel

/-! ### Chapter 2 -/

theorem witness_StageAInvertsStageB :
    15119999 < wf .f25 ∧ 18125855 < wf .f30d ∧ (stageB .f30d 1800).mm % 10 ≠ 0 ∧ (stageB .f30d 1800).ss = 0 := by decide

theorem witness_StageAConvertsLabelsInRange :
    (stageA .f30d ⟨6, 23, 59, 59, 29⟩).isSome ∧ (stageA .f30d ⟨0, 0, 1, 0, 1⟩).isSome ∧ (stageA .f25 ⟨0, 0, 0, 0, 25⟩).isSome = false := by
  decide

theorem witness_JoinIsPlacedBySendEstimate :
    (cueing.pages 5).active = some page5
      ∧ (cueing.cus.queue.length + 0) * (1 + cueing.live.replyTimeout) + (cueing.cfg 5).cueLead < 4294967296 := by decide +kernel

theorem events3_inSpan : ∀ e ∈ events3, ∃ r, e.res = some r ∧ r.start < 3 * fpd .f30d := by
  intro e he
  simp only [events3, List.mem_cons, List.not_mem_nil, or_false] at he
  rcases he with rfl | rfl | rfl | rfl <;> exact ⟨_, rfl, by decide⟩

theorem events3_resolved : resolvedWell .f30d events3 := by
  refine ⟨by decide, by decide, ?_, by simp [events3, ev], by decide⟩
  intro e he
  simp only [events3, List.mem_cons, List.not_mem_nil, or_false] at he
  rcases he with rfl | rfl | rfl | rfl <;>
    exact ⟨by decide, _, rfl, by decide, by decide, by decide, by simp [ev, Event.hardRel]⟩

/-- An event covers a position of the page of chapter 2: clip 7001 at its start and 1,375 frames past it, with 425 frames to go; live
7003, 312 frames past its start; and NO-JOIN 7004, the last, at its start and past it. -/
theorem witness_PositionsGiveTheirSegments_covered :
    (resolvedWell .f30d events3 ∧ events3.length = 4)
    ∧ (∃ r, (events3[0]).res = some r ∧ r.start = 1510488 ∧ r.start ≤ 1511863 ∧ 1511863 < r.start + r.dur
        ∧ (events3[0]).kind = .clip [1] 120 ∧ (events3[0]).policy = .join ∧ max 50 1 ≤ r.start + r.dur - 1511863)
    ∧ (∃ r, (events3[0]).res = some r ∧ ¬ max 50 1 ≤ r.start + r.dur - 1512239 ∧ 1512239 < r.start + r.dur)
    ∧ (∃ r, (events3[2]).res = some r ∧ r.start ≤ 1513500 ∧ 1513500 < r.start + r.dur ∧ (events3[2]).kind = .live 41
        ∧ (events3[2]).policy = .join)
    ∧ (∃ r, (events3[3]).res = some r ∧ r.start = 1514086 ∧ (events3[3]).policy = .noJoin ∧ r.start < 1514087
        ∧ 1514087 < r.start + r.dur) :=
  ⟨⟨events3_resolved, rfl⟩, ⟨_, rfl, by decide⟩, ⟨_, rfl, by decide⟩, ⟨_, rfl, by decide⟩, _, rfl, by decide⟩

/-- A lookup on the page of channel 5 through its anchor at 140,001, before it and at and after it. -/
theorem witness_PositionsGiveTheirSegments_lookup :
    (onAir.cue 5).anchor = some (140001, 585000) ∧ (onAir.pages 5).active = some page5
      ∧ ((140000 : LocalFrame) - 140001).toNat ≠ 2147483648 ∧ ((140001 : LocalFrame) - 140001).toNat ≠ 2147483648
      ∧ ((162501 : LocalFrame) - 140001).toNat ≠ 2147483648 := by decide +kernel

theorem witness_PositionsGiveTheirSegments :
    (placeOn .f30d (max 50 1) events3 1511743).content = .clip [1] 1375
    ∧ (∀ e ∈ events3, ∃ r, e.res = some r ∧ r.start < 3 * fpd .f30d)
    ∧ (∀ e ∈ events3, ∀ r, e.res = some r → ¬(r.start ≤ 1513788 ∧ 1513788 < r.start + r.dur))
    ∧ (∀ e ∈ events3, ∀ r, e.res = some r → ¬(r.start ≤ 1517086 ∧ 1517086 < r.start + r.dur))
    ∧ (placeOn .f30d (max 50 1) events3 1513788).next = some (7004, 298)
    ∧ 1517086 < wf .f30d ∧ 6 * fpd .f30d < wf .f30d := by
  refine ⟨by decide +kernel, events3_inSpan, ?_, ?_, by decide +kernel, by decide, by decide⟩ <;>
  · intro e he r hr
    simp only [events3, List.mem_cons, List.not_mem_nil, or_false] at he
    rcases he with rfl | rfl | rfl | rfl <;> cases hr <;> decide

/-! ### Chapter 3 -/

/-- The frame that `feeding` puts at the head of FA's queue. -/
def headOf (s : State) (f : FeedFrame) : QueuedFrame := ⟨s.now, f⟩

/-- A state in which FA's head is a replication frame of channel 5, numbered 1. -/
def sends (s : State) (b : FeedBody) : State := feeding s (.replication 5 1 b)

/-- A READY page with a flip. -/
def readyFlip : State := rig.putPages 5 ⟨some page5, .ready ⟨2, 18, events5, 0, some 4845000⟩⟩

theorem witness_ListBeginOpensALoadingPage :
    (takesNext (sends readyFlip (.listBegin 18 2 6)) .A (headOf rig (.replication 5 1 (.listBegin 18 2 6)))
      ∧ acceptedNumber (sends readyFlip (.listBegin 18 2 6)) 5 1 ∧ (readyFlip.pages 5).next.flip.isSome)
    ∧ (takesNext (sends rig (.listBegin 18 7 0)) .A (headOf rig (.replication 5 1 (.listBegin 18 7 0))) ∧ (rig.pages 5).next.flip = none) := by
  unfold takesNext acceptedNumber
  decide +kernel

/-- Channel 5 LOADING, with a page. -/
def loads (g : LoadPage) : State := rig.putPages 5 ⟨none, .loading g⟩

/-- Record 505 of the worked list with a start of a day and hour. -/
def record505 (day hh : Byte) : EventRecord := ⟨505, 0, 1, 0, 90000, some ⟨day, hh, 0, 0, 0⟩, none, some 12, []⟩

theorem witness_EventJoinsTheLoadingPage :
    (let s := sends (loads loading5) (.event (record505 2 7))
     takesNext s .A (headOf rig (.replication 5 1 (.event (record505 2 7)))) ∧ acceptedNumber s 5 1 ∧ s.slotsUsed < 6144)
    ∧ (loads loading5).pages 5 = ⟨none, .loading loading5⟩ ∧ loading5.broken = false
    ∧ (formEvent .f25 2 (record505 2 7)).map Event.hardRel = some (some 630000)
    ∧ (formEvent .f25 2 (record505 2 6)).map Event.hardRel = some (some 540000)
    ∧ (formEvent .f25 2 (record505 2 5)).map Event.hardRel = some (some 450000)
    ∧ (formEvent .f25 2 (record505 5 0)).map Event.hardRel = some (some (3 * fpd .f25))
    ∧ formEvent .f25 2 (record505 7 0) = none
    ∧ ((loading5.events.filter Event.isHard).getLast?.map Event.hardRel = some (some 540000)) := by
  unfold takesNext acceptedNumber
  decide +kernel

/-- R44, R191: a HARD record whose start stage A accepts, and one in F30D whose start it adjusts; one with a day above 6, and one without an
event id. -/
theorem witness_EventJoinsTheLoadingPage_record :
    recordGood .f25 (record505 2 7)
    ∧ (let r : EventRecord := { record505 2 7 with start := some ⟨2, 7, 1, 0, 0⟩ }
       recordGood .f30d r ∧ (stageA .f30d ⟨2, 7, 1, 0, 0⟩).map (fun a => a.adjusted) = some true)
    ∧ ¬ recordGood .f25 (record505 7 0) ∧ ¬ recordGood .f25 { record505 2 7 with id := 0 } := by
  refine ⟨⟨by decide, by decide, by decide, by decide, by decide, fun _ => ⟨_, _, rfl, rfl⟩, by decide, by decide, by decide, by decide⟩,
    ⟨⟨by decide, by decide, by decide, by decide, by decide, fun _ => ⟨_, _, rfl, rfl⟩, by decide, by decide, by decide, by decide⟩,
      by decide +kernel⟩, fun h => ?_, fun h => h.1 rfl⟩
  obtain ⟨x, a, hx, ha⟩ := h.2.2.2.2.2.1 rfl
  cases hx
  exact nomatch (show none = some a from ha)

theorem witness_ListEndAndAbortCloseTheLoadingPage :
    (let s := sends (loads loading5) (.listEnd 17 1)
     takesNext s .A (headOf rig (.replication 5 1 (.listEnd 17 1))) ∧ acceptedNumber s 5 1 ∧ (s.pages 5).next = .loading loading5
       ∧ loading5.broken = false ∧ (17 : BitVec 16) = loading5.serial ∧ (1 : BitVec 16).toNat = loading5.declared
       ∧ loading5.events.length = loading5.declared ∧ (∀ e ∈ loading5.events.head?, e.isHard = true))
    ∧ (let s := sends (loads loading5) (.listEnd 16 1)
       takesNext s .A (headOf rig (.replication 5 1 (.listEnd 16 1))) ∧ (16 : BitVec 16) ≠ loading5.serial)
    ∧ (let s := sends (loads loading5) .listAbort
       takesNext s .A (headOf rig (.replication 5 1 .listAbort)) ∧ (s.pages 5).next = .loading loading5)
    ∧ (let s := sends rig .listAbort
       takesNext s .A (headOf rig (.replication 5 1 .listAbort)) ∧ acceptedNumber s 5 1 ∧ (s.pages 5).next = .empty) := by
  unfold takesNext acceptedNumber
  decide +kernel

theorem witness_FlipIsRecordedOrMissed :
    (let s := sends (loads loading5) (.flip ⟨2, 5, 50, 0, 0⟩)
     takesNext s .A (headOf rig (.replication 5 1 (.flip ⟨2, 5, 50, 0, 0⟩))) ∧ acceptedNumber s 5 1
       ∧ (stageA s.live.format (labelOf ⟨2, 5, 50, 0, 0⟩)).isSome ∧ (s.pages 5).next ≠ .empty)
    ∧ (let s := sends rig (.flip ⟨2, 5, 50, 0, 0⟩)
       takesNext s .A (headOf rig (.replication 5 1 (.flip ⟨2, 5, 50, 0, 0⟩))) ∧ (s.pages 5).next = .empty)
    ∧ stageA .f25 (labelOf ⟨7, 5, 50, 0, 0⟩) = none := by
  unfold takesNext acceptedNumber
  decide +kernel

/-- Channel 5 with its active and a LOADING page, and a baseline. -/
def numbered (n : SeqNo) : State :=
  { loadingToo with rpe := { loadingToo.rpe with baseline := PerChannel.put loadingToo.rpe.baseline 5 (some n) } }

theorem witness_SequenceNumbersGateFrames :
    (let s := sends (numbered 1) (.event record501)
     takesNext s .A (headOf rig (.replication 5 1 (.event record501))) ∧ s.rpe.baseline[(5 : Channel)] = some 1 ∧ (1 : SeqNo) - 1 = 0)
    ∧ (let s := sends (numbered 32769) .listAbort
       takesNext s .A (headOf rig (.replication 5 1 .listAbort)) ∧ s.rpe.baseline[(5 : Channel)] = some 32769
         ∧ 32768 ≤ ((1 : SeqNo) - 32769).toNat)
    ∧ (let s := sends (numbered 65535) (.event record501)
       takesNext s .A (headOf rig (.replication 5 1 (.event record501))) ∧ s.rpe.baseline[(5 : Channel)] = some 65535
         ∧ 2 ≤ ((1 : SeqNo) - 65535).toNat ∧ (s.pages 5).active = some page5 ∧ (s.pages 5).next = .loading loading5)
    ∧ ((1 : SeqNo) - 32770).toNat = 32767 := by
  unfold takesNext
  decide +kernel

/-- The gap frames of the other kinds, two ahead of a baseline of 65535, that head the queue. -/
theorem witness_SequenceNumbersGateFrames_gap :
    ∀ b ∈ [FeedBody.listBegin 18 2 6, .listEnd 17 1, .listAbort, .flip ⟨2, 5, 50, 0, 0⟩, .edit (.delete 505)],
      takesNext (sends (numbered 65535) b) .A (headOf rig (.replication 5 1 b))
        ∧ (sends (numbered 65535) b).rpe.baseline[(5 : Channel)] = some 65535
        ∧ ((sends (numbered 65535) b).pages 5).next = .loading loading5 := by
  unfold takesNext
  decide +kernel

theorem witness_ResolutionKeepsEventsApart : hardsInOrder raw5 = true := by decide

/-- A list that runs past the span: a FOLLOW after a HARD event that ends at 3·FPD. -/
def overrun : LoadPage :=
  ⟨2, 17, 2, [⟨1, .hard ⟨4, 0, 0, 0, 0⟩ 4320000, 2160000, .fill, .join, false, none⟩, ⟨2, .follow, 10, .fill, .join, false, none⟩],
    false, some 1⟩

theorem witness_CommitRunsAndResolves :
    (let s := { waiting with sst := { waiting.sst with queue := [5], startDue := true } }
     s.power = .running ∧ s.sst.engine = .idle ∧ s.sst.startDue = true ∧ s.sst.queue = [5])
    ∧ (let s := engineAt waiting (.committing 5 0)
       s.sst.engine = .committing 5 0 ∧ (s.pages 5).next = .committing { loading5 with events := raw5 }
         ∧ (∀ e ∈ (resolveFrom 0 raw5).1, ∀ r ∈ e.res, r.start < 3 * fpd .f25))
    ∧ (let s := engineAt (rig.putPages 5 ⟨none, .committing overrun⟩) (.committing 5 0)
       s.sst.engine = .committing 5 0 ∧ (s.pages 5).next = .committing overrun
         ∧ (∃ e ∈ (resolveFrom 0 overrun.events).1, ∃ r ∈ e.res, 3 * fpd .f25 ≤ r.start)) := by decide +kernel

/-- The edited list of a DELETE of 505, between 503 and 506. -/
theorem witness_EditsApplyOrDiverge_edit :
    EditOf rig.live.format page5 (.delete 505) ⟨events5.eraseIdx 3, 3⟩ :=
  EditOf.delete (f := .f25) (page := page5) (ev 505 (some 630000) 630000 90000 90000 (.live 12) .join) (events5.take 3) (events5.drop 4)
    rfl (by decide)

theorem witness_EditsApplyOrDiverge :
    (let s := sends paged (.edit (.delete 505))
     s.isMain 5 = true ∧ (s.pages 5).active = some page5 ∧ takesNext s .A (headOf rig (.replication 5 1 (.edit (.delete 505))))
       ∧ acceptedNumber s 5 1)
    ∧ (Edited.mk (events5.eraseIdx 3) 3).count ≤ 256 ∧ (Edited.mk (events5.eraseIdx 3) 3).stands .f25 = true
    ∧ (Edited.mk (events5.eraseIdx 0) 0).stands .f25 = false
    ∧ (Edited.mk (List.replicate 257 (ev 506 none 720000 750 750 .fill .join)) 0).count = 257
    ∧ (engineAt paged (.editing 5 (.delete 505) 0)).sst.engine = .editing 5 (.delete 505) 0 := by
  unfold takesNext acceptedNumber
  decide +kernel

/-- R62: an EMPTY active page, an id that the page does not hold, and a record with event id 0, which is malformed. -/
theorem witness_EditsApplyOrDiverge_refused :
    (let s := sends rig (.edit (.delete 505))
     takesNext s .A (headOf rig (.replication 5 1 (.edit (.delete 505)))) ∧ acceptedNumber s 5 1 ∧ (s.pages 5).active = none)
    ∧ (let s := sends paged (.edit (.delete 9))
       takesNext s .A (headOf rig (.replication 5 1 (.edit (.delete 9)))) ∧ acceptedNumber s 5 1 ∧ (s.pages 5).active = some page5
         ∧ (EditOp.delete 9).target = some 9 ∧ (∀ e ∈ page5.events, e.id ≠ 9))
    ∧ (let op := EditOp.insertAfter 501 { record501 with id := 0 }
       takesNext (sends paged (.edit op)) .A (headOf rig (.replication 5 1 (.edit op)))
         ∧ formEvent paged.live.format page5.baseDay { record501 with id := 0 } = none) := by
  unfold takesNext acceptedNumber
  decide +kernel

/-- R63 off MAIN: with clip 502 on air a DELETE of 502 disturbs it, and one of 505 does not. -/
theorem witness_EditsApplyOrDiverge_locked :
    (∀ op ∈ [EditOp.delete 502, .delete 505],
      takesNext (sends onAir (.edit op)) .A (headOf rig (.replication 5 1 (.edit op))) ∧ acceptedNumber (sends onAir (.edit op)) 5 1)
    ∧ onAir.isMain 5 = false ∧ (onAir.pages 5).active = some page5
    ∧ EditOf onAir.live.format page5 (.delete 502) ⟨events5.eraseIdx 1, 1⟩
    ∧ lockedEvent onAir 5 502 ∧ disturbedBy page5 (.delete 502) ⟨events5.eraseIdx 1, 1⟩ 502
    ∧ (∀ id, lockedEvent onAir 5 id → ¬ disturbedBy page5 (.delete 505) ⟨events5.eraseIdx 3, 3⟩ id)
    ∧ (Edited.mk (events5.eraseIdx 3) 3).stands .f25 = true := by
  refine ⟨?_, by decide +kernel, rfl, ?_, .inr (.inl ⟨air502, rfl, rfl⟩), ⟨by decide, .inl rfl⟩, ?_, by decide +kernel⟩
  · unfold takesNext acceptedNumber
    decide +kernel
  · exact EditOf.delete (f := .f25) (page := page5) (ev 502 none 585000 22500 22500 (.clip [0x50] 0) .join) (events5.take 1)
      (events5.drop 2) rfl (by decide)
  · rintro id (⟨o, g, h, -⟩ | ⟨a, h, rfl⟩ | ⟨x, h | ⟨k, h, -⟩, -⟩ | ⟨g, h, -⟩)
    · exact nomatch (h : Authority.standby air502 = .armed o g)
    · obtain rfl := Option.some.inj (h : some air502 = some a)
      unfold disturbedBy
      decide +kernel
    · exact nomatch (h : x ∈ [])
    · exact nomatch (h : none = some k)
    · exact nomatch (h : g ∈ [])

/-- The page of channel 5 with 257 FOLLOW events behind its first, and a DELETE of the second of them. -/
def longPage : Page := { page5 with events := events5.take 1 ++ List.replicate 258 (ev 7 none 0 1 1 .fill .join) }

/-- R64 off MAIN: an edit of 258 re-resolved events, and its completion. -/
theorem witness_EditsApplyOrDiverge_offMain :
    (let s := sends (onAir.putPages 5 ⟨some longPage, .empty⟩) (.edit (.delete 7))
     takesNext s .A (headOf onAir (.replication 5 1 (.edit (.delete 7)))) ∧ acceptedNumber s 5 1 ∧ s.isMain 5 = false
       ∧ (s.pages 5).active = some longPage)
    ∧ (Edited.mk (longPage.events.eraseIdx 1) 1).count = 258
    ∧ (let s := engineAt onAir (.editing 5 (.delete 505) 0)
       s.power = .running ∧ s.isMain 5 = false ∧ (s.pages 5).active = some page5 ∧ s.sst.engine = .editing 5 (.delete 505) 0) := by
  unfold takesNext acceptedNumber
  decide +kernel

/-- R149: a STANDBY channel with nothing planned, with a clip planned, with a live segment planned behind the segment on air, and with
exhausted filler on air. -/
theorem witness_EditsApplyOrDiverge_replanned :
    ((onAir.cue 5).planned = [] ∧ onAir.authority 5 = .standby air502 ∧ (onAir.cue 5).exhausted = false)
    ∧ ((planned503.cue 5).planned = [] ++ [⟨.clip .A [0x53] 0, 503, 162501, some 185001, true⟩])
    ∧ (let s := onAir.putPlanned 5 [⟨.live 12, 503, 162501, some 185001, true⟩]
       (s.cue 5).planned = [] ++ [⟨.live 12, 503, 162501, some 185001, true⟩] ∧ air502.stop = some 162501
         ∧ (s.lookupPlace 5 162501).isSome)
    ∧ (let a : OnAir := ⟨.gap, 0, some 90, none, none, 140001⟩
       let s := State.putCue { onAir with aut := PerChannel.put onAir.aut 5 (.standby a) } 5 { onAir.cue 5 with exhausted := true }
       s.authority 5 = .standby a ∧ (s.cue 5).exhausted = true ∧ a.stop = none ∧ a.kind = .gap ∧ (s.cue 5).planned = []) := by
  decide +kernel

theorem witness_FlipSwapsThePages :
    (let s := atWindow readyFlip 80001
     s.power = .running ∧ s.cdu.windowEvent = true ∧ (s.pages 5).next = .ready ⟨2, 18, events5, 0, some 4845000⟩
       ∧ s.isMain 5 = true ∧ s.stc.state ≠ .unset ∧ 2 * stationDiff s.format s.stationNow 4845000 ≤ wf s.format
       ∧ s.sst.engine = .idle)
    ∧ (let s := atWindow readyFlip 80000
       wf s.format < 2 * stationDiff s.format s.stationNow 4845000)
    ∧ ({ atWindow readyFlip 80001 with stc := Stc.reset } : State).stc.state = .unset := by decide +kernel

/-- Channel 5 with an authority, and a READY page whose flip time has come, at a switch-window event. -/
def flipping (r : Authority) (n : LocalFrame) : State :=
  atWindow { readyFlip with aut := PerChannel.put readyFlip.aut 5 r } n

/-- R58, R60: off MAIN at a boundary and away from it. -/
theorem witness_FlipSwapsThePages_offMain :
    (∀ r ∈ [Authority.held .A air502, .standby air502, .returning .standby .nextBoundary 162501 air502, .armed .auto plan5],
      (flipping r 162501).authority 5 = r)
    ∧ (let s := flipping (.standby air502) 162501
       s.power = .running ∧ s.cdu.windowEvent = true ∧ (s.pages 5).next = .ready ⟨2, 18, events5, 0, some 4845000⟩
          ∧ s.stc.state ≠ .unset ∧ 2 * stationDiff s.format s.stationNow 4845000 ≤ wf s.format ∧ air502.stop = some s.cdu.now)
    ∧ (let s := flipping (.standby air502) 162500
       (s.cue 5).boundary = false ∧ (162501 : LocalFrame) ≠ s.cdu.now)
    ∧ plan5.stop = some 200000 := by decide +kernel

/-- R60: an ARMED channel whose first segment has no end, at its start frame and a frame before it. -/
theorem witness_FlipSwapsThePages_armed :
    (let plan := { plan5 with stop := none }
     let s := flipping (.armed .auto plan) 150010
     s.authority 5 = .armed .auto plan ∧ plan.stop = none ∧ plan.start = s.cdu.now
       ∧ 2147483648 < ((150009 : LocalFrame) - plan.start).toNat) := by decide +kernel

/-- R150: a flip at the boundary at which clip 503 is to start with its PLAY still queued, and one with it sent. -/
theorem witness_FlipSwapsThePages_starts :
    (let g : Planned := ⟨.clip .A [0x53] 0, 503, 162501, some 185001, false⟩
     let s := flipping (.standby air502) 162501
     let t : State := (s.putPlanned 5 [g]).putQueue [⟨5, .A, 6, 162491, 162501, .play [0x53] 0 1 503⟩]
     t.authority 5 = .standby air502 ∧ (t.cue 5).planned = [g] ∧ g.start = t.cdu.now ∧ g.content.player.isSome ∧ t.playUnsent 5 g.start = true
       ∧ (s.putPlanned 5 [g]).playUnsent 5 g.start = false ∧ (s.cue 5).planned = []) := by decide +kernel

/-! ### Chapters 4 and 5 -/

theorem witness_CompletedFramesAreQueued :
    (let s := rig.putFeed .A { rig.feed .A with enabled := false }
     s.power = .running ∧ (s.feed .A).enabled = false)
    ∧ ((rig.feed .A).enabled = true ∧ feedFrame 0x04 [12, 0, 1] = none ∧ 512 < (List.replicate 513 (0 : Byte)).length)
    ∧ (let s := full
       (s.feed .A).enabled = true ∧ 2 ≤ (s.feed .A).queue.length ∧ (feedFrame 0x04 [5, 0, 1]).isSome)
    ∧ ((feedFrame (feedFrameBytes (beat 7)).1 (feedFrameBytes (beat 7)).2) = some (beat 7) ∧ (rig.feed .A).queue.length < 2)
    ∧ (let s := { rig with rx := { rig.rx with fa := .gathering [1] false true, ml := .gathering [] false true } }
       s.power = .running ∧ s.rx.get (feedLine .A) = .gathering [1] false true ∧ s.rx.get .ml = .gathering [] false true) := by
  decide +kernel

/-- R93: a heartbeat that brings Link UP, one on the port of two that is SILENT, and channels that are heard and enabled. -/
theorem witness_CompletedFramesAreQueued_link :
    (rig.sup.watch.get .A).live = false ∧ (rig.sup.watch.get (Side.other .A)).live = false ∧ (rig.feed .A).enabled = true
    ∧ (let s := { rig with sup := { rig.sup with watch := ⟨⟨false, 0⟩, ⟨true, 3⟩⟩ } }
       (s.sup.watch.get (Side.other .A)).live = true)
    ∧ (let s := judged .good 0
       (s.watched 5).heard = true ∧ (s.cfg 5).enabled = true ∧ s.sup.watch = ⟨⟨false, 0⟩, ⟨false, 0⟩⟩) := by decide +kernel

theorem witness_ReportsAreFormedAndSent :
    (let s := { rig with rpe := { rig.rpe with reportTimer := 0 } }
     s.power = .running ∧ s.rpe.reportTimer = 0 ∧ (s.feed .A).enabled = true ∧ (s.feed .A).tx.sending = none)
    ∧ (let s := rig.putFeed .A { rig.feed .A with tx := ⟨some rig.formReport, none⟩ }
       (s.feed .A).enabled = true ∧ (s.feed .A).tx.sending = some rig.formReport) := by decide +kernel

theorem witness_ExpiredTimersSilenceAPort :
    (let s := { rig with sup := { rig.sup with watch := ⟨⟨true, 0⟩, ⟨true, 3⟩⟩ } }
     s.power = .running ∧ s.sup.watch.get .A = ⟨true, 0⟩ ∧ (s.sup.watch.get (Side.other .A)).live = true)
    ∧ (let s := { rig with sup := { rig.sup with watch := ⟨⟨true, 0⟩, ⟨false, 0⟩⟩ } }
       s.power = .running ∧ s.sup.watch.get .A = ⟨true, 0⟩ ∧ (s.sup.watch.get (Side.other .A)).live = false)
    ∧ (let s := held5.putSite .A { held5.site .A with live := true, timer := 0 }
       s.power = .running ∧ (s.site .A).live = true ∧ (s.site .A).timer = 0 ∧ s.authority 5 = .held .A air502) := by decide +kernel

theorem witness_ScannerCountsAndSweeps :
    (let s := scanning (.sequential 5 4095 65535)
     s.power = .running ∧ s.sup.scan = .sequential 5 4095 65535 ∧ 4095 < 2 ^ s.live.scanResolution
       ∧ gateFirst s.cdu.frame.lines ≤ 23 ∧ 625 ≤ s.cdu.frame.lines ∧ 22 < gateFirst s.cdu.frame.lines
       ∧ s.cdu.frame.lines < 626 ∧ (∀ d : Channel, (5 : Channel) < d → s.live.scanMask.getLsbD d.val = false))
    ∧ (let s := scanning (.parallel 0 (PerChannel.same 0))
       s.sup.scan = .parallel 0 (PerChannel.same 0) ∧ s.live.scanMask.getLsbD (0 : Channel).val = true)
    ∧ (let s := scanning (.starting true)
       s.sup.scan = .starting true ∧ s.live.scanMode = .parallel)
    ∧ (let s := { scanning (.starting true) with live := { (scanning .idle).live with scanMode := .sequential } }
       s.sup.scan = .starting true ∧ s.live.scanMode = .sequential ∧ s.live.scanMask.getLsbD (0 : Channel).val = true)
    ∧ (let s := scanning (.sequential 0 4096 9)
       s.sup.scan = .sequential 0 4096 9 ∧ s.live.scanMask.getLsbD (5 : Channel).val = true
         ∧ (∀ e : Channel, (0 : Channel) < e → e < 5 → s.live.scanMask.getLsbD e.val = false)) := by decide +kernel

theorem witness_HealthFollowsItsInputs :
    Presence.present = presenceOf true ∧ Presence.unscanned ≠ presenceOf false
    ∧ (let s := judged .failing 0
       s.power = .running ∧ (s.watched 5).health = .failing ∧ (s.watched 5).confirm = 0 ∧ s.isMain 5 = true
         ∧ (s.cfg 5).policy = .auto ∧ s.readiness 5 = .ready)
    ∧ (let s := { judged .failing 0 with stc := Stc.reset }
       s.isMain 5 = true ∧ (s.cfg 5).policy = .auto ∧ s.readiness 5 ≠ .ready)
    ∧ (let s := (judged .failing 0).putCfg 5 { rigCfg 5 with policy := .manual }
       s.isMain 5 = true ∧ (s.cfg 5).policy ≠ .auto) := by decide +kernel

/-! ### Chapter 6 -/

/-- R107: a channel that is not heard, one that is not enabled, one whose class is failing, and one whose class is GOOD, whose health
is then to change or to stay. -/
theorem witness_HealthFollowsItsInputs_evaluated :
    (rig.watched 5).heard = false ∧ (State.reset.cfg 5).enabled = false
    ∧ (let s := judged .good 0
       (s.watched 5).heard = true ∧ (s.cfg 5).enabled = true ∧ classOf s.linkUp (s.watched 5).latestAir (s.watched 5).presence = .failing
         ∧ (s.watched 5).health ≠ .failing ∧ (s.watched 5).health ≠ .failed)
    ∧ ((judged .failed 0).watched 5).health = .failed
    ∧ (let s := { rig.putWatched 5 { SupChannel.reset with heard := true, latestAir := some .ok, health := .suspect } with
                  sup := { (rig.putWatched 5 { SupChannel.reset with heard := true, latestAir := some .ok, health := .suspect }).sup with
                    watch := ⟨⟨true, 9⟩, ⟨false, 0⟩⟩ } }
       classOf s.linkUp (s.watched 5).latestAir (s.watched 5).presence = .good ∧ (s.watched 5).health ≠ .good) := by decide +kernel

/-! ### Chapter 6 -/

/-- The rig with the destination of channel 2 on channel 3. -/
def sameDestination : State := rig.putCfg 3 { rigCfg 3 with destination := 22 }

/-- R120, R121: channel 5 is off MAIN, channel 2 is not ready, and channel 3 is; and channels 2 and 3, both ready, share a destination,
which the lower one takes. -/
theorem witness_KeyAndTakeAllArmEveryReadyChannel :
    (let s := { onAir.putCfg 2 { rigCfg 2 with enabled := false } with sup := { rig.sup with key := ⟨false, 8⟩ } }
     s.power = .running ∧ s.sup.key.count = 8 ∧ s.sup.key.asserted = false ∧ s.isMain 5 = false ∧ s.isMain 2 = true
       ∧ s.readiness 2 = .notReady ∧ s.readiness 3 = .ready
       ∧ (∀ d : Channel, d < 3 → (s.cfg d).destination ≠ (s.cfg 3).destination))
    ∧ (let s := { rig with sup := { rig.sup with key := ⟨true, 8⟩ } }
       s.power = .running ∧ s.sup.key.count = 8 ∧ s.sup.key.asserted = true)
    ∧ (let s := sameDestination
       canTake s .A ∧ s.readiness 2 = .ready ∧ s.readiness 3 = .ready ∧ (s.cfg 2).destination = (s.cfg 3).destination
         ∧ (after (.takeAll .A 1) s).isMain 2 = false)
    ∧ (canTake State.reset .A ∧ ∀ c, State.reset.isMain c = true → State.reset.readiness c ≠ .ready) := by
  unfold canTake
  decide +kernel

theorem witness_TakeAndReleaseArm :
    (canTake paged .A ∧ (5 : Byte).toNat = (5 : Channel).val ∧ paged.isMain 5 = true ∧ paged.readiness 5 = .ready)
    ∧ (paged.putCfg 5 { rigCfg 5 with policy := .never }).readiness 5 = .notReady
    ∧ (shared.isMain 4 = true ∧ shared.readiness 4 = .conflict)
    ∧ onAir.isMain 5 = false
    ∧ (canTake held5 .A ∧ held5.authority 5 = .held .A air502) := by
  unfold canTake
  decide +kernel

/-- R117: an arming whose first segment is a live source, filler, filler of a channel with none, and a clip. -/
theorem witness_TakeAndReleaseArm_handedOn :
    (let at' (n : LocalFrame) : State := { paged with cdu := { paged.cdu with now := n } }
     let first (s : State) : Option Nat := firstRoute s 5 (s.join 5).plan.content
     (canTake (at' 199990) .A ∧ (at' 199990).readiness 5 = .ready ∧ (at' 199990).issuesAtOnce 200000 = false)
       ∧ first (at' 199990) = some 12 ∧ first (at' 275090) = some 90
       ∧ first ((at' 275090).putCfg 5 { rigCfg 5 with filler := none }) = none
       ∧ ((at' 150000).join 5).plan.content.isClip = true ∧ first (at' 150000) = none) := by
  unfold canTake
  decide +kernel

/-- Channel 5 RETURNING from HELD by SA. -/
def returningHeld5 : State := { onAir with aut := PerChannel.put onAir.aut 5 (.returning (.held .A) .now 150001 air502) }

/-- R131: RELEASE of a channel in MAIN, ARMED, STANDBY, RETURNING from STANDBY, and RETURNING from HELD by the same port. -/
theorem witness_TakeAndReleaseArm_refused :
    (canTake paged .A ∧ paged.isMain 5 = true) ∧ (canTake armed5 .A ∧ armed5.authority 5 = .armed .auto plan5)
    ∧ (canTake onAir .A ∧ onAir.authority 5 = .standby air502)
    ∧ (canTake returning5 .A ∧ returningOwn returning5 5 .A) ∧ (canTake returningHeld5 .A ∧ returningOwn returningHeld5 5 .A) := by
  unfold canTake
  exact ⟨by decide, by decide, by decide, ⟨by decide, _, _, _, _, rfl, .inl rfl⟩, by decide, _, _, _, _, rfl, .inr rfl⟩

/-- The PLAY of a clip has not been sent exactly where the model's own test says so. -/
theorem unsentPlay_iff (s : State) (c : Channel) (start : LocalFrame) : unsentPlay s c start ↔ s.playUnsent c start = true := by
  have entry (x : CueEntry) : (x.channel = c ∧ x.start = start ∧ ∃ clipId media n i, x.action = .play clipId media n i)
      ↔ x.isPlayOf c start = true := by
    obtain ⟨ch, q, a, d, f, act⟩ := x
    cases act <;> simp [CueEntry.isPlayOf, CueAction.isPlay]
  simp only [unsentPlay, entry, State.playUnsent, State.playQueued, State.playInTxn, Bool.or_eq_true, List.any_eq_true]
  refine or_congr_right ?_
  rcases s.cus.txn with _ | ⟨x, w, ph, r, m⟩
  · simp
  · cases ph <;> simp [Txn.isPlayOf, Txn.isSending, and_comm]

theorem witness_SwitchWindowPutsSegmentsOnAir :
    (let s := atWindow armed5 150010
     s.power = .running ∧ s.cdu.windowEvent = true ∧ s.authority 5 = .armed .auto plan5 ∧ plan5.start = s.cdu.now
       ∧ ¬ unsentPlay s 5 plan5.start)
    ∧ (let s := atWindow returning5 150001
       s.power = .running ∧ s.cdu.windowEvent = true ∧ s.authority 5 = .returning .standby .now 150001 air502 ∧ s.cdu.now = 150001)
    ∧ (let s := atWindow planned503 162501
       s.authority 5 = .standby air502
         ∧ (s.cue 5).planned = [⟨.clip .A [0x53] 0, 503, 162501, some 185001, true⟩] ∧ s.cdu.now = 162501
         ∧ ¬ unsentPlay s 5 162501 ∧ (s.lookupPlace 5 185001).map (fun y => y.content) = some (.live 12))
    ∧ (let s := { atWindow planned503 162501 with cus := { planned503.cus with queue := [⟨5, .A, 6, 162491, 162501, .play [0x53] 0 1 503⟩] } }
       unsentPlay s 5 162501)
    ∧ (let s := atWindow armed5 150009
       2147483648 < (s.cdu.now - plan5.start).toNat)
    ∧ (let s := atWindow returning5 150000
       2147483648 < (s.cdu.now - 150001).toNat) := by
  simp only [unsentPlay_iff]
  decide +kernel

/-- Channel 5 with clip 503 planned on player A, its PLAY at the head of the queue a frame past its deadline. -/
def late503 (r : Authority) : State :=
  let s := onAir.putCue 5 ⟨⟨.idle, .onAir⟩, some .B, some (140001, 585000), [⟨.clip .A [0x53] 0, 503, 162501, some 185001, false⟩], false, false⟩
  { s with
    cdu := { s.cdu with now := 162492 }
    aut := PerChannel.put s.aut 5 r
    cus := { s.cus with queue := [⟨5, .A, 6, 162491, 162501, .play [0x53] 0 1 503⟩] } }

/-- Channel 5 at 162,501, where clip 503 is to start on player A, and its PLAY is still queued. -/
def unsent503 (r : Authority) : State := atWindow (late503 r) 162501

/-- R147, R148: an ARMED channel whose PLAY is still queued at its jl; a STANDBY and a RETURNING channel with a segment late at its start,
one on time, and a RETURNING channel whose segment would start at its return point. -/
theorem witness_SwitchWindowPutsSegmentsOnAir_late :
    (let plan : JoinPlan := ⟨160010, 4925009, .clip [0x50] 20009, 502, some 162501, some (503, 162501), false, some .A⟩
     let s := atWindow cueing 160010
     s.power = .running ∧ s.cdu.windowEvent = true ∧ s.authority 5 = .armed .lapse plan ∧ plan.start = s.cdu.now
       ∧ unsentPlay s 5 plan.start ∧ s.playQueued 5 160010 = true ∧ (s.cue 5).planned = []
       ∧ (s.cfg 5).filler = some 90 ∧ s.issuesAtOnce s.cdu.now = false)
    ∧ (let g : Planned := ⟨.clip .A [0x53] 0, 503, 162501, some 185001, false⟩
       let r : Authority := .returning .standby .now 162505 air502
       g.content.player.isSome ∧ unsentPlay (unsent503 (.standby air502)) 5 g.start ∧ ((unsent503 (.standby air502)).cue 5).planned = [g]
         ∧ (unsent503 r).authority 5 = r ∧ unsentPlay (unsent503 r) 5 g.start ∧ ((unsent503 r).cue 5).planned = [g]
         ∧ 2147483648 < (g.start - 162505).toNat ∧ g.stop ≠ some g.start)
    ∧ (let g : Planned := ⟨.clip .A [0x53] 0, 503, 162501, some 185001, true⟩
       let s := { atWindow planned503 162501 with aut := PerChannel.put planned503.aut 5 (.returning .standby .now 190001 air502) }
       (s.cue 5).planned = [g] ∧ ¬ unsentPlay s 5 g.start ∧ 2147483648 < (g.start - 190001).toNat
         ∧ 2147483648 < (185001 - (190001 : LocalFrame)).toNat ∧ (s.lookupPlace 5 185001).isSome)
    ∧ (let s := { atWindow planned503 162501 with aut := PerChannel.put planned503.aut 5 (.returning .standby .now 162501 air502) }
       s.authority 5 = .returning .standby .now 162501 air502 ∧ ((162501 : LocalFrame) - 162501).toNat ≤ 2147483648) := by
  simp only [unsentPlay_iff]
  decide +kernel

/-- R125, R127, R128, R130: the channel in MAIN, ARMED, STANDBY, HELD and RETURNING; a source of 256; and the port that does not hold a
channel HELD or RETURNING from HELD. -/
theorem witness_CancelHoldAndRoute_refused :
    (canTake paged .A ∧ paged.authority 5 = .main) ∧ (canTake armed5 .A ∧ armed5.authority 5 = .armed .auto plan5)
    ∧ (canTake onAir .A ∧ onAir.authority 5 = .standby air502)
    ∧ (canTake held5 .A ∧ held5.authority 5 = .held .A air502 ∧ 255 < (256 : BitVec 16).toNat)
    ∧ (canTake returning5 .A ∧ returningOwn returning5 5 .A)
    ∧ (canTake returningHeld5 .B ∧ Side.A ≠ Side.B ∧ returningHeld5.authority 5 = .returning (.held .A) .now 150001 air502) := by
  unfold canTake
  exact ⟨by decide, by decide, by decide, by decide, ⟨by decide, _, _, _, _, rfl, .inl rfl⟩, by decide⟩

theorem witness_CancelHoldAndRoute :
    (canTake armed5 .A ∧ armed5.authority 5 = .armed .auto plan5)
    ∧ (canTake onAir .A ∧ onAir.authority 5 = .standby air502)
    ∧ (canTake held5 .A ∧ held5.authority 5 = .held .A air502 ∧ (255 : BitVec 16).toNat ≤ 255)
    ∧ (canTake held5 .B ∧ held5.authority 5 = .held .A air502 ∧ Side.A ≠ Side.B) := by
  unfold canTake
  decide +kernel

/-- Channel 5 with clip 503 planned on player A and no PLAY queued; its crosspoint is pending. -/
def routed503 (x : PlayerState) (k : Option Txn) : State :=
  let s := ((late503 (.standby air502)).putQueue []).putTxn k
  (s.setPlayer 5 .A x).putPendingXp [⟨25, 162501, 110, 5⟩]

/-- R143: CANCEL of a channel whose PLAY is queued, in transaction, and gone with its player CUED; and HOLD in each case. -/
theorem witness_CancelHoldAndRoute_withdrawn :
    (let plan : JoinPlan := ⟨160010, 4925009, .clip [0x50] 20009, 502, some 162501, some (503, 162501), false, some .A⟩
     let k : Txn := ⟨entry502, false, .awaiting 2, 3, .play 6 [0x50] 20009 9⟩
     let s := sent cueing (.awaiting 2)
     let u := (cueing.putQueue []).setPlayer 5 .A .cued
     (canTake cueing .A ∧ cueing.authority 5 = .armed .lapse plan ∧ cueing.playQueued 5 plan.start = true)
       ∧ (canTake s .A ∧ s.authority 5 = .armed .lapse plan ∧ s.playQueued 5 plan.start = false ∧ s.cus.txn = some k
           ∧ k.isPlayOf 5 plan.start = true)
       ∧ (canTake u .A ∧ u.authority 5 = .armed .lapse plan ∧ u.playQueued 5 plan.start = false ∧ u.cus.txn = none
           ∧ u.playerState 5 .A = .cued))
    ∧ (let g : Planned := ⟨.clip .A [0x53] 0, 503, 162501, some 185001, false⟩
       let k : Txn := ⟨⟨5, .A, 6, 162491, 162501, .play [0x53] 0 1 503⟩, false, .awaiting 2, 3, .play 6 [0x53] 0 8⟩
       let s := late503 (.standby air502)
       (canTake s .A ∧ s.authority 5 = .standby air502 ∧ (s.cue 5).planned = [g] ∧ s.playQueued 5 g.start = true)
         ∧ (canTake (routed503 .cued (some k)) .A ∧ ((routed503 .cued (some k)).cue 5).planned = [g] ∧ k.isPlayOf 5 g.start = true
             ∧ (routed503 .cued (some k)).playQueued 5 g.start = false)
         ∧ (canTake (routed503 .cued none) .A ∧ ((routed503 .cued none).cue 5).planned = [g]
             ∧ (routed503 .cued none).playerState 5 .A = .cued ∧ (routed503 .cued none).xps.pending ≠ [])
         ∧ (after (.hold .A (.formed 1 5)) (routed503 .cued none)).xps.pending = []
         ∧ (((after (.hold .A (.formed 1 5)) (routed503 .cued none)).cus.queue.map fun x => (x.player, x.action)) = [(.A, .cancel)])) := by
  unfold canTake
  decide +kernel

/-- R124: a change into GOOD of a channel armed by health with a clip, one into another state, and an arming of another origin. -/
theorem witness_CancelHoldAndRoute_abort :
    (armed5.watched 5).health ≠ .good ∧ armed5.authority 5 = .armed .auto plan5 ∧ (armed5.watched 5).health ≠ .suspect
    ∧ (let plan : JoinPlan := ⟨160010, 4925009, .clip [0x50] 20009, 502, some 162501, some (503, 162501), false, some .A⟩
       (cueing.watched 5).health ≠ .good ∧ cueing.authority 5 = .armed .lapse plan ∧ plan.player.isSome ∧ Origin.lapse ≠ .auto) := by
  decide +kernel

/-- What SUP keeps of a channel that can be handed back. -/
def healthy : SupChannel := { SupChannel.reset with heard := true, health := .good, latestResume := some true }

theorem witness_ReturnIsAccepted :
    (let s := onAir.putWatched 5 healthy
     canTake s .A ∧ s.authority 5 = .standby air502 ∧ (s.watched 5).health = .good ∧ (s.watched 5).latestResume = some true
       ∧ air502.stop = some 162501 ∧ 0 < (162501 - s.cdu.now).toNat ∧ (162501 - s.cdu.now).toNat < 2147483648)
    ∧ (let s := { held5.putWatched 5 healthy with cdu := { rig.cdu with now := 162501 } }
       canTake s .A ∧ s.authority 5 = .held .A air502 ∧ (s.cdu.now - 162501).toNat < 2147483648)
    ∧ (onAir.watched 5).health ≠ .good ∧ 1 < (2 : Byte).toNat := by
  unfold canTake
  decide +kernel

/-- R134, R143: a return before a planned clip whose player is CUED. -/
theorem witness_ReturnIsAccepted_withdrawn :
    (let s := (routed503 .cued none).putWatched 5 healthy
     canTake s .A ∧ s.authority 5 = .standby air502 ∧ (s.watched 5).health = .good
       ∧ (s.cue 5).planned = [⟨.clip .A [0x53] 0, 503, 162501, some 185001, false⟩] ∧ s.cdu.now + 1 = 162493
       ∧ ((162501 : LocalFrame) - 162493).toNat ≤ 2147483648) := by
  unfold canTake
  decide +kernel

/-- R133: mode 2 of a channel in MAIN, and of one HELD by the port; a legal mode in MAIN, ARMED and RETURNING. -/
theorem witness_ReturnIsAccepted_refused :
    (canTake paged .A ∧ 1 < (2 : Byte).toNat ∧ (paged.authority 5).holder = none ∧ (held5.authority 5).holder = some .A)
    ∧ ((1 : Byte).toNat ≤ 1 ∧ paged.authority 5 = .main ∧ armed5.authority 5 = .armed .auto plan5 ∧ returningOwn returning5 5 .A) := by
  unfold canTake
  exact ⟨by decide, by decide, rfl, rfl, _, _, _, _, rfl, .inl rfl⟩

/-- R136: a return in GOOD that a change into SUSPECT aborts, of a STANDBY channel, whose segment on air ends later, and of a HELD one
whose holder is LIVE or SILENT; and a change into GOOD. -/
theorem witness_ReturnIsAccepted_abort :
    (let s := returning5.putWatched 5 healthy
     (s.watched 5).health ≠ .suspect ∧ s.authority 5 = .returning .standby .now 150001 air502 ∧ air502.stop = some 162501
       ∧ (s.cue 5).anchor.isSome ∧ (s.cue 5).planned = [] ∧ 2147483648 < (s.cdu.now - 162501).toNat
       ∧ (s.lookupPlace 5 162501).isSome)
    ∧ (let s := { onAir with aut := PerChannel.put onAir.aut 5 (.returning (.held .A) .now 150001 air502) }
       (s.watched 5).health ≠ .suspect ∧ s.authority 5 = .returning (.held .A) .now 150001 air502 ∧ (s.site .A).live = false
         ∧ ((s.putSite .A { s.site .A with live := true, timer := 9 }).site .A).live = true)
    ∧ (returning5.watched 5).health ≠ .good := by decide +kernel

/-! ### Chapter 7 -/

/-- R153 in ARMED, STANDBY and RETURNING. -/
theorem witness_CueEntriesAreTakenAndSent_late :
    (let s := { cueing with cdu := { cueing.cdu with now := 160001 } }
     s.power = .running ∧ s.cus.txn = none ∧ s.cus.queue = [entry502] ∧ entry502.action ≠ .cancel
       ∧ ∃ g, s.authority 5 = .armed .lapse g ∧ g.start = entry502.start)
    ∧ (let s := late503 (.standby air502)
       let x : CueEntry := ⟨5, .A, 6, 162491, 162501, .play [0x53] 0 1 503⟩
       let g : Planned := ⟨.clip .A [0x53] 0, 503, 162501, some 185001, false⟩
       s.cus.txn = none ∧ s.cus.queue = [x] ∧ x.action ≠ .cancel ∧ (s.cdu.now - x.deadline).toNat = 1
         ∧ s.authority 5 = .standby air502 ∧ (s.cue 5).planned = [g] ∧ g.start = x.start ∧ g.content.player = some x.player
         ∧ s.playerState 5 x.player ≠ .cued)
    ∧ (let s := late503 (.returning .standby .now 162505 air502)
       let x : CueEntry := ⟨5, .A, 6, 162491, 162501, .play [0x53] 0 1 503⟩
       s.authority 5 = .returning .standby .now 162505 air502
         ∧ s.plannedFor x = some ⟨.clip .A [0x53] 0, 503, 162501, some 185001, false⟩) := by
  refine ⟨⟨rfl, rfl, rfl, by decide, _, rfl, rfl⟩, by decide +kernel, by decide +kernel⟩

/-- A transaction of a PLAY for clip 503 whose wait has run out, of an attempt. -/
def failed503 (n : Nat) : State :=
  let x : CueEntry := ⟨5, .A, 6, 162491, 162501, .play [0x53] 0 n 503⟩
  let s := (late503 (.standby { air502 with player := none, kind := .live })).setPlayer 5 .B .idle
  (s.putQueue []).putTxn (some ⟨x, false, .awaiting 0, 3, .play 6 [0x53] 0 8⟩)

/-- R154: attempt 1 with the other player free, in ARMED and in STANDBY with a boundary lookup; and attempt 2. -/
theorem witness_CueTransactionsEnd_retry :
    (let s := sent cueing (.awaiting 0)
     s.power = .running ∧ s.cus.txn = some ⟨entry502, false, .awaiting 0, 3, .play 6 [0x50] 20009 9⟩
       ∧ s.playerState 5 (Side.other .A) ≠ .onAir ∧ (s.authority 5).name = .armed)
    ∧ (let x : CueEntry := ⟨5, .A, 6, 162491, 162501, .play [0x53] 0 1 503⟩
       let s := failed503 1
       s.power = .running ∧ s.cus.txn = some ⟨x, false, .awaiting 0, 3, .play 6 [0x53] 0 8⟩ ∧ s.playerState 5 (Side.other .A) ≠ .onAir
         ∧ (s.authority 5).name = .standby ∧ s.plannedFor x = some ⟨.clip .A [0x53] 0, 503, 162501, some 185001, false⟩
         ∧ (s.lookupPlace 5 162501).isSome)
    ∧ (let x : CueEntry := ⟨5, .A, 6, 162491, 162501, .play [0x53] 0 2 503⟩
       (failed503 2).cus.txn = some ⟨x, false, .awaiting 0, 3, .play 6 [0x53] 0 8⟩ ∧ ((failed503 2).plannedFor x).isSome)
    ∧ (let k : Txn := ⟨entry502, false, .sending false, 3, .play 6 [0x50] 20009 9⟩
       (sent cueing (.sending false)).cus.txn = some k ∧ k.isSending = true ∧ k.withdrawn = false ∧ k.entry.action ≠ .cancel) := by
  decide +kernel

theorem witness_CueEntriesAreTakenAndSent :
    (cueing.power = .running ∧ cueing.cus.txn = none ∧ cueing.cus.queue = [entry502] ∧ (cueing.cdu.now - entry502.deadline).toNat = 0)
    ∧ (let s := { cueing with cdu := { cueing.cdu with now := 160001 } }
       s.cus.txn = none ∧ 0 < (s.cdu.now - entry502.deadline).toNat ∧ (s.cdu.now - entry502.deadline).toNat < 2147483648)
    ∧ (let s := sent cueing (.sending true)
       s.power = .running ∧ s.cus.txn = some ⟨entry502, false, .sending true, 3, .play 6 [0x50] 20009 9⟩
         ∧ s.sourceAhead 5 160010 ≠ some (s.playerSource 5 .A) ∧ s.issuesAtOnce 160010 = false)
    ∧ (7 : Byte).toNat ≠ entry502.address := by decide +kernel

theorem witness_CueTransactionsEnd :
    (let s := sent cueing (.awaiting 2)
     s.power = .running ∧ s.cus.txn = some ⟨entry502, false, .awaiting 2, 3, .play 6 [0x50] 20009 9⟩ ∧ (6 : Byte).toNat = entry502.address)
    ∧ (let s := { cueing with cus := { cueing.cus with txn := some ⟨entry502, true, .awaiting 2, 3, .play 6 [0x50] 20009 9⟩ } }
       s.cus.txn = some ⟨entry502, true, .awaiting 2, 3, .play 6 [0x50] 20009 9⟩ ∧ entry502.action ≠ .cancel)
    ∧ (let x : CueEntry := ⟨5, .A, 6, 162491, 162501, .play [0x53] 0 2 503⟩
       let s := { planned503 with cus := { planned503.cus with txn := some ⟨x, false, .awaiting 0, 3, .play 6 [0x53] 0 10⟩ } }
       s.power = .running ∧ s.cus.txn = some ⟨x, false, .awaiting 0, 3, .play 6 [0x53] 0 10⟩ ∧ (s.plannedFor x).isSome
         ∧ s.authority 5 = .standby air502 ∧ (1 : Byte) ≠ 0) := by decide +kernel

/-- R155: clip 502 on air on player B, whose PLAY is still in its transaction, with the filler free for the next switch-window event; with a
segment that starts at it; and RETURNING at it. -/
theorem witness_CueTransactionsEnd_started :
    (let x : CueEntry := ⟨5, .B, 18, 139991, 140001, .play [0x50] 0 1 502⟩
     let failing (s : State) : State := s.putTxn (some ⟨x, false, .awaiting 0, 3, .play 18 [0x50] 0 8⟩)
     let s := failing onAir
     s.power = .running ∧ s.cus.txn = some ⟨x, false, .awaiting 0, 3, .play 18 [0x50] 0 8⟩ ∧ (s.authority 5).air = some air502
       ∧ air502.player = some x.player ∧ air502.start = x.start ∧ s.plannedFor x = none ∧ (s.cfg 5).filler = some 90
       ∧ s.cdu.windowOpened = false ∧ (s.cue 5).planned = [] ∧ s.issuesAtOnce 150000 = false
       ∧ ((failing (s.putPlanned 5 [⟨.live 12, 505, 150000, some 150100, true⟩])).plannedFor x).isNone
       ∧ 2147483648 < ((150000 : LocalFrame) - 150001).toNat
       ∧ (failing (atWindow returning5 150000)).authority 5 = .returning .standby .now 150001 air502) := by decide +kernel

theorem witness_CrosspointsAreIssuedAtTheirFrame :
    (let s := atWindow { rig with xps := { rig.xps with pending := [⟨25, 160009, 7, 5⟩, ⟨25, 160008, 8, 5⟩, ⟨63, 160011, 9, 6⟩] } } 160010
     s.power = .running ∧ s.cdu.windowEvent = true ∧ s.xps.eventTaken = false ∧ (∀ x ∈ s.xps.pending, x.destination < 64)
       ∧ (s.cdu.now - 160009).toNat < 2147483648
       ∧ (∀ y ∈ s.xps.pending, y.destination = 25 → (s.cdu.now - y.due).toNat ≤ 2147483648 → y = ⟨25, 160009, 7, 5⟩
           ∨ (s.cdu.now - 160009).toNat < (s.cdu.now - y.due).toNat ∧ (s.cdu.now - y.due).toNat < 2147483648)) := by decide +kernel

/-- R157: a crosspoint for the open window whose event XPS has taken, one for a later frame, and a ROUTE of the holder. -/
theorem witness_CrosspointsAreIssuedAtTheirFrame_placed :
    (let s := { atWindow held5 160010 with xps := { held5.xps with eventTaken := true, pending := [⟨25, 160010, 7, 5⟩, ⟨25, 160011, 8, 5⟩] } }
     s.cdu.now = 160010 ∧ s.windowOpen = true ∧ s.xps.eventTaken = true ∧ (160011 : LocalFrame) ≠ s.cdu.now)
    ∧ (canTake held5 .A ∧ held5.authority 5 = .held .A air502 ∧ (255 : BitVec 16).toNat ≤ 255) := by
  unfold canTake
  decide +kernel

theorem witness_AcknowledgementsAreMatched :
    (let s := awaiting 0
     s.power = .running ∧ s.xps.awaiting = [] ++ ⟨25, 111, 5, 0⟩ :: [] ∧ (25 : Byte).toNat < 64 ∧ (111 : Byte).toNat = 111
       ∧ (25 : Fin 64).val = 25)
    ∧ (∀ y ∈ (awaiting 2).xps.awaiting, ¬(y.destination = (64 : Byte).toNat ∧ y.source = (111 : Byte).toNat)) := by decide +kernel

/-! ### Chapters 8 to 10 -/

theorem witness_TransmitSideSendsAnswersFirst :
    (let s := linked [⟨4, none, true⟩] [⟨1, 0x38, .done, []⟩]
     s.power = .running ∧ (s.site .A).sending = none ∧ (s.site .A).answers = [⟨1, 0x38, .done, []⟩])
    ∧ (let s := linked [⟨12, none, false⟩, ⟨16, some 2, true⟩] []
       (s.site .A).sending = none ∧ (s.site .A).answers = [] ∧ (s.site .A).live = true
         ∧ (s.site .A).pairs = [⟨12, none, false⟩] ++ ⟨16, some 2, true⟩ :: [])
    ∧ (let s := linked [⟨17, some 5, true⟩, ⟨19, some 5, false⟩] []
       (s.site .A).pairs = [] ++ ⟨17, some 5, true⟩ :: [⟨19, some 5, false⟩])
    ∧ (let s := linked [⟨12, none, false⟩, ⟨16, some 2, false⟩] []
       (s.site .A).pairs = [] ++ ⟨12, none, false⟩ :: [⟨16, some 2, false⟩])
    ∧ (rig.site .A).live = false
    ∧ ((after (.answerTransmitBegin .A) (linked [] [⟨1, 0x38, .done, []⟩])).site .A).sending.isSome := by decide +kernel

theorem witness_RisingFlagsOfferNotices :
    (let s := rig.putSite .A { rig.site .A with mask := 0x00010000 }
     s.channelFlag .healthChange 5 = false ∧ (s.site .A).mask.getLsbD ChannelFlag.healthChange.kind = true ∧ (s.site .A).pairs = [])
    ∧ (let s := (rig.putSite .A { rig.site .A with mask := 0x00010000 }).raiseClassed .healthChange 5 false
       s.channelFlag .healthChange 5 = true ∧ (s.site .A).pairs = [⟨16, some 5, false⟩]) := by decide +kernel

theorem witness_RisingFlagsOfferNotices_device :
    (let s := rig.putSite .A { rig.site .A with mask := 0x00001000 }
     s.deviceFlag .scanDone = false ∧ (s.site .A).mask.getLsbD DeviceFlag.scanDone.kind = true ∧ (s.site .A).pairs = [])
    ∧ (let s := (rig.putSite .A { rig.site .A with mask := 0x00001000 }).raiseDevice .scanDone
       s.deviceFlag .scanDone = true ∧ (s.site .A).pairs.length = 1) := by decide +kernel

/-- The legal names at the ends of their ranges, and the names that are refused, with BAD-VALUE and with NO-CHANNEL. -/
theorem witness_FlagAndMaskRequestsAct :
    canTake rig .A
    ∧ (∀ n ∈ [(⟨1, 0xFF⟩ : FlagName), ⟨15, 0xFF⟩, ⟨16, 0⟩, ⟨29, 11⟩, ⟨16, 0xFE⟩], legalName n)
    ∧ (∀ n ∈ [(⟨0, 0xFF⟩ : FlagName), ⟨30, 0xFF⟩, ⟨15, 0xFE⟩, ⟨16, 0xFF⟩],
        n.kind = 0 ∨ 29 < n.kind.toNat ∨ n.kind.toNat ≤ 15 ∧ n.channel ≠ 0xFF ∨ 16 ≤ n.kind.toNat ∧ n.channel = 0xFF)
    ∧ (∀ n ∈ [(⟨16, 12⟩ : FlagName), ⟨29, 0xFD⟩],
        16 ≤ n.kind.toNat ∧ n.kind.toNat ≤ 29 ∧ 11 < n.channel.toNat ∧ n.channel.toNat < 0xFE)
    ∧ (0x3FFFFFFE : BitVec 32) &&& 0xC0000001 = 0 ∧ (1 : BitVec 32) &&& 0xC0000001 ≠ 0 ∧ rig.store.save = none := by
  unfold canTake legalName
  decide +kernel

/-- The rig with a SAVE running. -/
def savingRig : State := { rig with store := { rig.store with save := some ⟨.A, ⟨1, storeImage rig.live⟩, 0⟩ } }

theorem witness_ConfigureCadenceActs :
    (canTake savingRig .A ∧ savingRig.store.save.isSome)
    ∧ (canTake onAir .A ∧ onAir.store.save = none ∧ ∃ c, onAir.isMain c = false)
    ∧ (canTake rig .A ∧ rig.store.save = none ∧ rig.cdu.manualLock = false ∧ (∀ c, rig.isMain c = true)
        ∧ clamp 2 20 (1 : Byte).toNat ≤ clamp 2 20 (2 : Byte).toNat ∧ clamp 2 20 (20 : Byte).toNat < clamp 2 20 (21 : Byte).toNat + 1
        ∧ clamp 2 20 (2 : Byte).toNat < clamp 2 20 (3 : Byte).toNat ∧ 2 < (3 : Byte).toNat
        ∧ (2 : Byte).toNat = formatCode .f30n ∧ Format.f30n ≠ rig.live.format ∧ rig.live.swFirst ≤ rig.live.swLast) := by
  unfold canTake
  decide +kernel

theorem witness_ConfigureRequestsApplyAndClamp :
    (canTake rig .A ∧ rig.store.save = none ∧ rig.sup.scan = .idle ∧ (1 : Byte).toNat ≤ 1 ∧ (4095 : BitVec 16).toNat < 4096
        ∧ 1 < (2 : Byte).toNat ∧ 4096 ≤ (4096 : BitVec 16).toNat)
    ∧ (let s := scanning (.starting false)
       canTake s .A ∧ s.store.save = none ∧ s.sup.scan ≠ .idle)
    ∧ (canTake onAir .A ∧ onAir.isMain 5 = false)
    ∧ (canTake savingRig .A ∧ savingRig.store.save.isSome) := by
  unfold canTake
  decide +kernel

/-- R181: a request that is applied, with a filler of FFFFh and a CONFIRM that is clamped; an illegal destination; and two players that
would have one address. -/
theorem witness_ConfigureRequestsApplyAndClamp_channel :
    let x : ChannelItems := { noItems with filler := some 0xFFFF, confirm := some 3001, addressA := some 31, destination := some 63 }
    rig.isMain 5 = true ∧ itemsLegal x ∧ ¬ itemsInRange x ∧ itemsInRange { x with confirm := some 3000 }
    ∧ (itemsApplied (rig.cfg 5) x).players.a.address ≠ (itemsApplied (rig.cfg 5) x).players.b.address
    ∧ (itemsApplied (rig.cfg 5) x).filler = none ∧ (itemsApplied (rig.cfg 5) x).confirm = 3000
    ∧ ¬ itemsLegal { noItems with destination := some 64 } ∧ ¬ itemsLegal { noItems with filler := some 256 }
    ∧ (itemsApplied (rig.cfg 5) { noItems with addressA := some 18 }).players.a.address
        = (itemsApplied (rig.cfg 5) { noItems with addressA := some 18 }).players.b.address := by
  simp [itemsLegal, itemsInRange, noItems]
  decide +kernel

theorem witness_ScanFeedAndClearRequestsAct :
    (let s := scanning .idle
     canTake s .A ∧ s.sup.scan = .idle ∧ s.live.scanMask ≠ 0)
    ∧ (canTake (scanning (.starting false)) .A ∧ (scanning (.starting false)).sup.scan ≠ .idle)
    ∧ (canTake rig .A ∧ rig.sup.scan = .idle ∧ rig.live.scanMask = 0 ∧ rig.isMain 5 = true)
    ∧ (canTake onAir .A ∧ onAir.isMain 5 = false ∧ 1 < (2 : Byte).toNat) := by
  unfold canTake
  decide +kernel

theorem witness_SaveWritesTheOtherBank :
    (canTake rig .A ∧ rig.store.save = none ∧ rig.store.current = none)
    ∧ (let s := { rig with store := { rig.store with current := some .A, banks := ⟨some ⟨65535, storeImage rig.live⟩, none⟩ } }
       canTake s .A ∧ s.store.save = none ∧ s.store.current = some .A ∧ s.store.banks.get .A = some ⟨65535, storeImage rig.live⟩)
    ∧ settingsValid rig.live = true
    ∧ (savingRig.power = .running ∧ savingRig.store.save = some ⟨.A, ⟨1, storeImage rig.live⟩, 0⟩ ∧ (none : Option Bank) ≠ some ⟨1, storeImage rig.live⟩) := by
  unfold canTake
  decide +kernel

theorem witness_ResetsReturnEveryBlock : (after .powerOnReset onAir).power = .held := by decide +kernel

/-- The rig with its live settings in both banks, of two generations. -/
def banked (x y : BitVec 16) : State := { rig with store := { rig.store with banks := ⟨some ⟨x, storeImage rig.live⟩, some ⟨y, storeImage factorySettings⟩⟩ } }

theorem witness_ResetLoadsTheNewerBank :
    ((banked 65535 0).store.save = none ∧ imageValid (storeImage rig.live) = true ∧ imageValid (storeImage factorySettings) = true
      ∧ ((0 : BitVec 16) - 65535).toNat = 1 ∧ ((32767 : BitVec 16) - 0).toNat = 32767 ∧ ((32768 : BitVec 16) - 0).toNat = 32768)
    ∧ imageValid (storeImage { factorySettings with swFirst := 10 }) = false
    ∧ savingRig.store.save = some ⟨.A, ⟨1, storeImage rig.live⟩, 0⟩ := by decide +kernel

theorem witness_SiteRequestsDecodeAsEncoded :
    (Instr.configureChannel .A (.formed 7 ⟨5, { noItems with cueLead := some 255 }⟩)).wellFormed = true
      ∧ siteBytes (.configureChannel .A (.formed 7 ⟨5, { noItems with cueLead := some 255 }⟩))
          = some (0x2C, [0x00, 0x07, 0x05, 0x02, 0x00, 0xFF]) := by decide

theorem witness_FeedFramesDecodeAsEncoded :
    clipsFit (.replication 5 1 (.event { record501 with clipId := List.replicate 255 0x41 })) := by
  unfold clipsFit
  decide +kernel

end Sys2Proof.Tests
end

namespace Sys2Proof.Machine

/-! ## Station frames (R14, R15, R20, R30) -/

/-- R30: the difference of two station frames is their integer difference modulo WF. -/
theorem stationDiff_eq_emod (f : Format) (a b : Nat) : stationDiff f a b = (((a : Int) - b) % wf f).toNat := by
  cases f <;> simp only [stationDiff, wf, fpd] <;> omega

/-- R20: the offset that a station frame gives at a count makes that frame station now. -/
theorem add_stationDiff_mod {f : Format} {a : Nat} (h : a < wf f) (n : Nat) : (n + stationDiff f a n) % wf f = a := by
  cases f <;> simp only [stationDiff, wf, fpd] at * <;> omega

theorem frameOfDay_lt {f : Format} {l : Label} (hh : l.hh ≤ 23) (mm : l.mm ≤ 59) (ss : l.ss ≤ 59) (ff : l.ff < base f) :
    frameOfDay f l < fpd f := by
  cases f <;> simp only [frameOfDay, fpd, base, skippedLabels] at * <;> omega

/-- R23: each field of the label is in its range. -/
theorem labelInRange_iff {f : Format} {l : Label} :
    labelInRange f l = true ↔ l.day ≤ 6 ∧ l.hh ≤ 23 ∧ l.mm ≤ 59 ∧ l.ss ≤ 59 ∧ l.ff < base f := by
  simp only [labelInRange, Bool.and_eq_true, decide_eq_true_eq, and_assoc]

theorem labelInRange_adjustLabel {f : Format} {l : Label} (h : labelInRange f l = true) :
    labelInRange f (adjustLabel f l) = true := by
  rw [labelInRange_iff] at h ⊢
  obtain ⟨day, hh, mm, ss, ff⟩ := h
  have two : 2 < base f := by cases f <;> decide
  unfold adjustLabel
  split
  · exact ⟨day, hh, mm, ss, two⟩
  · exact ⟨day, hh, mm, ss, ff⟩

/-- R24: stage A gives a station frame of the week. -/
theorem stageA_frame_lt {f : Format} {l : Label} {a : StageA} (h : stageA f l = some a) : a.frame < wf f := by
  unfold stageA at h
  split at h
  · next inRange =>
    obtain ⟨day, hh, mm, ss, ff⟩ := labelInRange_iff.mp (labelInRange_adjustLabel inRange)
    have inDay := frameOfDay_lt hh mm ss ff
    cases h
    calc (adjustLabel f l).day * fpd f + frameOfDay f (adjustLabel f l)
        < (adjustLabel f l).day * fpd f + fpd f := Nat.add_lt_add_left inDay _
      _ = ((adjustLabel f l).day + 1) * fpd f := (Nat.succ_mul _ _).symm
      _ ≤ 7 * fpd f := Nat.mul_le_mul_right _ (by omega)
  · cases h

/-! ## SET TIME (R20) -/

theorem exec_setTime {s : State} {p : SitePort} (take : canTake s p) (tag : Tag) (x : TimeBytes) :
    exec (.setTime p (.formed tag x)) s = .next (((s.validFrame p).setTimeRequest x).state.queueAnswer p
      ⟨tag, 0x2B, ((s.validFrame p).setTimeRequest x).code, ((s.validFrame p).setTimeRequest x).result⟩) := by
  rw [← State.request_formed take.2 0x2B tag x fun t s => s.setTimeRequest t]
  exact whenRunning_eq (f := fun s => s.request p 0x2B (.formed tag x) fun t s => s.setTimeRequest t) take.1

/-- A request that leaves the site ports and the receive stages to the taking of its frame is answered as its owner decides. -/
theorem answered_queueAnswer {s u : State} {p : SitePort} (sites : ∀ q, u.site q = (s.validFrame p).site q)
    (rx : u.rx = (s.validFrame p).rx) (tag : Tag) (code : Byte) (k : AnswerCode) (result : List Byte) :
    answered s (u.queueAnswer p ⟨tag, code, k, result⟩) p tag code k result := by
  refine ⟨?_, ?_, rx⟩
  · rw [State.queueAnswer, State.site_putSite, if_pos rfl, sites, State.site_validFrame, if_pos rfl]
    rfl
  · have other : p.other ≠ p := by cases p <;> decide
    rw [State.queueAnswer, State.site_putSite, if_neg other, sites, State.site_validFrame, if_neg other]

/-- A refused request is answered with its code, and changes its port and receive stage alone. -/
theorem refused_request (s : State) (p : SitePort) (tag : Tag) (code : Byte) (k : AnswerCode) :
    answered s ((s.validFrame p).queueAnswer p ⟨tag, code, k, []⟩) p tag code k []
      ∧ OnlyChanges requestParts s ((s.validFrame p).queueAnswer p ⟨tag, code, k, []⟩) :=
  ⟨answered_queueAnswer (fun _ => rfl) rfl tag code k [],
    (s.validFrame_acts p).only.trans ((State.queueAnswer_acts _ p _).only.mono (by simp [takingParts]))⟩

theorem State.setTimeRequest_locked {s : State} (h : s.stc.state = .locked ∨ s.stc.state = .set) (x : TimeBytes) :
    s.setTimeRequest x = s.refuse .locked := by
  rcases h with h | h <;> simp only [State.setTimeRequest, h]

theorem State.setTimeRequest_inRange {s : State} (h : s.stc.state = .unset ∨ s.stc.state = .holdover) {x : TimeBytes}
    {a : StageA} (stage : stageA s.format (labelOf x) = some a) : s.setTimeRequest x = (s.setStation a.frame).done [] := by
  rcases h with h | h <;> simp only [State.setTimeRequest, h, stage]

theorem State.setTimeRequest_outOfRange {s : State} (h : s.stc.state = .unset ∨ s.stc.state = .holdover) {x : TimeBytes}
    (stage : stageA s.format (labelOf x) = none) : s.setTimeRequest x = s.refuse .badTime := by
  rcases h with h | h <;> simp only [State.setTimeRequest, h, stage]

/-- Settles O22: the three answers of SET TIME, the accepted label being station now because stage A's frame lies in the week. -/
theorem setTimeSetsTheOffset : Obligations.SetTimeSetsTheOffset := by
  intro s p tag x take
  refine ⟨fun state => ⟨_, exec_setTime take tag x, ?_⟩, fun state => ⟨fun a stage => ⟨_, exec_setTime take tag x, ?_⟩,
    fun stage => ⟨_, exec_setTime take tag x, ?_⟩⟩⟩
  · have refused := State.setTimeRequest_locked (s := s.validFrame p) state x
    rw [refused]
    exact refused_request s p tag 0x2B .locked
  · have accepted := State.setTimeRequest_inRange (s := s.validFrame p) state stage
    rw [accepted]
    refine ⟨answered_queueAnswer (fun _ => rfl) rfl tag 0x2B .done [], ?_, ?_, ?_⟩
    · exact congrArg (fun o => Stc.taken o .set) (stationDiff_eq_emod s.format a.frame s.cdu.now.toNat)
    · exact add_stationDiff_mod (stageA_frame_lt stage) s.cdu.now.toNat
    · exact ((s.validFrame_acts p).only.mono (by simp [takingParts, requestParts])).trans
        (((State.putStc_acts _ _).only.mono (by simp)).trans ((State.queueAnswer_acts _ p _).only.mono (by simp [requestParts])))
  · have refused := State.setTimeRequest_outOfRange (s := s.validFrame p) state stage
    rw [refused]
    exact refused_request s p tag 0x2B .badTime

/-! ## The wrap of the count and the turn record (R14, R15) -/

theorem exec_frameStart {s : State} (h : s.power = .running) (k : Bool) : exec (.frameStart k) s = .next (s.frameStart k) :=
  whenRunning_eq (f := fun s => s.frameStart k) h

theorem exec_localFrameWrap {s : State} (h : s.power = .running) (due : s.cdu.wrapDue = true) :
    exec .localFrameWrap s = .next s.addWrap.wrapTaken := by
  refine (whenRunning_eq h).trans ?_
  rw [if_pos due]

theorem State.wrapTaken_acts (s : State) : Acts [.cadence] s s.wrapTaken := s.putCdu_acts _

/-- R15: W added to O, which the frame start has taken modulo WF, is the 2^32 frames of the whole count added to O. -/
theorem wrapped_offset (f : Format) (o : Nat) :
    (o % wf f + wrapShift f) % wf f = (o + 2 ^ 32 % wf f) % wf f ∧ (o + 2 ^ 32 % wf f) % wf f = (4294967295 + 1 + o) % wf f := by
  cases f <;> simp only [wrapShift, wf, fpd] <;> omega

theorem State.turnExpired_iff {s : State} {f : LocalFrame} (turn : s.stc.turn = some f) :
    s.turnExpired = true ↔ 250 < (s.cdu.now - f).toNat := by
  simp only [State.turnExpired, turn, decide_eq_true_eq]
  rfl

theorem exec_turnRecordExpiry {s : State} (h : s.power = .running) :
    exec .turnRecordExpiry s = .next (if s.turnExpired then s.putStc { s.stc with turn := none } else s) :=
  whenRunning_eq h

/-- R2, R15: the frame start that takes the count past its last value leaves it at 0, with the wrap due. -/
theorem State.frameStart_wraps {s : State} (last : s.cdu.now = 4294967295) (k : Bool) :
    (s.frameStart k).cdu.now = 0 ∧ (s.frameStart k).cdu.wrapDue = true := by
  have zero : s.cdu.now + 1 = 0 := by rw [last]; rfl
  refine ⟨zero, ?_⟩
  show (s.cdu.wrapDue || s.cdu.now + 1 == 0) = true
  rw [zero]
  exact Bool.or_true _

/-- R15: the Station Clock after the frame start at which the count wraps and the wrap. -/
theorem State.addWrap_frameStart_stc (s : State) (k : Bool) :
    (s.frameStart k).addWrap.stc = { s.stc with offset := (s.stc.offset + 2 ^ 32 % wf s.live.format) % wf s.live.format } :=
  congrArg (fun o => { s.stc with offset := o }) (wrapped_offset s.live.format s.stc.offset).1

/-- R15: over that frame start and the wrap station now goes on by one frame. -/
theorem State.stationNow_addWrap_frameStart {s : State} (last : s.cdu.now = 4294967295) (k : Bool) :
    (s.frameStart k).addWrap.stationNow = (s.cdu.now.toNat + 1 + s.stc.offset) % wf s.live.format := by
  have zero := (State.frameStart_wraps last k).1
  calc (s.frameStart k).addWrap.stationNow
      = ((s.frameStart k).cdu.now.toNat + (s.frameStart k).addWrap.stc.offset) % wf s.live.format := rfl
    _ = (0 + (s.stc.offset + 2 ^ 32 % wf s.live.format) % wf s.live.format) % wf s.live.format := by
      rw [zero, State.addWrap_frameStart_stc]
      rfl
    _ = (s.cdu.now.toNat + 1 + s.stc.offset) % wf s.live.format := by
      rw [Nat.zero_add, Nat.mod_mod, (wrapped_offset _ _).2, last]
      rfl

/-- Settles O18: W is what the 2^32 frames that the count loses come to modulo WF. -/
theorem stationNowRunsOnAcrossTheWrap : Obligations.StationNowRunsOnAcrossTheWrap := by
  intro s running
  refine ⟨fun k _ last => ?_, fun f turn past => ?_, fun f turn kept => ?_⟩
  · obtain ⟨zero, due⟩ := State.frameStart_wraps last k
    have station := State.stationNow_addWrap_frameStart last k
    refine ⟨s.frameStart k, (s.frameStart k).addWrap.wrapTaken, exec_frameStart running k, exec_localFrameWrap running due, zero,
      station, fun same => station.trans ?_, s.addWrap_frameStart_stc k, rfl, ?_⟩
    · rw [same, State.stationNow, Nat.mod_add_mod, Nat.add_right_comm]
      rfl
    · exact ((State.putStc_acts _ _).only.mono (by simp)).trans ((State.wrapTaken_acts _).only.mono (by simp))
  · rw [exec_turnRecordExpiry running, if_pos ((State.turnExpired_iff turn).mpr past)]
    rfl
  · rw [exec_turnRecordExpiry running, if_neg fun expired => absurd ((State.turnExpired_iff turn).mp expired) (by omega)]

end Sys2Proof.Machine

namespace Sys2Proof.Machine

/-! ## Flags: what a setting reads back as (R172) -/

theorem deviceFlags_at_place (k : DeviceFlag) : deviceFlags[k.place.val]? = some k := by
  cases k with
  | feedSilent p => cases p <;> rfl
  | feedOverrun p => cases p <;> rfl
  | feedCheck p => cases p <;> rfl
  | siteSilent p => cases p <;> rfl
  | _ => rfl

theorem DeviceFlag.place_injective : Function.Injective DeviceFlag.place := fun a b h =>
  Option.some.inj (((deviceFlags_at_place a).symm.trans (by rw [h])).trans (deviceFlags_at_place b))

theorem channelFlags_at_place (k : ChannelFlag) : channelFlags[k.place.val]? = some k := by cases k <;> rfl

theorem ChannelFlag.place_injective : Function.Injective ChannelFlag.place := fun a b h =>
  Option.some.inj (((channelFlags_at_place a).symm.trans (by rw [h])).trans (channelFlags_at_place b))

theorem State.deviceFlag_raiseDevice (s : State) (k j : DeviceFlag) :
    (s.raiseDevice k).deviceFlag j = if j = k then true else s.deviceFlag j := by
  show (s.sli.device.set k.place.val true k.place.isLt)[j.place] = _
  split
  · next e => rw [e]; simp
  · next e =>
    have apart : k.place.val ≠ j.place.val := fun h => e (DeviceFlag.place_injective (Fin.ext h)).symm
    simp [apart, State.deviceFlag]

theorem State.channelFlag_raiseClassed (s : State) (k j : ChannelFlag) (c d : Channel) (u : Bool) :
    (s.raiseClassed k c u).channelFlag j d = if j = k ∧ d = c then true else s.channelFlag j d := by
  show (PerChannel.put s.sli.channel c ((s.sli.channel[c]).set k.place.val true k.place.isLt))[d][j.place] = _
  rw [PerChannel.get_put]
  by_cases hd : d = c
  · subst hd
    by_cases hj : j = k
    · subst hj; simp
    · have apart : k.place.val ≠ j.place.val := fun h => hj (ChannelFlag.place_injective (Fin.ext h)).symm
      simp [hj, apart, State.channelFlag]
  · simp [hd, State.channelFlag]

theorem State.channelFlag_raise (s : State) (k j : ChannelFlag) (c d : Channel) :
    (s.raise k c).channelFlag j d = if j = k ∧ d = c then true else s.channelFlag j d :=
  s.channelFlag_raiseClassed k j c d _

/-! ## What a change of health does to the flags (R109, R118, R126, R132, R136) -/

/-- The channel flags that are set stay set, and DIVERGED, which only the Schedule Store and R85 set, stays as it was. -/
structure FlagsRise (s t : State) : Prop where
  kept : ∀ k c, s.channelFlag k c = true → t.channelFlag k c = true
  diverged : ∀ c, t.channelFlag .diverged c = s.channelFlag .diverged c

theorem FlagsRise.refl (s : State) : FlagsRise s s := ⟨fun _ _ h => h, fun _ => rfl⟩

theorem FlagsRise.trans {s t u : State} (h : FlagsRise s t) (k : FlagsRise t u) : FlagsRise s u :=
  ⟨fun f c x => k.kept f c (h.kept f c x), fun c => (k.diverged c).trans (h.diverged c)⟩

theorem FlagsRise.ite {s t u : State} {p : Prop} [Decidable p] (h : FlagsRise s t) (k : FlagsRise s u) :
    FlagsRise s (if p then t else u) := by
  split
  · exact h
  · exact k

/-- What changes no channel's flags. -/
theorem OnlyChanges.flagsRise {ps : List Part} {s t : State} (h : OnlyChanges ps s t)
    (free : ∀ c, Part.channelFlags c ∉ ps) : FlagsRise s t := by
  have same (k : ChannelFlag) (c : Channel) : t.channelFlag k c = s.channelFlag k c := by
    have e : t.sli.channel[c] = s.sli.channel[c] := h (.channelFlags c) (free c)
    rw [State.channelFlag, State.channelFlag, e]
  exact ⟨fun k c x => (same k c).trans x, same .diverged⟩

/-- What the planning and the withdrawal of segments change is no flag. -/
theorem Acts.flagsRise_plan {c : Channel} {s t : State} (h : Acts (planParts c) s t) : FlagsRise s t :=
  h.only.flagsRise fun _ => by simp [planParts]

theorem State.raiseClassed_rise (s : State) {k : ChannelFlag} (other : k ≠ .diverged) (c : Channel) (u : Bool) :
    FlagsRise s (s.raiseClassed k c u) where
  kept j d h := by
    rw [State.channelFlag_raiseClassed]
    split
    · rfl
    · exact h
  diverged d := by rw [State.channelFlag_raiseClassed, if_neg fun e => other e.1.symm]

theorem State.raise_rise (s : State) {k : ChannelFlag} (other : k ≠ .diverged) (c : Channel) : FlagsRise s (s.raise k c) :=
  s.raiseClassed_rise other c _

theorem State.putAuthority_rise (s : State) (c : Channel) (r : Authority) : FlagsRise s (s.putAuthority c r) :=
  ⟨fun _ _ h => h, fun _ => rfl⟩

theorem State.noteExhausted_rise (s : State) (c : Channel) (b : Bool) : FlagsRise s (s.noteExhausted c b) :=
  (s.putCue_in c _).flagsRise_plan.trans (FlagsRise.ite (State.raise_rise _ (by decide) c) (FlagsRise.refl _))

theorem State.noteJoin_rise (s : State) (c : Channel) (j : Join) : FlagsRise s (s.noteJoin c j) :=
  (s.putCue_in c _).flagsRise_plan.trans (State.noteExhausted_rise _ c _)

theorem State.endAirAt_rise (s : State) (c : Channel) (e : LocalFrame) : FlagsRise s (s.endAirAt c e) := by
  unfold State.endAirAt State.amendAir
  split
  · exact s.putAuthority_rise c _
  · exact FlagsRise.refl s

theorem State.bridgeTo_rise (s : State) (c : Channel) (b : Bool) (x : Option Planned) (e : LocalFrame) :
    FlagsRise s (s.bridgeTo c b x e) := by
  have ends := s.endAirAt_rise c e
  have bridge (y : PlannedContent) (i : EventId) (f : LocalFrame) : FlagsRise s (s.appendSegment c y i f (some e) 1) :=
    (s.appendSegment_acts c y i f _ 1).flagsRise_plan
  unfold State.bridgeTo
  refine FlagsRise.ite ends ?_
  split
  · exact FlagsRise.ite (bridge _ _ _) ends
  · split
    · exact FlagsRise.ite (bridge _ _ _) ends
    · exact ends

theorem State.freshJoin_rise (s : State) (c : Channel) (b : Bool) : FlagsRise s (s.freshJoin c b) :=
  (s.withdrawPlan_acts c).flagsRise_plan.trans (((State.noteJoin_rise _ c _).trans (State.bridgeTo_rise _ c b _ _)).trans
    (State.appendSegment_acts _ c _ _ _ _ _).flagsRise_plan)

theorem State.planNext_rise (s : State) (c : Channel) (e : LocalFrame) : FlagsRise s (s.planNext c e) := by
  unfold State.planNext State.planAt
  split
  · exact FlagsRise.refl s
  · exact (s.noteExhausted_rise c _).trans (State.appendSegment_acts _ c _ _ _ _ _).flagsRise_plan

theorem State.announce_rise (s : State) (c : Channel) : FlagsRise s (s.announce c) :=
  ((s.evalTally_acts c).only.flagsRise fun _ => by simp).trans
    ((State.raise_rise _ (by decide) c).trans ((State.reportDue_acts _).only.flagsRise fun _ => by simp))

theorem State.setAuthority_rise (s : State) (c : Channel) (r : Authority) : FlagsRise s (s.setAuthority c r) :=
  (s.putAuthority_rise c r).trans (State.announce_rise _ c)

theorem State.arm_rise (s : State) (c : Channel) (o : Origin) : FlagsRise s (s.arm c o) :=
  (((s.putAuthority_rise c _).trans (State.noteJoin_rise _ c _)).trans (State.handOn_acts _ c _ 1).flagsRise_plan).trans
    (State.announce_rise _ c)

theorem State.armOrBlock_rise (s : State) (c : Channel) (o : Origin) : FlagsRise s (s.armOrBlock c o) :=
  FlagsRise.ite (s.arm_rise c o) (s.raise_rise (by decide) c)

theorem State.abort_rise (s : State) (c : Channel) (p : JoinPlan) : FlagsRise s (s.abort c p) :=
  (((s.withdrawSegment_acts c _ _).flagsRise_plan.trans (State.withdrawPlan_acts _ c).flagsRise_plan).trans
    (State.cueToMain_acts _ c).flagsRise_plan).trans (State.setAuthority_rise _ c _)

theorem State.resumePlan_rise (s : State) (c : Channel) (a : OnAir) : FlagsRise s (s.resumePlan c a) := by
  unfold State.resumePlan
  split
  · exact FlagsRise.ite (s.planNext_rise c _) (FlagsRise.refl s)
  · exact s.freshJoin_rise c false

theorem State.lapse_rise (s : State) (c : Channel) : FlagsRise s (s.lapse c) :=
  (s.raise_rise (by decide) c).trans (State.arm_rise _ c _)

theorem State.abortReturn_rise (s : State) (c : Channel) (p : Prior) (e : LocalFrame) (a : OnAir) :
    FlagsRise s (s.abortReturn c p e a) := by
  have dropped : FlagsRise s (s.dropReturn c e) :=
    (s.withdrawXp_in c e).flagsRise_plan.trans (State.raise_rise _ (by decide) c)
  cases p with
  | standby => exact (dropped.trans (State.setAuthority_rise _ c _)).trans (State.resumePlan_rise _ c a)
  | held h => exact (dropped.trans (State.setAuthority_rise _ c _)).trans (FlagsRise.ite (FlagsRise.refl _) (State.lapse_rise _ c))

theorem State.healthReaction_rise (s : State) (c : Channel) (h : Health) : FlagsRise s (s.healthReaction c h) := by
  unfold State.healthReaction
  split
  · exact FlagsRise.ite (s.armOrBlock_rise c _) (FlagsRise.refl s)
  · exact FlagsRise.ite (s.abort_rise c _) (FlagsRise.refl s)
  · exact FlagsRise.ite (FlagsRise.refl s) (s.abortReturn_rise c _ _ _)
  · exact FlagsRise.refl s
  · exact FlagsRise.refl s

/-! ## A change of health (R107, R109) -/

theorem State.isMain_iff {s : State} {c : Channel} : s.isMain c = true ↔ s.authority c = .main := by
  rw [State.isMain]
  cases s.authority c <;> simp [Authority.name]

/-- R118: a channel in MAIN answers a change of health only where it has become FAILED. -/
theorem State.healthReaction_main {s : State} {c : Channel} (main : s.isMain c = true) {h : Health} (live : h ≠ .failed) :
    s.healthReaction c h = s := by
  rw [State.healthReaction, State.isMain_iff.mp main]
  exact if_neg fun failed => live failed.1

theorem State.setHealth_same {s : State} {c : Channel} {h : Health} (same : (s.watched c).health = h) : s.setHealth c h = s :=
  if_pos same

theorem State.setHealth_change {s : State} {c : Channel} {h : Health} (change : (s.watched c).health ≠ h) :
    s.setHealth c h = (((s.storeHealth c h).raiseHealth c h).evalAlarm).healthReaction c h := if_neg change

theorem State.storeHealth_rise (s : State) (c : Channel) (h : Health) :
    FlagsRise s (((s.storeHealth c h).raiseHealth c h).evalAlarm) :=
  have raised := (s.storeHealth c h).raiseClassed_rise (k := .healthChange) (by decide) c h.urgent
  ⟨raised.kept, raised.diverged⟩

theorem State.setHealth_rise (s : State) (c : Channel) (h : Health) : FlagsRise s (s.setHealth c h) :=
  FlagsRise.ite (FlagsRise.refl s) ((s.storeHealth_rise c h).trans (State.healthReaction_rise _ c h))

theorem State.setHealth_flag {s : State} {c : Channel} {h : Health} (change : (s.watched c).health ≠ h) :
    (s.setHealth c h).channelFlag .healthChange c = true := by
  rw [State.setHealth_change change]
  refine (State.healthReaction_rise _ c h).kept _ _ ?_
  exact ((s.storeHealth c h).channelFlag_raiseClassed .healthChange .healthChange c c h.urgent).trans (if_pos ⟨rfl, rfl⟩)

/-- A change of health writes the health and the confirm timer of what SUP keeps of the channel. -/
theorem State.setHealth_watched (s : State) (c : Channel) (h : Health) :
    ∃ n, (s.setHealth c h).watched c = { s.watched c with health := h, confirm := n } := by
  by_cases same : (s.watched c).health = h
  · exact ⟨(s.watched c).confirm, by rw [State.setHealth_same same, ← same]⟩
  · refine ⟨confirmAfter (s.cfg c).confirm h, ?_⟩
    rw [State.setHealth_change same]
    have kept := (State.healthReaction_acts (((s.storeHealth c h).raiseHealth c h).evalAlarm) c h).only (.watched c)
      (by simp [authorityParts, cueParts, planParts, flagParts])
    exact Eq.trans kept ((s.watched_putWatched c c _).trans (if_pos rfl))

theorem State.setHealth_main {s : State} {c : Channel} (main : s.isMain c = true) {h : Health}
    (failed : h = .failed → (s.watched c).health = .failed) : (s.setHealth c h).isMain c = true := by
  by_cases same : (s.watched c).health = h
  · rw [State.setHealth_same same]
    exact main
  · have live : h ≠ .failed := fun e => same ((failed e).trans e.symm)
    rw [State.setHealth_change same, State.healthReaction_main (s := ((s.storeHealth c h).raiseHealth c h).evalAlarm) main live]
    exact main

/-- R107: no class makes a channel FAILED that is not. -/
theorem HealthClass.health_failed {k : HealthClass} {old : Health} (h : k.health old = .failed) : old = .failed := by
  cases k with
  | failing =>
    simp only [HealthClass.health] at h
    split at h
    · exact h
    · cases h
  | _ => cases h

/-! ## One channel's items of a heartbeat (R84, R105) -/

/-- The items are kept and the channel is heard, before any evaluation. -/
def State.keepItem (s : State) (c : Channel) (x : HeartbeatItem) : State :=
  s.putWatched c { s.watched c with heard := true, latestAir := some x.air, latestResume := some x.resumeReady }

/-- The health that the items come to: an evaluation's, where an input has changed or the channel has become heard. -/
def State.heardHealth (s : State) (c : Channel) (x : HeartbeatItem) : Health :=
  if (s.cfg c).enabled = true ∧ ((s.watched c).heard = false ∨ (s.watched c).latestAir ≠ some x.air) then
    (classOf s.linkUp (some x.air) (s.watched c).presence).health (s.watched c).health
  else (s.watched c).health

@[simp] theorem State.keepItem_watched (s : State) (c : Channel) (x : HeartbeatItem) :
    (s.keepItem c x).watched c
      = { s.watched c with heard := true, latestAir := some x.air, latestResume := some x.resumeReady } :=
  (s.watched_putWatched c c _).trans (if_pos rfl)

theorem State.keepItem_judged (s : State) (c : Channel) (x : HeartbeatItem) : (s.keepItem c x).judged c = (s.cfg c).enabled := by
  rw [State.judged, State.keepItem_watched]
  exact Bool.true_and _

theorem State.keepItem_healthClass (s : State) (c : Channel) (x : HeartbeatItem) :
    (s.keepItem c x).healthClass c = classOf s.linkUp (some x.air) (s.watched c).presence := by
  rw [State.healthClass, State.keepItem_watched]
  rfl

theorem State.keepItem_evaluate (s : State) (c : Channel) (x : HeartbeatItem) :
    (s.keepItem c x).evaluate c = if (s.cfg c).enabled = true then
      (s.keepItem c x).setHealth c ((classOf s.linkUp (some x.air) (s.watched c).presence).health (s.watched c).health)
    else s.keepItem c x := by
  rw [State.evaluate, State.keepItem_judged, State.keepItem_healthClass, State.keepItem_watched]

/-- The taking of a channel's items keeps them and makes the channel's health what they come to. -/
theorem State.hearItem_eq (s : State) (c : Channel) (x : HeartbeatItem) :
    s.hearItem c x = (s.keepItem c x).setHealth c (s.heardHealth c x) := by
  have unchanged : (s.keepItem c x).setHealth c (s.watched c).health = s.keepItem c x :=
    State.setHealth_same (by rw [State.keepItem_watched])
  show (if ((s.watched c).heard && (s.watched c).latestAir == some x.air) = true then s.keepItem c x
    else (s.keepItem c x).evaluate c) = _
  rw [State.keepItem_evaluate, State.heardHealth]
  by_cases known : (s.watched c).heard = true ∧ (s.watched c).latestAir = some x.air
  · rw [if_pos (by simp [known]), if_neg (by simp [known]), unchanged]
  · have changed : (s.watched c).heard = false ∨ (s.watched c).latestAir ≠ some x.air := by
      rw [← Bool.not_eq_true]
      exact not_and_or.mp known
    rw [if_neg (by simpa using known)]
    by_cases on : (s.cfg c).enabled = true
    · rw [if_pos on, if_pos ⟨on, changed⟩]
    · rw [if_neg on, if_neg fun e => on e.1, unchanged]

theorem State.hearItem_itemsHeard (s : State) (c : Channel) (x : HeartbeatItem) : itemsHeard s (s.hearItem c x) c x := by
  obtain ⟨n, heard⟩ := (s.keepItem c x).setHealth_watched c (s.heardHealth c x)
  rw [← State.hearItem_eq, State.keepItem_watched] at heard
  have flag (change : s.heardHealth c x ≠ (s.watched c).health) : (s.hearItem c x).channelFlag .healthChange c = true := by
    rw [State.hearItem_eq]
    exact State.setHealth_flag (by rw [State.keepItem_watched]; exact change.symm)
  unfold itemsHeard
  rw [heard]
  exact ⟨rfl, rfl, rfl, rfl, rfl, rfl, rfl, flag⟩

theorem State.hearItem_rise (s : State) (c : Channel) (x : HeartbeatItem) : FlagsRise s (s.hearItem c x) := by
  rw [State.hearItem_eq]
  have kept : FlagsRise s (s.keepItem c x) := ⟨fun _ _ set => set, fun _ => rfl⟩
  exact kept.trans (State.setHealth_rise _ c _)

theorem State.hearItem_main {s : State} {c : Channel} (main : s.isMain c = true) (x : HeartbeatItem) :
    (s.hearItem c x).isMain c = true := by
  rw [State.hearItem_eq]
  refine State.setHealth_main (s := s.keepItem c x) main fun failed => ?_
  rw [State.keepItem_watched]
  unfold State.heardHealth at failed
  split at failed
  · exact HealthClass.health_failed failed
  · exact failed

/-! ## The channels' turns -/

/-- What a heartbeat's turn of one channel reads and writes is the same in two states. -/
structure SameFor (c : Channel) (s t : State) : Prop where
  live : t.live = s.live
  link : t.linkUp = s.linkUp
  watched : t.watched c = s.watched c
  authority : t.authority c = s.authority c
  pages : t.pages c = s.pages c
  flags : ∀ k, t.channelFlag k c = s.channelFlag k c

theorem SameFor.refl (c : Channel) (s : State) : SameFor c s s := ⟨rfl, rfl, rfl, rfl, rfl, fun _ => rfl⟩

theorem SameFor.trans {c : Channel} {s t u : State} (h : SameFor c s t) (k : SameFor c t u) : SameFor c s u :=
  ⟨k.live.trans h.live, k.link.trans h.link, k.watched.trans h.watched, k.authority.trans h.authority, k.pages.trans h.pages,
    fun f => (k.flags f).trans (h.flags f)⟩

/-- The parts that those are. -/
def concerns (c : Channel) : List Part := [.settings, .watch, .watched c, .authority c, .pages c, .channelFlags c]

theorem OnlyChanges.sameFor {ps : List Part} {s t : State} (h : OnlyChanges ps s t) {c : Channel}
    (free : ∀ p ∈ concerns c, p ∉ ps) : SameFor c s t := by
  have out (p : Part) (hp : p ∈ concerns c) : p.same s t := h p (free p hp)
  have watch : t.sup.watch = s.sup.watch := out .watch (by simp [concerns])
  have flags : t.sli.channel[c] = s.sli.channel[c] := out (.channelFlags c) (by simp [concerns])
  exact
    { live := out .settings (by simp [concerns])
      link := by rw [State.linkUp, State.linkUp, watch]
      watched := out (.watched c) (by simp [concerns])
      authority := out (.authority c) (by simp [concerns])
      pages := out (.pages c) (by simp [concerns])
      flags := fun k => by rw [State.channelFlag, State.channelFlag, flags] }

/-- What a heartbeat can change in a channel's turn. -/
def turnPartsOf (c : Channel) : List Part := .pages c :: healthParts c

/-- A channel's turn is nothing to another channel. -/
theorem concerns_free {c d : Channel} (other : d ≠ c) : ∀ p ∈ concerns c, p ∉ turnPartsOf d := by
  simp [concerns, turnPartsOf, healthParts, authorityParts, cueParts, planParts, flagParts, other.symm]

theorem SameFor.foldl {c : Channel} {f : State → Channel → State} (others : ∀ d, d ≠ c → ∀ s, SameFor c s (f s d))
    {xs : List Channel} (absent : c ∉ xs) (s : State) : SameFor c s (xs.foldl f s) := by
  induction xs generalizing s with
  | nil => exact SameFor.refl c s
  | cons x xs ih =>
    rw [List.mem_cons, not_or] at absent
    exact (others x (Ne.symm absent.1) s).trans (ih absent.2 _)

/-- Where the turns of the others leave a channel alone, its own turn comes once, in a state that is as the first one for it, and
what its turn leaves stands at the end. -/
theorem State.eachChannel_turn {c : Channel} {f : State → Channel → State}
    (others : ∀ d, d ≠ c → ∀ s, SameFor c s (f s d)) (s : State) :
    ∃ u, SameFor c s u ∧ SameFor c (f u c) (s.eachChannel f) := by
  obtain ⟨before, after, split⟩ := List.append_of_mem (mem_channels c)
  have once := channels_nodup
  rw [split, List.nodup_middle, List.nodup_cons, List.mem_append, not_or] at once
  refine ⟨before.foldl f s, SameFor.foldl others once.1.1 s, ?_⟩
  rw [State.eachChannel, split, List.foldl_append, List.foldl_cons]
  exact SameFor.foldl others once.1.2 _

theorem State.hearItem_sameFor {c d : Channel} (other : d ≠ c) (s : State) (x : HeartbeatItem) :
    SameFor c s (s.hearItem d x) :=
  ((s.hearItem_acts d x).only.mono (List.subset_cons_self _ _)).sameFor (concerns_free other)

theorem State.divergenceCheck_only (s : State) (c : Channel) (id : EventId) :
    OnlyChanges (.pages c :: flagParts c) s (s.divergenceCheck c id) :=
  (Acts.ite (s.diverge_acts c) (Acts.refl _ s)).only

theorem pages_flags_sub_turn (c : Channel) : Part.pages c :: flagParts c ⊆ turnPartsOf c :=
  List.cons_subset_cons _ fun _ hp => authority_sub_health c (flags_sub_authority c hp)

theorem State.divergenceCheck_sameFor {c d : Channel} (other : d ≠ c) (s : State) (id : EventId) :
    SameFor c s (s.divergenceCheck d id) :=
  ((s.divergenceCheck_only d id).mono (pages_flags_sub_turn d)).sameFor (concerns_free other)

/-! ## The channels of a heartbeat (R84, R85) -/

/-- A channel's items depend on what is the same for it. -/
theorem itemsHeard_of_sameFor {s u v t : State} {c : Channel} {x : HeartbeatItem} (h : itemsHeard u v c x)
    (first : SameFor c s u) (watched : t.watched c = v.watched c)
    (flag : v.channelFlag .healthChange c = true → t.channelFlag .healthChange c = true) : itemsHeard s t c x := by
  unfold itemsHeard at h ⊢
  rw [watched, ← first.watched, ← first.link, ← State.cfg_eq first.live]
  obtain ⟨air, resume, heard, presence, run, count, health, raised⟩ := h
  exact ⟨air, resume, heard, presence, run, count, health, fun change => flag (raised change)⟩

/-- What the hearing of a heartbeat leaves of a channel for R85. -/
structure ReadyForCheck (c : Channel) (s t : State) : Prop where
  pages : t.pages c = s.pages c
  main : s.isMain c = true → t.isMain c = true
  diverged : t.channelFlag .diverged c = s.channelFlag .diverged c

theorem State.hearItem_ready (s : State) (c : Channel) (x : HeartbeatItem) : ReadyForCheck c s (s.hearItem c x) where
  pages := (s.hearItem_acts c x).only (.pages c) (by simp [healthParts, authorityParts, cueParts, planParts, flagParts])
  main h := State.hearItem_main h x
  diverged := (s.hearItem_rise c x).diverged c

theorem State.hearHeartbeat_channel (s : State) (h : Heartbeat) (c : Channel) :
    itemsHeard s (s.hearHeartbeat h) c h.items[c] ∧ ReadyForCheck c s (s.hearHeartbeat h) := by
  obtain ⟨u, first, last⟩ := State.eachChannel_turn (c := c) (f := fun s d => s.hearItem d h.items[d])
    (fun d other s => s.hearItem_sameFor other _) s
  have turn := u.hearItem_ready c h.items[c]
  refine ⟨itemsHeard_of_sameFor (u.hearItem_itemsHeard c h.items[c]) first last.watched fun e => (last.flags _).trans e,
    last.pages.trans (turn.pages.trans first.pages), fun main => ?_,
    (last.flags _).trans (turn.diverged.trans (first.flags _))⟩
  rw [show (s.hearHeartbeat h).isMain c = (u.hearItem c h.items[c]).isMain c from State.isMain_eq last.authority]
  exact turn.main ((State.isMain_eq first.authority).trans main)

theorem Pages.holds_iff {p : Pages} {page : Page} (active : p.active = some page) (id : EventId) :
    p.holds id = true ↔ (∃ e ∈ page.events, e.id = id) ∨ ∃ g, p.next = .ready g ∧ ∃ e ∈ g.events, e.id = id := by
  rw [Pages.holds, active]
  cases p.next <;> simp [activeEvents]

theorem State.diverge_pages {s : State} {c : Channel} {page : Page} (active : (s.pages c).active = some page) :
    (s.diverge c).pages c = { s.pages c with active := some { page with diverged := true } } := by
  refine (s.pages_putActive c c _).trans ?_
  rw [if_pos rfl, active]
  rfl

theorem State.diverge_flag (s : State) (c : Channel) (k : ChannelFlag) :
    (s.diverge c).channelFlag k c = if k = .diverged then true else s.channelFlag k c := by
  refine (State.channelFlag_raise _ .diverged k c c).trans ?_
  simp only [and_true]
  rfl

theorem State.divergenceCheck_flag {s : State} {c : Channel} {k : ChannelFlag} (set : s.channelFlag k c = true) (id : EventId) :
    (s.divergenceCheck c id).channelFlag k c = true := by
  unfold State.divergenceCheck
  split
  · rw [State.diverge_flag, set, ite_self]
  · exact set

theorem State.divergenceCheck_watched (s : State) (c : Channel) (id : EventId) :
    (s.divergenceCheck c id).watched c = s.watched c := s.divergenceCheck_only c id (.watched c) (by simp [flagParts])

theorem State.divergenceCheck_isMain (s : State) (c : Channel) (id : EventId) :
    (s.divergenceCheck c id).isMain c = s.isMain c :=
  State.isMain_eq (s.divergenceCheck_only c id (.authority c) (by simp [flagParts]))

/-- R85: a channel in MAIN whose pages do not hold the id diverges. -/
theorem State.divergenceCheck_diverges {s : State} {c : Channel} {id : EventId} {page : Page} (main : s.isMain c = true)
    (active : (s.pages c).active = some page) (named : id ≠ 0) (absent : (s.pages c).holds id = false) :
    s.divergenceCheck c id = s.diverge c := by
  unfold State.divergenceCheck
  have other : (id != 0) = true := bne_iff_ne.mpr named
  exact if_pos (by rw [main, active, other, absent]; rfl)

/-- R85: an id of 0 or one that the pages hold, an EMPTY page, and another authority leave the channel as it was. -/
theorem State.divergenceCheck_passes {s : State} {c : Channel} {id : EventId}
    (h : s.isMain c = false ∨ (s.pages c).active = none ∨ id = 0 ∨ (s.pages c).holds id = true) : s.divergenceCheck c id = s := by
  unfold State.divergenceCheck
  exact if_neg (by rcases h with h | h | h | h <;> simp [h])

/-- R85, where the hearing has left the channel's pages and DIVERGED as they were, and MAIN where it was MAIN. -/
theorem ReadyForCheck.checked {s v t : State} {c : Channel} (ready : ReadyForCheck c s v) {id : EventId}
    (last : SameFor c (v.divergenceCheck c id) t) : checked s t c id := by
  refine ⟨fun page active main named absent => ?_, fun passes => ?_⟩
  · have active' : (v.pages c).active = some page := by rw [ready.pages, active]
    have absent' : (v.pages c).holds id = false := by
      rw [← Bool.not_eq_true, Pages.holds_iff active', ready.pages]
      exact absent
    have turn := State.divergenceCheck_diverges (ready.main main) active' named absent'
    rw [turn] at last
    exact ⟨last.pages.trans ((State.diverge_pages active').trans (by rw [ready.pages])),
      (last.flags _).trans ((State.diverge_flag v c _).trans (if_pos rfl))⟩
  · have turn : v.divergenceCheck c id = v := by
      refine State.divergenceCheck_passes ?_
      rcases passes with zero | empty | ⟨page, active, found⟩ | ⟨-, off⟩
      · exact .inr (.inr (.inl zero))
      · exact .inr (.inl (by rw [ready.pages, empty]))
      · have active' : (v.pages c).active = some page := by rw [ready.pages, active]
        exact .inr (.inr (.inr ((Pages.holds_iff active' id).mpr (by rw [ready.pages]; exact found))))
      · exact .inl (by rw [← State.divergenceCheck_isMain v c id, ← State.isMain_eq last.authority, off])
    rw [turn] at last
    exact ⟨last.pages.trans ready.pages, (last.flags _).trans ready.diverged⟩

/-- What a heartbeat does to the channels: each takes its items, and then each is checked (R84, R85). -/
def State.hearAndCheck (s : State) (h : Heartbeat) : State :=
  (s.hearHeartbeat h).eachChannel fun s c => s.divergenceCheck c (h.items[c]).onAir

theorem State.hearAndCheck_channel (s : State) (h : Heartbeat) (c : Channel) :
    itemsHeard s (s.hearAndCheck h) c h.items[c] ∧ checked s (s.hearAndCheck h) c (h.items[c]).onAir := by
  obtain ⟨heard, ready⟩ := s.hearHeartbeat_channel h c
  obtain ⟨u, first, last⟩ := State.eachChannel_turn (c := c) (f := fun s d => s.divergenceCheck d (h.items[d]).onAir)
    (fun d other s => s.divergenceCheck_sameFor other _) (s.hearHeartbeat h)
  have ready' : ReadyForCheck c s u :=
    ⟨first.pages.trans ready.pages, fun main => (State.isMain_eq first.authority).trans (ready.main main),
      (first.flags _).trans ready.diverged⟩
  refine ⟨itemsHeard_of_sameFor heard (SameFor.refl c s) ?_ fun set => ?_, ready'.checked last⟩
  · exact last.watched.trans ((u.divergenceCheck_watched c _).trans first.watched)
  · exact (last.flags _).trans (State.divergenceCheck_flag ((first.flags _).trans set) _)

/-- What a heartbeat can change of the channels. -/
def turnParts : List Part := everyChannel turnPartsOf

theorem shared_free {p : Part} (free : ∀ c, p ∉ turnPartsOf c) : p ∉ turnParts := fun mem =>
  have ⟨c, _, mem⟩ := List.mem_flatMap.mp mem
  free c mem

theorem State.hearAndCheck_only (s : State) (h : Heartbeat) : OnlyChanges turnParts s (s.hearAndCheck h) := by
  have turn (c : Channel) : turnPartsOf c ⊆ turnParts := mem_everyChannel c
  have hearing : Acts turnParts s (s.hearHeartbeat h) :=
    Acts.eachChannel _ (fun s c => (s.hearItem_acts c _).mono fun _ hp => turn c (List.mem_cons_of_mem _ hp)) s
  have checking : Acts turnParts (s.hearHeartbeat h) (s.hearAndCheck h) :=
    Acts.eachChannel _ (fun s c => (Acts.ite (s.diverge_acts c) (Acts.refl _ s)).mono
      fun _ hp => turn c (pages_flags_sub_turn c hp)) _
  exact (hearing.trans checking).only

/-! ## The Station Clock at a heartbeat (R16, R17, R18) -/

theorem State.measured_eq (s : State) (h : Nat) (n : LocalFrame) : s.measured h n = measuredOffset s h n := by
  unfold State.measured measuredOffset wrapShift
  show (h + s.live.feedDelay + (wf s.live.format - n.toNat % wf s.live.format)
    + if s.cdu.now.toNat < n.toNat then 4294967296 % wf s.live.format else 0) % wf s.live.format = _
  cases s.live.format <;> simp only [wf, fpd] <;> split <;> omega

/-- R16: in UNSET and SET the measured offset is taken whole. -/
theorem State.takeStamp_whole {s : State} (state : s.stc.state = .unset ∨ s.stc.state = .set) (h : Nat) (n : LocalFrame) :
    s.takeStamp h n = s.putStc (Stc.taken (measuredOffset s h n) .locked) := by
  rcases state with state | state <;> simp only [State.takeStamp, state, State.measured_eq]

/-- The Station Clock LOCKED, its offset and tracking state as they were. -/
def State.lockClock (s : State) : State := s.putStc { s.stc with state := .locked }

/-- R17, R18: in LOCKED and HOLDOVER the measured offset is tracked. -/
theorem State.takeStamp_tracks {s : State} (state : s.stc.state = .locked ∨ s.stc.state = .holdover) (h : Nat)
    (n : LocalFrame) : s.takeStamp h n = s.lockClock.track (measuredOffset s h n) := by
  rcases state with state | state
  · have same : s.lockClock = s := by
      rw [State.lockClock, ← state]
      rfl
    simp only [State.takeStamp, state, State.measured_eq, same]
  · simp only [State.takeStamp, state, State.measured_eq, State.lockClock]

section
variable {s : State} {m : Nat}

theorem State.track_none (e : stationSigned s.live.format m s.stc.offset = 0) :
    s.track m = s.putStc { s.stc with candidates := 0, lastCandidate := none } := by
  simp [State.track, e]

theorem State.track_up (low : 0 < stationSigned s.live.format m s.stc.offset)
    (high : stationSigned s.live.format m s.stc.offset ≤ 25) : s.track m = s.slewStep .up := by
  rw [State.track, if_neg (by omega), if_pos low]

theorem State.track_down (high : stationSigned s.live.format m s.stc.offset < 0)
    (low : -25 ≤ stationSigned s.live.format m s.stc.offset) : s.track m = s.slewStep .down := by
  rw [State.track, if_neg (by omega), if_neg (by omega), if_pos high]

theorem State.track_far (far : 25 < stationSigned s.live.format m s.stc.offset ∨ stationSigned s.live.format m s.stc.offset < -25) :
    s.track m = s.candidate m := by
  rw [State.track, if_pos (by omega)]

end

theorem Stc.turns_iff (k : Stc) (d : SlewDir) : k.turns d = true ↔ k.slew = some d.opposite := beq_iff_eq

theorem State.slewStep_stc (s : State) (d : SlewDir) :
    (s.slewStep d).stc = ⟨slewed s.live.format s.stc.offset d, s.stc.state, some d,
      if s.stc.slew = some d.opposite then some s.cdu.now else s.stc.turn, 0, none⟩ := by
  have turn : (if s.stc.turns d = true then some s.now else s.stc.turn)
      = if s.stc.slew = some d.opposite then some s.cdu.now else s.stc.turn := by
    simp only [Stc.turns_iff]
    rfl
  rw [← turn]
  unfold State.slewStep
  dsimp only
  split <;> rfl

theorem State.slewStep_wander {s : State} {d : SlewDir} (turn : s.stc.slew = some d.opposite) (earlier : s.stc.turn.isSome = true) :
    (s.slewStep d).deviceFlag .offsetWander = true := by
  have wander : (s.stc.turns d && s.stc.turn.isSome) = true := by rw [(s.stc.turns_iff d).mpr turn, earlier]; rfl
  unfold State.slewStep
  dsimp only
  rw [if_pos wander, State.deviceFlag_raiseDevice, if_pos rfl]

/-- R18: the third candidate that agrees steps O. -/
theorem State.candidate_steps {s : State} {m : Nat} (third : 3 ≤ s.stc.counted s.live.format m) :
    (s.candidate m).stc = Stc.taken m s.stc.state ∧ (s.candidate m).deviceFlag .offsetStep = true := by
  unfold State.candidate
  rw [if_pos third, State.deviceFlag_raiseDevice]
  exact ⟨rfl, if_pos rfl⟩

theorem State.candidate_counts {s : State} {m : Nat} (early : s.stc.counted s.live.format m < 3) :
    (s.candidate m).stc = { s.stc with candidates := s.stc.counted s.live.format m, lastCandidate := some m } := by
  unfold State.candidate
  rw [if_neg (by omega)]
  rfl

theorem Stc.counted_agrees {f : Format} {k : Stc} {m l : Nat} (last : k.lastCandidate = some l) (counting : k.candidates ≠ 0)
    (close : (stationSigned f m l).natAbs ≤ 1) : k.counted f m = k.candidates + 1 := by
  simp [Stc.counted, last, counting, closeBy, close]

theorem Stc.counted_differs {f : Format} {k : Stc} {m l : Nat} (last : k.lastCandidate = some l)
    (apart : 1 < (stationSigned f m l).natAbs) : k.counted f m = 1 := by
  simp [Stc.counted, last, closeBy, Nat.not_le.mpr apart]

theorem Stc.counted_first {f : Format} {k : Stc} {m : Nat} (first : k.candidates = 0 ∨ k.lastCandidate = none) :
    k.counted f m = 1 := by
  unfold Stc.counted
  split
  · next l last =>
    rcases first with zero | missing
    · rw [if_pos zero]
    · rw [missing] at last
      cases last
  · rfl

theorem State.track_state (s : State) (m : Nat) : (s.track m).stc.state = s.stc.state := by
  have slew (d : SlewDir) : (s.slewStep d).stc.state = s.stc.state := by rw [State.slewStep_stc]
  have far : (s.candidate m).stc.state = s.stc.state := by
    by_cases third : 3 ≤ s.stc.counted s.live.format m
    · rw [(State.candidate_steps third).1]
      rfl
    · rw [State.candidate_counts (by omega)]
  unfold State.track
  dsimp only
  split
  · exact far
  · split
    · exact slew .up
    · split
      · exact slew .down
      · rfl

/-- R16: a matching heartbeat leaves the offset state LOCKED. -/
theorem State.takeStamp_state (s : State) (h : Nat) (n : LocalFrame) : (s.takeStamp h n).stc.state = .locked := by
  by_cases state : s.stc.state = .unset ∨ s.stc.state = .set
  · rw [State.takeStamp_whole state]
    rfl
  · have tracks : s.stc.state = .locked ∨ s.stc.state = .holdover := by
      cases e : s.stc.state <;> simp [e] at state ⊢
    rw [State.takeStamp_tracks tracks, State.track_state]
    rfl

/-! ## HEARTBEAT (R72, R82 to R85) -/

/-- R72: the frame whose turn it is is the one that the model takes next. -/
theorem takesNext_nextFrame {s : State} {p : FeedPort} {q : QueuedFrame} (take : takesNext s p q) : s.nextFrame = some (p, q) := by
  obtain ⟨-, -, -, turn, head⟩ := take
  have port : s.turnPort = p := by
    unfold State.turnPort
    rcases turn with rfl | ⟨empty, rfl⟩
    · rw [if_neg fun empty => by rw [List.isEmpty_iff.mp empty] at head; cases head]
    · rw [empty]
      rfl
  rw [State.nextFrame, port, head]
  rfl

theorem takesNext_intakeOpen {s : State} {p : FeedPort} {q : QueuedFrame} (take : takesNext s p q) : s.intakeOpen = true := by
  obtain ⟨-, idle, commit, -, -⟩ := take
  rw [State.intakeOpen, State.engineRunning, idle]
  cases due : s.sst.startDue
  · rfl
  · rw [commit due]
    rfl

theorem exec_heartbeat {s : State} {p : FeedPort} {h : Heartbeat} {n : LocalFrame} (take : takesNext s p ⟨n, .heartbeat h⟩) :
    exec .heartbeat s = .next ((s.dropHead p).takeHeartbeatFrame h n) := by
  refine (whenRunning_eq (f := fun s => s.takeKind .heartbeat) take.1).trans (congrArg _ ?_)
  rw [State.takeKind, takesNext_nextFrame take]
  exact if_pos ⟨takesNext_intakeOpen take, rfl⟩

/-- R72: what follows the taking of a frame leaves the intake as the taking left it. -/
theorem frameTaken_of_only {ps : List Part} {s t : State} {p : FeedPort} (h : OnlyChanges ps (s.dropHead p) t)
    (free : Part.intake ∉ ps) : frameTaken s t p := by
  have intake : (t.rpe.port.a.receiveSide, t.rpe.port.b.receiveSide, t.rpe.turn) = _ := h .intake free
  obtain ⟨a, b, turn⟩ : _ ∧ _ ∧ _ := by simpa only [Prod.mk.injEq] using intake
  have queueA : t.rpe.port.a.queue = (s.dropHead p).rpe.port.a.queue := congrArg Prod.fst a
  have queueB : t.rpe.port.b.queue = (s.dropHead p).rpe.port.b.queue := congrArg Prod.fst b
  cases p with
  | A => exact ⟨queueA.trans List.drop_one, queueB, turn⟩
  | B => exact ⟨queueB.trans List.drop_one, queueA, turn⟩

theorem State.takeHeartbeatFrame_match {s : State} {h : Heartbeat} (format : h.format.toNat = formatCode s.live.format)
    (n : LocalFrame) : s.takeHeartbeatFrame h n = (s.takeStamp h.stamp.toNat n).hearAndCheck h := if_pos format

theorem State.takeHeartbeatFrame_mismatch {s : State} {h : Heartbeat} (format : h.format.toNat ≠ formatCode s.live.format)
    (n : LocalFrame) : s.takeHeartbeatFrame h n = s.raiseDevice .formatMismatch := if_neg format

/-- R82: a heartbeat of another format sets FORMAT-MISMATCH and does nothing more. -/
theorem heartbeat_mismatch {s : State} {p : FeedPort} :
    frameTaken s ((s.dropHead p).raiseDevice .formatMismatch) p
      ∧ ((s.dropHead p).raiseDevice .formatMismatch).deviceFlag .formatMismatch = true
      ∧ (∀ k, k ≠ .formatMismatch → ((s.dropHead p).raiseDevice .formatMismatch).deviceFlag k = s.deviceFlag k)
      ∧ OnlyChanges (.intake :: deviceFlagParts) s ((s.dropHead p).raiseDevice .formatMismatch) := by
  have flag := (s.dropHead p).raiseDevice_acts .formatMismatch
  refine ⟨frameTaken_of_only flag.only (by simp [deviceFlagParts]), ?_, fun k other => ?_, ?_⟩
  · rw [State.deviceFlag_raiseDevice, if_pos rfl]
  · rw [State.deviceFlag_raiseDevice, if_neg other]
    rfl
  · exact ((s.dropHead_acts p).only.mono (by simp)).trans (flag.only.mono (List.subset_cons_self _ _))

/-- The channels' turns at a heartbeat keep the Station Clock and the device flags. -/
theorem State.hearAndCheck_clock (s : State) (h : Heartbeat) :
    (s.hearAndCheck h).stc = s.stc ∧ ∀ k, (s.hearAndCheck h).deviceFlag k = s.deviceFlag k := by
  have only := s.hearAndCheck_only h
  have device : (s.hearAndCheck h).sli.device = s.sli.device := only .deviceFlags
    (shared_free (by simp [turnPartsOf, healthParts, authorityParts, cueParts, planParts, flagParts]))
  refine ⟨only .clock (shared_free (by simp [turnPartsOf, healthParts, authorityParts, cueParts, planParts, flagParts])),
    fun k => ?_⟩
  rw [State.deviceFlag, State.deviceFlag, device]

theorem matched_keeps_intake : Part.intake ∉ trackParts ++ turnParts := by
  rw [List.mem_append, not_or]
  exact ⟨by simp [trackParts, deviceFlagParts],
    shared_free (by simp [turnPartsOf, healthParts, authorityParts, cueParts, planParts, flagParts])⟩

/-- What a matching heartbeat changes, past the taking of its frame. -/
theorem State.match_only (s : State) (h : Heartbeat) (n : LocalFrame) :
    OnlyChanges (trackParts ++ turnParts) s ((s.takeStamp h.stamp.toNat n).hearAndCheck h) :=
  ((s.takeStamp_acts _ n).only.mono (List.subset_append_left _ _)).trans
    ((State.hearAndCheck_only _ h).mono (List.subset_append_right _ _))

/-- The taking of a frame and the tracking of the offset are nothing to a channel. -/
theorem State.takeStamp_dropHead_sameFor (s : State) (p : FeedPort) (h : Nat) (n : LocalFrame) (c : Channel) :
    SameFor c s ((s.dropHead p).takeStamp h n) :=
  ((s.dropHead_acts p).only.sameFor (by simp [concerns])).trans
    (((s.dropHead p).takeStamp_acts h n).only.sameFor (by simp [concerns, trackParts, deviceFlagParts]))

/-- The divergence check of a channel depends on what is the same for it. -/
theorem checked_of_sameFor {s u t : State} {c : Channel} {id : EventId} (h : checked u t c id) (first : SameFor c s u) :
    checked s t c id := by
  unfold checked at h ⊢
  rw [first.pages, first.flags, State.isMain_eq first.authority] at h
  exact h

/-- R17: an error of 1 to 25 frames slews O up by one frame. -/
theorem State.lockClock_track_up {s : State} {m : Nat} (low : 0 < stationSigned s.live.format m s.stc.offset)
    (high : stationSigned s.live.format m s.stc.offset ≤ 25) :
    (s.lockClock.track m).stc = ⟨(s.stc.offset + 1) % wf s.live.format, .locked, some .up,
      if s.stc.slew = some .down then some s.cdu.now else s.stc.turn, 0, none⟩
    ∧ (s.stc.slew = some .down → s.stc.turn.isSome → (s.lockClock.track m).deviceFlag .offsetWander = true) := by
  rw [State.track_up (s := s.lockClock) low high]
  exact ⟨s.lockClock.slewStep_stc .up, fun turn earlier => State.slewStep_wander (s := s.lockClock) (d := .up) turn earlier⟩

/-- R17: an error of −1 to −25 frames slews O down by one frame. -/
theorem State.lockClock_track_down {s : State} {m : Nat} (high : stationSigned s.live.format m s.stc.offset < 0)
    (low : -25 ≤ stationSigned s.live.format m s.stc.offset) :
    (s.lockClock.track m).stc = ⟨(s.stc.offset + wf s.live.format - 1) % wf s.live.format, .locked, some .down,
      if s.stc.slew = some .up then some s.cdu.now else s.stc.turn, 0, none⟩
    ∧ (s.stc.slew = some .up → s.stc.turn.isSome → (s.lockClock.track m).deviceFlag .offsetWander = true) := by
  rw [State.track_down (s := s.lockClock) high low]
  exact ⟨s.lockClock.slewStep_stc .down, fun turn earlier => State.slewStep_wander (s := s.lockClock) (d := .down) turn earlier⟩

section
variable {s : State} {m : Nat}
  (far : 25 < stationSigned s.live.format m s.stc.offset ∨ stationSigned s.live.format m s.stc.offset < -25)
include far

/-- R18: a larger error whose candidate is the third that agrees steps O. -/
theorem State.lockClock_track_third {l : Nat} (last : s.stc.lastCandidate = some l) (two : s.stc.candidates = 2)
    (close : (stationSigned s.live.format m l).natAbs ≤ 1) :
    (s.lockClock.track m).stc = Stc.taken m .locked ∧ (s.lockClock.track m).deviceFlag .offsetStep = true := by
  have counted : s.lockClock.stc.counted s.live.format m = s.stc.candidates + 1 :=
    Stc.counted_agrees (k := s.lockClock.stc) last (by show s.stc.candidates ≠ 0; omega) close
  rw [State.track_far (s := s.lockClock) far]
  exact State.candidate_steps (s := s.lockClock) (by show 3 ≤ s.lockClock.stc.counted s.live.format m; omega)

/-- R18: any other candidate is counted and kept. -/
theorem State.lockClock_track_candidate {k : Nat} (counted : s.lockClock.stc.counted s.live.format m = k) (early : k < 3) :
    (s.lockClock.track m).stc = { s.stc with state := .locked, candidates := k, lastCandidate := some m } := by
  subst counted
  rw [State.track_far (s := s.lockClock) far]
  exact State.candidate_counts (s := s.lockClock) early

end

/-- The parts of a matching heartbeat are those that the command can reach. -/
theorem heartbeat_parts_reach : Part.intake :: (trackParts ++ turnParts) ⊆ Instr.heartbeat.reach := by
  intro q hq
  simp only [trackParts, turnParts, List.mem_cons, List.mem_append, List.cons_append] at hq
  show q ∈ [Part.intake, .clock] ++ deviceFlagParts ++ everyChannel turnPartsOf
  simp only [List.mem_cons, List.mem_append, List.not_mem_nil, or_false]
  tauto

/-- Settles O19: the offset by the cases of R16, R17 and R18, which the channels' turns leave alone; and each channel by its own turn,
which the others' leave alone. -/
theorem heartbeatMovesTheOffset : Obligations.HeartbeatMovesTheOffset := by
  intro s p h n take
  refine ⟨fun other => ?_, fun format => ?_⟩
  · refine ⟨_, exec_heartbeat take, ?_⟩
    rw [State.takeHeartbeatFrame_mismatch (s := s.dropHead p) other]
    exact heartbeat_mismatch
  intro m e
  have only := (s.dropHead p).match_only h n
  have sameFor := s.takeStamp_dropHead_sameFor p h.stamp.toNat n
  have state := (s.dropHead p).takeStamp_state h.stamp.toNat n
  have whole (unlocked : s.stc.state = .unset ∨ s.stc.state = .set) :
      ((s.dropHead p).takeStamp h.stamp.toNat n).stc = ⟨m, .locked, none, none, 0, none⟩ :=
    congrArg State.stc (State.takeStamp_whole (s := s.dropHead p) unlocked _ n)
  have tracks (locked : s.stc.state = .locked ∨ s.stc.state = .holdover) :
      (s.dropHead p).takeStamp h.stamp.toNat n = (s.dropHead p).lockClock.track m :=
    State.takeStamp_tracks (s := s.dropHead p) locked _ n
  have channel := ((s.dropHead p).takeStamp h.stamp.toNat n).hearAndCheck_channel h
  obtain ⟨clock, flags⟩ := ((s.dropHead p).takeStamp h.stamp.toNat n).hearAndCheck_clock h
  refine ⟨((s.dropHead p).takeStamp h.stamp.toNat n).hearAndCheck h,
    (exec_heartbeat take).trans (congrArg _ (State.takeHeartbeatFrame_match (s := s.dropHead p) format n)),
    frameTaken_of_only only matched_keeps_intake, (congrArg Stc.state clock).trans state, fun c => ?_,
    fun unlocked => clock.trans (whole unlocked), fun locked => ?_, ?_⟩
  · obtain ⟨heard, check⟩ := channel c
    exact ⟨itemsHeard_of_sameFor heard (sameFor c) rfl id, checked_of_sameFor check (sameFor c)⟩
  · rw [clock, flags, flags, tracks locked]
    refine ⟨fun zero => ?_, fun low high => ?_, fun high low => ?_, fun far => ⟨fun l last two close => ?_,
      fun l last one close => ?_, fun l last apart => ?_, fun first => ?_⟩⟩
    · exact congrArg State.stc (State.track_none (s := (s.dropHead p).lockClock) zero)
    · obtain ⟨stc, wander⟩ := State.lockClock_track_up (s := s.dropHead p) low high
      refine ⟨?_, ?_, ?_, ?_, ?_, wander⟩ <;> exact congrArg _ stc
    · obtain ⟨stc, wander⟩ := State.lockClock_track_down (s := s.dropHead p) high low
      refine ⟨?_, ?_, ?_, ?_, ?_, wander⟩ <;> exact congrArg _ stc
    · exact State.lockClock_track_third (s := s.dropHead p) far last two close
    · refine State.lockClock_track_candidate (s := s.dropHead p) far ?_ (by decide)
      have more : s.stc.candidates ≠ 0 := by omega
      exact (Stc.counted_agrees (k := (s.dropHead p).lockClock.stc) last more close).trans (congrArg (· + 1) one)
    · exact State.lockClock_track_candidate (s := s.dropHead p) far
        (Stc.counted_differs (k := (s.dropHead p).lockClock.stc) last apart) (by decide)
    · exact State.lockClock_track_candidate (s := s.dropHead p) far
        (Stc.counted_first (k := (s.dropHead p).lockClock.stc) first) (by decide)
  · exact (((s.dropHead_acts p).only.mono (by simp)).trans (only.mono (List.subset_cons_self _ _))).mono heartbeat_parts_reach

end Sys2Proof.Machine

namespace Sys2Proof.Machine

/-! ## Labels and their counts (R24 to R29)

Both stages go by way of a label's count of labels: stage A takes the skipped labels off it, stage B restores them and splits it. -/

/-- The labels of the day before this one, those that F30D skips counted too. -/
def Label.count (f : Format) (t : Label) : Nat := (3600 * t.hh + 60 * t.mm + t.ss) * base f + t.ff

/-- R28: the label of a day that a count of labels splits into. -/
def splitCount (f : Format) (day g : Nat) : Label :=
  { day, hh := g / base f / 3600, mm := g / base f / 60 % 60, ss := g / base f % 60, ff := g % base f }

theorem stageB_eq_splitCount (f : Format) (x : Nat) : stageB f x = splitCount f (x / fpd f) (labelCount f (x % fpd f)) := rfl

/-- The formats that skip no label. -/
theorem eq_f25_or_f30n {f : Format} (full : f ≠ .f30d) : f = .f25 ∨ f = .f30n := by
  cases f with
  | f25 => exact .inl rfl
  | f30d => exact absurd rfl full
  | f30n => exact .inr rfl

theorem frameOfDay_of_ne {f : Format} (full : f ≠ .f30d) (t : Label) : frameOfDay f t = t.count f := by
  obtain rfl | rfl := eq_f25_or_f30n full <;> rfl

theorem labelCount_of_ne {f : Format} (full : f ≠ .f30d) (d : Nat) : labelCount f d = d := by
  obtain rfl | rfl := eq_f25_or_f30n full <;> rfl

theorem fpd_of_ne {f : Format} (full : f ≠ .f30d) : fpd f = 86400 * base f := by
  obtain rfl | rfl := eq_f25_or_f30n full <;> rfl

theorem base_pos (f : Format) : 0 < base f := by cases f <;> decide

theorem fpd_pos (f : Format) : 0 < fpd f := by cases f <;> decide

/-- Splitting a count loses nothing of it. -/
theorem count_splitCount (f : Format) (day g : Nat) : (splitCount f day g).count f = g := by
  have second : 3600 * (g / base f / 3600) + 60 * (g / base f / 60 % 60) + g / base f % 60 = g / base f := by omega
  calc (splitCount f day g).count f = g / base f * base f + g % base f := congrArg (· * base f + g % base f) second
    _ = g := Nat.div_add_mod' g (base f)

/-- R28: the fields of a split count of the day are in their ranges. -/
theorem labelInRange_splitCount {f : Format} {day g : Nat} (week : day ≤ 6) (inDay : g < 86400 * base f) :
    labelInRange f (splitCount f day g) = true := by
  have second : g / base f < 86400 := Nat.div_lt_of_lt_mul (by rwa [Nat.mul_comm])
  refine labelInRange_iff.mpr ⟨week, ?_, ?_, ?_, Nat.mod_lt _ (base_pos f)⟩
  all_goals simp only [splitCount]; omega

/-- A label in range is what its own count splits into. -/
theorem splitCount_count {f : Format} {t : Label} (inRange : labelInRange f t = true) :
    splitCount f t.day (t.count f) = t := by
  obtain ⟨-, -, mm, ss, ff⟩ := labelInRange_iff.mp inRange
  have second : t.count f / base f = 3600 * t.hh + 60 * t.mm + t.ss := by
    rw [Label.count, Nat.add_comm, Nat.add_mul_div_right _ _ (base_pos f), Nat.div_eq_of_lt ff, Nat.zero_add]
  have frame : t.count f % base f = t.ff := by
    rw [Label.count, Nat.mul_add_mod_self_right, Nat.mod_eq_of_lt ff]
  obtain ⟨day, h, m, s, n⟩ := t
  simp only [splitCount, second, frame, Label.mk.injEq, true_and, and_true] at *
  omega

/-- R26: the labels that do not exist. -/
theorem labelAbsent_iff {f : Format} {t : Label} :
    labelAbsent f t = true ↔ f = .f30d ∧ t.ss = 0 ∧ t.ff < 2 ∧ t.mm % 10 ≠ 0 := by
  simp only [labelAbsent, Bool.and_eq_true, beq_iff_eq, bne_iff_ne, decide_eq_true_eq, and_assoc]

theorem adjustLabel_of_present {f : Format} {l : Label} (present : labelAbsent f l = false) : adjustLabel f l = l :=
  if_neg (Bool.eq_false_iff.mp present)

theorem adjustLabel_of_ne {f : Format} (full : f ≠ .f30d) (l : Label) : adjustLabel f l = l :=
  if_neg fun absent => full (labelAbsent_iff.mp absent).1

/-- R26: the adjustment keeps the day, the hour, the minute and the second. -/
theorem adjustLabel_fields (f : Format) (l : Label) :
    (adjustLabel f l).day = l.day ∧ (adjustLabel f l).hh = l.hh ∧ (adjustLabel f l).mm = l.mm ∧ (adjustLabel f l).ss = l.ss := by
  unfold adjustLabel
  split <;> exact ⟨rfl, rfl, rfl, rfl⟩

/-- R26: the label that stage A takes exists. -/
theorem labelAbsent_adjustLabel (f : Format) (t : Label) : labelAbsent f (adjustLabel f t) = false := by
  unfold adjustLabel
  split
  · refine Bool.eq_false_iff.mpr fun absent => ?_
    obtain ⟨-, -, early, -⟩ := labelAbsent_iff.mp absent
    exact absurd early (Nat.lt_irrefl 2)
  · next present => exact Bool.eq_false_iff.mpr present

/-- R25: the count takes in the labels that F30D skips, and the frame of the day leaves them out. -/
theorem frameOfDay_add_skippedLabels (t : Label) :
    frameOfDay .f30d t + skippedLabels (60 * t.hh + t.mm) = t.count .f30d := by
  simp only [frameOfDay, Label.count, skippedLabels, base]
  omega

/-- R29: in F30D the count of a frame of the day restores 18 labels for each whole block of ten minutes and 2 for each of the `k`
minutes begun since. So it lies `k` minutes into its block, and two labels or more into that minute unless `k` is 0. -/
theorem labelCount_f30d (d : Nat) :
    ∃ k, k ≤ 9 ∧ labelCount .f30d d = d + 18 * (d / 17982) + 2 * k ∧ labelCount .f30d d / 1800 = 10 * (d / 17982) + k
      ∧ (k ≠ 0 → 2 ≤ labelCount .f30d d % 1800) := by
  simp only [labelCount]
  split
  · exact ⟨0, by omega, rfl, by omega, by omega⟩
  · exact ⟨(d % 17982 - 2) / 1798, by omega, rfl, by omega, by omega⟩

/-- A count divides into the minute of the day and the labels of that minute. -/
theorem count_div_minute {t : Label} (inRange : labelInRange .f30d t = true) :
    t.count .f30d / 1800 = 60 * t.hh + t.mm ∧ t.count .f30d % 1800 = 30 * t.ss + t.ff := by
  obtain ⟨-, -, -, ss, ff⟩ := labelInRange_iff.mp inRange
  simp only [Label.count, base] at *
  omega

theorem labelCount_lt {f : Format} {d : Nat} (inDay : d < fpd f) : labelCount f d < 86400 * base f := by
  by_cases drop : f = .f30d
  · subst drop
    obtain ⟨k, block, count, -⟩ := labelCount_f30d d
    simp only [fpd, base] at *
    omega
  · rwa [labelCount_of_ne drop, ← fpd_of_ne drop]

/-- R29: the label of a frame of the day exists. -/
theorem labelAbsent_eq_false_of_count {f : Format} {t : Label} {d : Nat} (inRange : labelInRange f t = true)
    (count : t.count f = labelCount f d) : labelAbsent f t = false := by
  refine Bool.eq_false_iff.mpr fun absent => ?_
  obtain ⟨rfl, ss, ff, mm⟩ := labelAbsent_iff.mp absent
  obtain ⟨minute, late⟩ := count_div_minute inRange
  obtain ⟨k, block, -, minute', late'⟩ := labelCount_f30d d
  rw [count] at minute late
  omega

/-- R28: stage A's frame of the day undoes the restoring of the skipped labels. -/
theorem frameOfDay_of_count {f : Format} {t : Label} {d : Nat} (inRange : labelInRange f t = true)
    (count : t.count f = labelCount f d) : frameOfDay f t = d := by
  by_cases drop : f = .f30d
  · subst drop
    obtain ⟨minute, -⟩ := count_div_minute inRange
    obtain ⟨k, block, restored, minute', -⟩ := labelCount_f30d d
    rw [count] at minute
    have skipped := frameOfDay_add_skippedLabels t
    rw [count, skippedLabels] at skipped
    omega
  · rw [frameOfDay_of_ne drop, count, labelCount_of_ne drop]

/-- R29: restoring the skipped labels undoes stage A's frame of the day, for a label that exists. -/
theorem labelCount_frameOfDay {f : Format} {t : Label} (inRange : labelInRange f t = true)
    (present : labelAbsent f t = false) : labelCount f (frameOfDay f t) = t.count f := by
  by_cases drop : f = .f30d
  · subst drop
    have skipped := frameOfDay_add_skippedLabels t
    obtain ⟨minute, late⟩ := count_div_minute inRange
    obtain ⟨-, -, mm, -⟩ := labelInRange_iff.mp inRange
    obtain ⟨k, block, restored, minute', late'⟩ := labelCount_f30d (frameOfDay .f30d t)
    have restarts : t.mm % 10 ≠ 0 → 2 ≤ 30 * t.ss + t.ff := fun tenth => by
      by_contra early
      exact Bool.eq_false_iff.mp present (labelAbsent_iff.mpr ⟨rfl, by omega, by omega, tenth⟩)
    rw [skippedLabels] at skipped
    have sameBlock : frameOfDay .f30d t / 17982 = (60 * t.hh + t.mm) / 10 := by omega
    have sameMinute : k = (60 * t.hh + t.mm) % 10 := by omega
    omega
  · rw [labelCount_of_ne drop, frameOfDay_of_ne drop]

theorem labelInRange_stageB {f : Format} {x : Nat} (week : x < wf f) : labelInRange f (stageB f x) = true := by
  have day : x / fpd f < 7 := Nat.div_lt_of_lt_mul (by rwa [Nat.mul_comm])
  exact labelInRange_splitCount (by omega) (labelCount_lt (Nat.mod_lt _ (fpd_pos f)))

theorem count_stageB (f : Format) (x : Nat) : (stageB f x).count f = labelCount f (x % fpd f) := count_splitCount ..

/-- R23, R26, R27: what stage A converts, and to what. -/
theorem stageA_eq_some_iff {f : Format} {l : Label} {a : StageA} :
    stageA f l = some a ↔ labelInRange f l = true
      ∧ ⟨(adjustLabel f l).day * fpd f + frameOfDay f (adjustLabel f l), adjustLabel f l, labelAbsent f l⟩ = a := by
  rw [stageA, Option.ite_none_right_eq_some, Option.some.injEq]

theorem isSome_stageA_iff {f : Format} {l : Label} : (stageA f l).isSome ↔ labelInRange f l = true := by
  simp only [Option.isSome_iff_exists, stageA_eq_some_iff, exists_and_left, exists_eq', and_true]

/-- R28: stage A gives the station frame back from stage B's label. -/
theorem stageA_stageB {f : Format} {x : Nat} (week : x < wf f) : stageA f (stageB f x) = some ⟨x, stageB f x, false⟩ := by
  have inRange := labelInRange_stageB week
  have present := labelAbsent_eq_false_of_count inRange (count_stageB f x)
  have frame : (stageB f x).day * fpd f + frameOfDay f (stageB f x) = x := by
    rw [frameOfDay_of_count inRange (count_stageB f x)]
    exact Nat.div_add_mod' x (fpd f)
  exact stageA_eq_some_iff.mpr ⟨inRange, by rw [adjustLabel_of_present present, frame, present]⟩

/-- R27, R28: the day and the frame of the day of a label that exists divide again into the label. -/
theorem stageB_frame {f : Format} {t : Label} (inRange : labelInRange f t = true) (present : labelAbsent f t = false) :
    (t.day * fpd f + frameOfDay f t) / fpd f = t.day ∧ stageB f (t.day * fpd f + frameOfDay f t) = t := by
  obtain ⟨-, hh, mm, ss, ff⟩ := labelInRange_iff.mp inRange
  have inDay := frameOfDay_lt hh mm ss ff
  have day : (t.day * fpd f + frameOfDay f t) / fpd f = t.day := by
    rw [Nat.add_comm, Nat.add_mul_div_right _ _ (fpd_pos f), Nat.div_eq_of_lt inDay, Nat.zero_add]
  refine ⟨day, ?_⟩
  rw [stageB_eq_splitCount, day, Nat.mul_add_mod_self_right, Nat.mod_eq_of_lt inDay, labelCount_frameOfDay inRange present,
    splitCount_count inRange]

/-- Settles O23: the label splits the count of R29, so its own count is that one; stage A takes the same skipped labels off it. -/
theorem stageAInvertsStageB : Obligations.StageAInvertsStageB := by
  intro f x week t d
  have inRange : labelInRange f t = true := labelInRange_stageB week
  have count : t.count f = labelCount f d := count_stageB f x
  obtain ⟨-, hh, mm, ss, ff⟩ := labelInRange_iff.mp inRange
  have seconds : (t.hh * 60 + t.mm) * 60 + t.ss = 3600 * t.hh + 60 * t.mm + t.ss := by omega
  rw [seconds]
  refine ⟨rfl, hh, mm, ss, ff, fun full => count.trans (labelCount_of_ne full d), fun drop => ?_, fun drop tenth first => ?_,
    stageA_stageB week⟩
  · subst drop
    refine count.trans ?_
    simp only [labelCount]
    split <;> rfl
  · by_contra early
    have absent := labelAbsent_iff.mpr ⟨drop, first, by omega, tenth⟩
    exact Bool.eq_false_iff.mp (labelAbsent_eq_false_of_count inRange count) absent

/-- Settles O24: stage A's frame is that of the adjusted label, which exists and keeps the day, the minute and the second. -/
theorem stageAConvertsLabelsInRange : Obligations.StageAConvertsLabelsInRange := by
  intro f l
  refine ⟨labelInRange_iff.symm.trans isSome_stageA_iff.symm, fun a stage => ?_⟩
  have week := stageA_frame_lt stage
  obtain ⟨inRange, rfl⟩ := stageA_eq_some_iff.mp stage
  obtain ⟨day, hh, mm, ss⟩ := adjustLabel_fields f l
  obtain ⟨sameDay, back⟩ := stageB_frame (labelInRange_adjustLabel inRange) (labelAbsent_adjustLabel f l)
  refine ⟨week, sameDay.trans day, back, fun full => ?_, fun drop => ?_, labelAbsent_iff, rfl⟩
  · simp only [adjustLabel_of_ne full, frameOfDay_of_ne full, Label.count]
    exact (Nat.add_assoc ..).symm
  · subst drop
    have skipped := frameOfDay_add_skippedLabels (adjustLabel .f30d l)
    simp only [Label.count, skippedLabels, base, hh, mm, ss] at skipped
    simp only [day]
    omega

end Sys2Proof.Machine

namespace Sys2Proof.Machine

/-! ## A replication frame handed to the store (R72, R76, R79) -/

/-- What the Schedule Store is handed an accepted frame in: the frame has left its queue, and its number is the channel's baseline. -/
def State.received (s : State) (p : FeedPort) (c : Channel) (seq : SeqNo) : State := (s.dropHead p).putBaseline c (some seq)

theorem exec_feedKind (k : FeedKind) (s : State) : exec k.command s = whenRunning s fun s => s.takeKind k := by
  cases k <;> rfl

theorem takeReplication_of_accepted {s : State} {c : Channel} {seq : SeqNo} (accepted : acceptedNumber s c seq) (b : FeedBody) :
    s.takeReplication c seq b = (s.putBaseline c (some seq)).storeFrame c b := by
  unfold State.takeReplication
  rcases accepted with first | next
  · rw [first]
    rfl
  · have one : (seq - (seq - 1)).toNat = 1 := by bv_omega
    simp only [next, seqClass, one, if_true]

/-- R72, R79: a frame whose turn it is, with an accepted number, is handed to the store. -/
theorem exec_replication {s : State} {p : FeedPort} {n : LocalFrame} {c : Channel} {seq : SeqNo} {b : FeedBody}
    (take : takesNext s p ⟨n, .replication c seq b⟩) (accepted : acceptedNumber s c seq) :
    exec (FeedFrame.replication c seq b).kind.command s = .next ((s.received p c seq).storeFrame c b) := by
  rw [exec_feedKind, whenRunning_eq take.1, State.takeKind, takesNext_nextFrame take]
  dsimp only
  rw [if_pos ⟨takesNext_intakeOpen take, rfl⟩]
  exact congrArg _ (takeReplication_of_accepted (s := s.dropHead p) accepted b)

/-- The number of an accepted frame is the baseline, which nothing at the store changes (R77). -/
theorem baseline_of_received {ps : List Part} {s t : State} {p : FeedPort} {c : Channel} {seq : SeqNo}
    (h : OnlyChanges ps (s.received p c seq) t) (free : Part.baseline c ∉ ps) : t.rpe.baseline[c] = some seq := by
  have kept : t.rpe.baseline[c] = (s.received p c seq).rpe.baseline[c] := h (.baseline c) free
  exact kept.trans (PerChannel.get_put_self _ _ _)

theorem frameTaken_of_received {ps : List Part} {s t : State} {p : FeedPort} {c : Channel} {seq : SeqNo}
    (h : OnlyChanges ps (s.received p c seq) t) (free : Part.intake ∉ ps) : frameTaken s t p :=
  frameTaken_of_only (ps := .baseline c :: ps)
    (((State.putBaseline_acts _ c _).only.mono (by simp)).trans (h.mono (List.subset_cons_self _ _))) (by simp [free])

/-- What a frame changes: the intake, its channel's baseline, and what the store changes. -/
theorem OnlyChanges.of_received {ps : List Part} {s t : State} {p : FeedPort} {c : Channel} {seq : SeqNo}
    (h : OnlyChanges ps (s.received p c seq) t) : OnlyChanges (.intake :: .baseline c :: ps) s t :=
  (((s.dropHead_acts p).only.mono (by simp)).trans ((State.putBaseline_acts _ c _).only.mono (by simp))).trans
    (h.mono fun _ hp => by simp [hp])

theorem intake_not_list (c : Channel) : Part.intake ∉ listParts c := by simp [listParts, flagParts]

theorem baseline_not_list (c : Channel) : Part.baseline c ∉ listParts c := by simp [listParts, flagParts]

theorem list_parts_received (c : Channel) :
    Part.intake :: .baseline c :: listParts c ⊆ [.intake, .engine, .baseline c, .pages c] ++ flagParts c := by
  simp [listParts, flagParts]

/-! ## The LOADING page, and the discarding of a next page (R47, R59) -/

theorem loadingPage_of_loading {s : State} {c : Channel} {g : LoadPage} (next : (s.pages c).next = .loading g) :
    s.loadingPage c = some g := by
  rw [State.loadingPage, next]

theorem loadingPage_eq_none {s : State} {c : Channel} (other : ∀ g, (s.pages c).next ≠ .loading g) : s.loadingPage c = none := by
  unfold State.loadingPage
  split
  · next g next => exact absurd next (other g)
  all_goals rfl

theorem State.sst_raiseIf (s : State) (b : Bool) (k : ChannelFlag) (c : Channel) : (s.raiseIf b k c).sst = s.sst := by
  unfold State.raiseIf
  split <;> rfl

theorem State.channelFlag_raiseIf (s : State) (b : Bool) (k j : ChannelFlag) (c : Channel) :
    (s.raiseIf b k c).channelFlag j c = if j = k ∧ b = true then true else s.channelFlag j c := by
  cases b
  · simp [State.raiseIf]
  · simp [State.raiseIf, State.channelFlag_raise]

section
variable (s : State) (c : Channel)

theorem State.sst_discardNext : (s.discardNext c).sst = ((s.leaveQueue c).putNext c .empty).sst := State.sst_raiseIf _ _ _ _

theorem State.pages_discardNext : (s.discardNext c).pages c = ⟨(s.pages c).active, .empty⟩ := by
  rw [State.pages, State.sst_discardNext]
  exact (State.pages_putNext (s.leaveQueue c) c c .empty).trans (if_pos rfl)

theorem State.queue_discardNext : (s.discardNext c).sst.queue = s.sst.queue.filter (· != c) := by
  rw [State.sst_discardNext]
  rfl

/-- R59: a discarded page's flip sets FLIP-MISSED, and the discarding sets no other flag. -/
theorem State.channelFlag_discardNext (k : ChannelFlag) :
    (s.discardNext c).channelFlag k c
      = if k = .flipMissed ∧ (s.pages c).next.flip.isSome = true then true else s.channelFlag k c :=
  State.channelFlag_raiseIf _ _ _ _ _

theorem State.discardNext_flipMissed (flip : (s.pages c).next.flip.isSome = true) :
    (s.discardNext c).channelFlag .flipMissed c = true := by
  rw [State.channelFlag_discardNext, if_pos ⟨rfl, flip⟩]

theorem State.discardNext_otherFlag {k : ChannelFlag} (other : k ≠ .flipMissed) :
    (s.discardNext c).channelFlag k c = s.channelFlag k c := by
  rw [State.channelFlag_discardNext, if_neg fun h => other h.1]

theorem State.discardNext_noFlip (flip : (s.pages c).next.flip = none) : (s.discardNext c).sli = s.sli := by
  rw [State.discardNext, flip]
  rfl

end

/-! ## LIST BEGIN (R49) -/

theorem State.pages_beginList (s : State) (c : Channel) (serial : BitVec 16) (day count : Nat) :
    (s.beginList c serial day count).pages c
      = ⟨(s.pages c).active, .loading ⟨day, serial, count, [], decide (6 < day ∨ count = 0 ∨ 1024 < count), none⟩⟩ := by
  have broken : (decide (6 < day) || count == 0 || decide (1024 < count)) = decide (6 < day ∨ count = 0 ∨ 1024 < count) := by
    simp only [Bool.decide_or, Bool.or_assoc, beq_eq_decide]
  rw [State.beginList, State.pages_putNext, if_pos rfl, State.pages_discardNext, broken]

/-- Settles O27: the discarding of the next page gives the flags and the commit queue, and the LOADING page takes its place. -/
theorem listBeginOpensALoadingPage : Obligations.ListBeginOpensALoadingPage := by
  intro s p n c seq serial day count take accepted
  have only := ((s.received p c seq).beginList_acts c serial day.toNat count.toNat).only
  refine ⟨_, exec_replication take accepted, frameTaken_of_received only (intake_not_list c),
    baseline_of_received only (baseline_not_list c), State.pages_beginList _ c _ _ _, State.queue_discardNext _ c,
    fun flip => ?_, fun flip => ?_, fun k other => ?_, only.of_received.mono (list_parts_received c)⟩
  · exact (s.received p c seq).discardNext_flipMissed c flip
  · exact congrArg (fun k : Sli => k.channel[c]) ((s.received p c seq).discardNext_noFlip c flip)
  · exact (s.received p c seq).discardNext_otherFlag c other

/-! ## LIST END and LIST ABORT (R51, R52) -/

/-- R52: the page is not BROKEN and agrees with its LIST END, and its first event is HARD. -/
theorem listAccepted_iff {g : LoadPage} {serial : BitVec 16} {count : Nat} :
    listAccepted g serial count = true ↔ g.broken = false ∧ serial = g.serial ∧ count = g.declared ∧ count = g.events.length
      ∧ ∀ e, g.events.head? = some e → e.isHard = true := by
  unfold listAccepted
  cases g.events <;> simp [and_assoc]

section
variable {s : State} {c : Channel} {g : LoadPage} (next : (s.pages c).next = .loading g) {serial : BitVec 16} {count : Nat}
include next

/-- R52: an accepted page is COMMITTING, at the tail of the commit queue. -/
theorem State.endList_accepted (accepted : listAccepted g serial count = true) :
    ((s.endList c serial count).pages c = ⟨(s.pages c).active, .committing g⟩)
      ∧ (s.endList c serial count).sst.queue = s.sst.queue ++ [c] ∧ (s.endList c serial count).sli = s.sli := by
  have run : s.endList c serial count =
      { s.putNext c (.committing g) with sst := { (s.putNext c (.committing g)).sst with queue := s.sst.queue ++ [c] } } := by
    rw [State.endList, loadingPage_of_loading next]
    exact if_pos accepted
  rw [run]
  exact ⟨(State.pages_putNext s c c (.committing g)).trans (if_pos rfl), rfl, rfl⟩

/-- R52: any other page is discarded, with LIST-REJECTED. -/
theorem State.endList_rejected (rejected : listAccepted g serial count = false) :
    s.endList c serial count = (s.discardNext c).raise .listRejected c := by
  rw [State.endList, loadingPage_of_loading next]
  exact if_neg (Bool.eq_false_iff.mp rejected)

theorem State.endList_active : ((s.endList c serial count).pages c).active = (s.pages c).active := by
  cases verdict : listAccepted g serial count
  · rw [State.endList_rejected next verdict]
    show ((s.discardNext c).pages c).active = _
    rw [State.pages_discardNext]
  · rw [(State.endList_accepted next verdict).1]

theorem State.abortList_loading : s.abortList c = s.discardNext c := by
  rw [State.abortList, loadingPage_of_loading next]

end

/-- R51: a LIST END, a LIST ABORT and an EVENT do nothing for a channel that is not LOADING. -/
theorem State.storeFrame_not_loading {s : State} {c : Channel} {b : FeedBody} (other : ∀ g, (s.pages c).next ≠ .loading g)
    (kind : b = .listAbort ∨ (∃ x y, b = .listEnd x y) ∨ ∃ r, b = .event r) : s.storeFrame c b = s := by
  have noPage := loadingPage_eq_none other
  rcases kind with rfl | ⟨x, y, rfl⟩ | ⟨r, rfl⟩
  · rw [State.storeFrame, State.abortList, noPage]
  · rw [State.storeFrame, State.endList, noPage]
  · rw [State.storeFrame, State.takeEventRecord, noPage]

/-- Settles O29: LIST END by its two verdicts, LIST ABORT by the discarding, and a channel that is not LOADING by the store's doing
nothing. -/
theorem listEndAndAbortCloseTheLoadingPage : Obligations.ListEndAndAbortCloseTheLoadingPage := by
  intro s p n c seq accepted
  refine ⟨fun serial count g take next => ?_, fun g take next => ?_, fun b take other kind => ?_⟩
  · have only := ((s.received p c seq).endList_acts c serial count.toNat).only
    refine ⟨_, exec_replication take accepted, frameTaken_of_received only (intake_not_list c),
      baseline_of_received only (baseline_not_list c), State.endList_active (s := s.received p c seq) next,
      fun whole sameSerial sameCount held first => ?_, fun failed => ?_, only.of_received.mono (list_parts_received c)⟩
    · have verdict : listAccepted g serial count.toNat = true :=
        listAccepted_iff.mpr ⟨whole, sameSerial, sameCount, sameCount.trans held.symm, first⟩
      obtain ⟨page, queue, flags⟩ := State.endList_accepted (s := s.received p c seq) next verdict
      exact ⟨congrArg Pages.next page, queue, congrArg (fun k : Sli => k.channel[c]) flags⟩
    · have verdict : listAccepted g serial count.toNat = false := by
        rw [Bool.eq_false_iff, ne_eq, listAccepted_iff]
        rintro ⟨whole, sameSerial, sameCount, held, first⟩
        rcases failed with broken | otherSerial | otherCount | missing | ⟨e, head, follow⟩
        · exact absurd (whole.symm.trans broken) (by decide)
        · exact otherSerial sameSerial
        · exact otherCount sameCount
        · exact missing held.symm
        · exact absurd (follow.symm.trans (first e head)) (by decide)
      have flip_eq : (s.pages c).next.flip = g.flip := congrArg NextPage.flip next
      simp only [State.storeFrame, State.endList_rejected (s := s.received p c seq) next verdict, State.channelFlag_raise]
      refine ⟨congrArg Pages.next (State.pages_discardNext (s.received p c seq) c), by simp, fun flip => ?_⟩
      rw [if_neg (by simp)]
      exact (s.received p c seq).discardNext_flipMissed c (flip_eq ▸ flip)
  · have run := State.abortList_loading (s := s.received p c seq) next
    have only := ((s.received p c seq).discardNext_acts c).only
    have flip_eq : (s.pages c).next.flip = g.flip := congrArg NextPage.flip next
    exact ⟨_, (exec_replication take accepted).trans (congrArg _ run), frameTaken_of_received only (intake_not_list c),
      baseline_of_received only (baseline_not_list c), State.pages_discardNext _ c,
      fun flip => (s.received p c seq).discardNext_flipMissed c (flip_eq ▸ flip),
      fun k other => (s.received p c seq).discardNext_otherFlag c other, only.of_received.mono (list_parts_received c)⟩
  · have only := OnlyChanges.refl [] (s.received p c seq)
    exact ⟨_, (exec_replication take accepted).trans (congrArg _ (State.storeFrame_not_loading other kind)),
      frameTaken_of_received only (by simp), only.of_received⟩

/-! ## FLIP (R57) -/

section
variable {s : State} {c : Channel} {x : TimeBytes}

theorem State.recordFlip_recorded {a : StageA} (stage : stageA s.live.format (labelOf x) = some a)
    (held : (s.pages c).next ≠ .empty) : s.recordFlip c x = s.putNext c ((s.pages c).next.withFlip a.frame) := by
  unfold State.recordFlip
  rw [stage]
  cases next : (s.pages c).next with
  | empty => exact absurd next held
  | loading _ => rfl
  | committing _ => rfl
  | ready _ => rfl

theorem State.recordFlip_missed (missed : stageA s.live.format (labelOf x) = none ∨ (s.pages c).next = .empty) :
    s.recordFlip c x = s.raise .flipMissed c := by
  unfold State.recordFlip
  rcases missed with stage | next
  · rw [stage]
  · rw [next]
    cases stageA s.live.format (labelOf x) <;> rfl

end

/-- A flip recorded on a next page that is not EMPTY is its pending flip, and leaves its events and its state as they were. -/
theorem NextPage.withFlip_spec {g : NextPage} (held : g ≠ .empty) (f : Nat) :
    (g.withFlip f).flip = some f ∧ (g.withFlip f).events = g.events ∧ (g.withFlip f).name = g.name := by
  cases g with
  | empty => exact absurd rfl held
  | loading _ => exact ⟨rfl, rfl, rfl⟩
  | committing _ => exact ⟨rfl, rfl, rfl⟩
  | ready _ => exact ⟨rfl, rfl, rfl⟩

/-- Settles O30: the flip is recorded on the page, or sets FLIP-MISSED and nothing else. -/
theorem flipIsRecordedOrMissed : Obligations.FlipIsRecordedOrMissed := by
  intro s p n c seq x take accepted
  refine ⟨fun a stage held => ?_, fun missed => ?_⟩
  · have run : (s.received p c seq).recordFlip c x = (s.received p c seq).putNext c ((s.pages c).next.withFlip a.frame) :=
      State.recordFlip_recorded (s := s.received p c seq) stage held
    have only := ((s.received p c seq).putNext_acts c ((s.pages c).next.withFlip a.frame)).only
    have page : ((s.received p c seq).putNext c ((s.pages c).next.withFlip a.frame)).pages c
        = ⟨(s.pages c).active, (s.pages c).next.withFlip a.frame⟩ := (State.pages_putNext _ _ _ _).trans (if_pos rfl)
    obtain ⟨flip, events, name⟩ := NextPage.withFlip_spec held a.frame
    refine ⟨_, (exec_replication take accepted).trans (congrArg _ run), frameTaken_of_received only (by simp),
      baseline_of_received only (by simp), ?_⟩
    rw [page]
    exact ⟨rfl, flip, events, name, only.of_received⟩
  · have run := State.recordFlip_missed (s := s.received p c seq) missed
    have only := ((s.received p c seq).raise_acts .flipMissed c).only
    refine ⟨_, (exec_replication take accepted).trans (congrArg _ run), frameTaken_of_received only (by simp [flagParts]),
      ?_, fun k other => ?_, only.of_received⟩
    · exact (State.channelFlag_raise ..).trans (if_pos ⟨rfl, rfl⟩)
    · exact (State.channelFlag_raise ..).trans (if_neg fun h => other h.1)

/-! ## Event records (R31, R44, R191) -/

/-- R44, R191: the conditions of a well-formed record, field by field. -/
theorem recordFormed_iff {r : EventRecord} :
    recordFormed r = true ↔ r.id ≠ 0 ∧ r.startMode.toNat ≤ 1 ∧ r.kind.toNat ≤ 2 ∧ r.policy.toNat ≤ 1 ∧ r.clipId.length ≤ 32
      ∧ (r.startMode = 0 → r.start.isSome = true) ∧ (r.kind = 0 → r.clipId ≠ []) ∧ (r.kind = 1 → r.live.isSome = true) := by
  simp [recordFormed, and_assoc, BitVec.le_def, Decidable.imp_iff_not_or]

theorem durationInRange_iff {f : Format} {d : Nat} : durationInRange f d = true ↔ 1 ≤ d ∧ d ≤ fpd f := by
  simp [durationInRange]

/-- R44: the start and the ADJUSTED mark that a record gives on a page of a base day; none for a HARD one that fails as BAD-TIME. -/
def recordStart (f : Format) (day : Nat) (r : EventRecord) : Option (StartMode × Bool) :=
  if r.startMode = 0 then (r.start.bind fun t => stageA f (labelOf t)).map fun a => (hardStart f day a, a.adjusted)
  else some (.follow, false)

theorem formEvent_eq (f : Format) (day : Nat) (r : EventRecord) :
    formEvent f day r = if recordFormed r = true ∧ durationInRange f r.duration.toNat = true then
      (recordStart f day r).map fun m => recordEvent r m.1 m.2 else none := by
  simp only [formEvent, recordStart, Bool.and_eq_true]
  split
  · split
    · rw [Option.map_map]
      rfl
    · rfl
  · rfl

/-- A start is given to a FOLLOW record, and to a HARD one that stage A converts. -/
theorem isSome_recordStart_iff {f : Format} {day : Nat} {r : EventRecord} :
    (recordStart f day r).isSome = true ↔
      (r.startMode = 0 → ∃ x a, r.start = some x ∧ stageA f (labelOf x) = some a) := by
  unfold recordStart
  split
  · next hard =>
    rw [Option.isSome_map, Option.isSome_iff_exists]
    simp only [Option.bind_eq_some_iff, hard, forall_const]
    exact exists_comm
  · next follow => exact iff_of_true rfl fun hard => absurd hard follow

/-- A record gives an event where it is good, and only there. -/
theorem isSome_formEvent_iff {f : Format} {day : Nat} {r : EventRecord} :
    (formEvent f day r).isSome = true ↔ recordGood f r := by
  have parts : (formEvent f day r).isSome = true ↔ (recordFormed r = true ∧ durationInRange f r.duration.toNat = true)
      ∧ (recordStart f day r).isSome = true := by
    rw [formEvent_eq]
    split
    · next formed => rw [Option.isSome_map, and_iff_right formed]
    · next formed => exact iff_of_false (by simp) fun h => formed h.1
  rw [parts, recordFormed_iff, durationInRange_iff, isSome_recordStart_iff]
  constructor
  · rintro ⟨⟨⟨id, mode, kind, policy, clip, -, named, live⟩, low, high⟩, start⟩
    exact ⟨id, mode, kind, policy, clip, start, named, live, low, high⟩
  · rintro ⟨id, mode, kind, policy, clip, start, named, live, low, high⟩
    refine ⟨⟨⟨id, mode, kind, policy, clip, fun hard => ?_, named, live⟩, low, high⟩, start⟩
    obtain ⟨x, a, given, -⟩ := start hard
    exact Option.isSome_of_eq_some given

/-- R31: the relative start of a HARD event is the integer difference from the page base, modulo WF. -/
theorem hardStart_eq (f : Format) (day : Nat) (a : StageA) :
    hardStart f day a = .hard a.label (((a.frame : Int) - day * fpd f) % wf f).toNat := by
  rw [hardStart, relativeFrame, stationDiff_eq_emod, pageBase, Int.natCast_mul]

theorem eventOf_of_formEvent {f : Format} {day : Nat} {r : EventRecord} {e : Event} (formed : formEvent f day r = some e) :
    eventOf f day r e := by
  rw [formEvent_eq, Option.ite_none_right_eq_some] at formed
  obtain ⟨m, start, rfl⟩ := Option.map_eq_some_iff.mp formed.2
  refine ⟨rfl, rfl, rfl, rfl, fun hard x a given stage => ?_, fun follow => ?_, fun clip => ?_, fun live x given => ?_,
    fun fill => ?_⟩
  · have converts : stageA f (labelOf x) = some a := stage
    rw [recordStart, if_pos hard, given, Option.bind_some, converts] at start
    cases start
    exact ⟨hardStart_eq f day a, rfl⟩
  · rw [recordStart, if_neg (by rw [follow]; decide)] at start
    cases start
    exact ⟨rfl, rfl⟩
  · refine (if_pos clip).trans ?_
    cases r.trim <;> rfl
  · refine (if_neg (by rw [live]; decide)).trans ((if_pos live).trans ?_)
    rw [given]
    rfl
  · exact (if_neg (by rw [fill]; decide)).trans (if_neg (by rw [fill]; decide))

/-! ## EVENT (R45, R50) -/

/-- R50 check 3: the latest HARD record of the page starts later. -/
theorem belowLatestHard_iff {es : List Event} {e : Event} :
    belowLatestHard es e = true ↔ ∃ x, e.hardRel = some x
      ∧ ∃ e' y, (es.filter Event.isHard).getLast? = some e' ∧ e'.hardRel = some y ∧ x < y := by
  unfold belowLatestHard
  cases e.hardRel with
  | none => simp
  | some x =>
    cases (es.filter Event.isHard).getLast? with
    | none => simp
    | some l => cases last : l.hardRel <;> simp [last]

/-- R50 checks 2 to 5. -/
theorem loadable_iff {f : Format} {es : List Event} {e : Event} :
    loadable f es e = true ↔
      (∀ x, e.hardRel = some x → x < 3 * fpd f
        ∧ ∀ e' y, (es.filter Event.isHard).getLast? = some e' → e'.hardRel = some y → y ≤ x)
      ∧ (∀ e' ∈ es, e'.id ≠ e.id) ∧ es.length < 1024 := by
  have below : belowLatestHard es e = false ↔ ∀ x, e.hardRel = some x →
      ∀ e' y, (es.filter Event.isHard).getLast? = some e' → e'.hardRel = some y → y ≤ x := by
    rw [Bool.eq_false_iff, ne_eq, belowLatestHard_iff]
    simp only [not_exists, not_and, Nat.not_lt]
  have span : (e.hardRel.any fun r => outOfSpan f r) = false ↔ ∀ x, e.hardRel = some x → x < 3 * fpd f := by
    cases e.hardRel <;> simp [outOfSpan]
  have fresh : (es.any fun x => x.id == e.id) = false ↔ ∀ e' ∈ es, e'.id ≠ e.id := by simp
  simp only [loadable, Bool.and_eq_true, Bool.not_eq_true', below, span, fresh, pageSize]
  constructor
  · rintro ⟨⟨⟨inSpan, order⟩, ids⟩, room⟩
    exact ⟨fun x hx => ⟨inSpan x hx, order x hx⟩, ids, of_decide_eq_true room⟩
  · rintro ⟨hard, ids, room⟩
    exact ⟨⟨⟨fun x hx => (hard x hx).1, fun x hx => (hard x hx).2⟩, ids⟩, decide_eq_true room⟩

theorem State.poolFull_iff (s : State) : s.poolFull = true ↔ 6144 ≤ s.slotsUsed := decide_eq_true_iff

section
variable {s : State} {c : Channel} {g : LoadPage} {r : EventRecord}

theorem State.takeEventRecord_broken (next : (s.pages c).next = .loading g) (broken : g.broken = true) :
    s.takeEventRecord c r = s := by
  rw [State.takeEventRecord, loadingPage_of_loading next]
  exact if_pos broken

theorem State.takeEventRecord_loads (next : (s.pages c).next = .loading g) (whole : g.broken = false) :
    s.takeEventRecord c r = s.loadEvent c g r := by
  rw [State.takeEventRecord, loadingPage_of_loading next]
  exact if_neg (Bool.eq_false_iff.mp whole)

theorem State.loadEvent_unformed (unformed : formEvent s.live.format g.baseDay r = none) :
    s.loadEvent c g r = s.breakPage c g := by
  rw [State.loadEvent, unformed]

variable {e : Event} (formed : formEvent s.live.format g.baseDay r = some e)
include formed

theorem State.loadEvent_failed (failed : loadable s.live.format g.events e = false) : s.loadEvent c g r = s.breakPage c g := by
  rw [State.loadEvent, formed]
  exact if_neg (Bool.eq_false_iff.mp failed)

theorem State.loadEvent_noSlot (good : loadable s.live.format g.events e = true) (full : 6144 ≤ s.slotsUsed) :
    s.loadEvent c g r = (s.breakPage c g).raiseDevice .poolFull := by
  rw [State.loadEvent, formed]
  exact (if_pos good).trans (if_pos (s.poolFull_iff.mpr full))

theorem State.loadEvent_joins (good : loadable s.live.format g.events e = true) (free : s.slotsUsed < 6144) :
    s.loadEvent c g r = s.putNext c (.loading { g with events := g.events ++ [e] }) := by
  rw [State.loadEvent, formed]
  exact (if_pos good).trans (if_neg fun full => Nat.not_le.mpr free (s.poolFull_iff.mp full))

end

theorem State.next_putNext (s : State) (c : Channel) (k : NextPage) : ((s.putNext c k).pages c).next = k := by
  rw [State.pages_putNext, if_pos rfl]

theorem State.pages_raiseDevice (s : State) (k : DeviceFlag) (c : Channel) : (s.raiseDevice k).pages c = s.pages c := rfl

theorem State.loadEvent_active (s : State) (c : Channel) (g : LoadPage) (r : EventRecord) :
    ((s.loadEvent c g r).pages c).active = (s.pages c).active := by
  have put (k : NextPage) : ((s.putNext c k).pages c).active = (s.pages c).active := by rw [State.pages_putNext, if_pos rfl]
  unfold State.loadEvent
  split
  · exact put _
  · split_ifs
    all_goals exact put _

/-- An EVENT leaves the active page alone. -/
theorem State.takeEventRecord_active (s : State) (c : Channel) (r : EventRecord) :
    ((s.takeEventRecord c r).pages c).active = (s.pages c).active := by
  unfold State.takeEventRecord
  split
  · split
    · rfl
    · exact s.loadEvent_active c _ r
  · rfl

/-- Settles O28: the record by the fields of the event that it gives; the EVENT by the checks of R50 in their order. -/
theorem eventJoinsTheLoadingPage : Obligations.EventJoinsTheLoadingPage := by
  refine ⟨fun f day r => ⟨fun good => ?_, fun bad => ?_⟩, fun s p n c seq r g take accepted next => ?_⟩
  · obtain ⟨e, formed⟩ := Option.isSome_iff_exists.mp ((isSome_formEvent_iff (day := day)).mpr good)
    exact ⟨e, formed, eventOf_of_formEvent formed⟩
  · exact Option.not_isSome_iff_eq_none.mp (mt isSome_formEvent_iff.mp bad)
  have only := ((s.received p c seq).takeEventRecord_acts c r).only
  refine ⟨_, exec_replication take accepted, frameTaken_of_received only (by simp [loadParts, deviceFlagParts]),
    baseline_of_received only (by simp [loadParts, deviceFlagParts]), State.takeEventRecord_active _ c r, fun broken => ?_,
    fun whole unformed => ?_, fun whole e formed => ?_, only.of_received⟩
  · have run : (s.received p c seq).storeFrame c (.event r) = s.received p c seq := State.takeEventRecord_broken next broken
    rw [run]
    exact ⟨rfl, (OnlyChanges.refl [] (s.received p c seq)).of_received⟩
  · have run : (s.received p c seq).storeFrame c (.event r) = (s.received p c seq).breakPage c g :=
      (State.takeEventRecord_loads (s := s.received p c seq) next whole).trans (State.loadEvent_unformed unformed)
    rw [run]
    exact State.next_putNext _ _ _
  · have loads : (s.received p c seq).storeFrame c (.event r) = (s.received p c seq).loadEvent c g r :=
      State.takeEventRecord_loads next whole
    rw [loads]
    refine ⟨fun failed => ?_, fun hard fresh room => ⟨fun free => ?_, fun full => ?_⟩⟩
    · have verdict : loadable s.live.format g.events e = false := by
        rw [Bool.eq_false_iff, ne_eq, loadable_iff]
        rintro ⟨hard, fresh, room⟩
        rcases failed with ⟨x, start, late | ⟨e', y, last, lastStart, below⟩⟩ | ⟨e', held, same⟩ | full
        · exact Nat.not_le.mpr (hard x start).1 late
        · exact Nat.not_le.mpr below ((hard x start).2 e' y last lastStart)
        · exact fresh e' held same
        · exact Nat.not_le.mpr room full
      rw [State.loadEvent_failed (s := s.received p c seq) formed verdict]
      exact ⟨State.next_putNext _ _ _, rfl⟩
    · rw [State.loadEvent_joins (s := s.received p c seq) formed (loadable_iff.mpr ⟨hard, fresh, room⟩) free]
      exact ⟨State.next_putNext _ _ _, rfl⟩
    · rw [State.loadEvent_noSlot (s := s.received p c seq) formed (loadable_iff.mpr ⟨hard, fresh, room⟩) full,
        State.pages_raiseDevice, State.deviceFlag_raiseDevice]
      exact ⟨State.next_putNext _ _ _, if_pos rfl⟩

end Sys2Proof.Machine

namespace Sys2Proof.Machine

/-! ## The sequence number of a replication frame (R76, R78, R80) -/

theorem seqClass_old {base seq : SeqNo} (old : seq - base = 0 ∨ 32768 ≤ (seq - base).toNat) : seqClass (some base) seq = .old := by
  have far : (seq - base).toNat = 0 ∨ 32768 ≤ (seq - base).toNat := old.imp_left fun zero => by rw [zero]; rfl
  exact (if_neg (by omega)).trans (if_neg (by omega))

theorem seqClass_gap {base seq : SeqNo} (low : 2 ≤ (seq - base).toNat) (high : (seq - base).toNat ≤ 32767) :
    seqClass (some base) seq = .gap := (if_neg (by omega)).trans (if_pos ⟨low, high⟩)

/-- R72: a replication frame whose turn it is leaves its queue and goes to the sequence test. -/
theorem exec_replication_taken {s : State} {p : FeedPort} {n : LocalFrame} {c : Channel} {seq : SeqNo} {b : FeedBody}
    (take : takesNext s p ⟨n, .replication c seq b⟩) :
    exec (FeedFrame.replication c seq b).kind.command s = .next ((s.dropHead p).takeReplication c seq b) := by
  rw [exec_feedKind, whenRunning_eq take.1, State.takeKind, takesNext_nextFrame take]
  exact congrArg _ (if_pos ⟨takesNext_intakeOpen take, rfl⟩)

theorem State.takeReplication_old {s : State} {c : Channel} {seq : SeqNo} (old : seqClass s.rpe.baseline[c] seq = .old)
    (b : FeedBody) : s.takeReplication c seq b = s := by
  rw [State.takeReplication, old]

/-- R80: the loss is recorded before the frame is handed on. The new baseline is nothing to that record. -/
theorem State.takeReplication_gap {s : State} {c : Channel} {seq : SeqNo} (gap : seqClass s.rpe.baseline[c] seq = .gap)
    (b : FeedBody) : s.takeReplication c seq b = ((s.putBaseline c (some seq)).recordGap c).storeFrame c b := by
  rw [State.takeReplication, gap]
  rfl

/-! ## The record of a loss (R80) -/

theorem State.pages_recordGap (s : State) (c : Channel) :
    (s.recordGap c).pages c
      = ⟨(s.pages c).active.map fun page => { page with behind := true }, (s.pages c).next.broken⟩ :=
  (s.pages_putPages c c _).trans (if_pos rfl)

theorem State.recordGap_flag (s : State) (c : Channel) : (s.recordGap c).channelFlag .replicaGap c = true :=
  (State.channelFlag_raise _ .replicaGap .replicaGap c c).trans (if_pos ⟨rfl, rfl⟩)

theorem State.recordGap_active {s : State} {c : Channel} {page : Page} (active : (s.pages c).active = some page) :
    ((s.recordGap c).pages c).active = some { page with behind := true } := by
  rw [State.pages_recordGap, active]
  rfl

theorem State.recordGap_loading {s : State} {c : Channel} {g : LoadPage} (next : (s.pages c).next = .loading g) :
    ((s.recordGap c).pages c).next = .loading { g with broken := true } := by
  rw [State.pages_recordGap, next]
  rfl

/-! ## What the frames of a list and a flip keep -/

theorem State.putNext_rise (s : State) (c : Channel) (k : NextPage) : FlagsRise s (s.putNext c k) :=
  (s.putNext_acts c k).only.flagsRise fun _ => by simp

theorem State.discardNext_rise (s : State) (c : Channel) : FlagsRise s (s.discardNext c) :=
  ((s.leaveQueue_acts c).only.flagsRise fun _ => by simp).trans
    ((State.putNext_rise _ c _).trans (FlagsRise.ite (State.raise_rise _ (by decide) c) (FlagsRise.refl _)))

theorem State.endList_rise (s : State) (c : Channel) (serial : BitVec 16) (count : Nat) : FlagsRise s (s.endList c serial count) := by
  unfold State.endList
  split
  · exact FlagsRise.refl s
  · exact FlagsRise.ite ((s.putNext_rise c _).trans ((State.engine_acts _ _ _ _).only.flagsRise fun _ => by simp))
      ((s.discardNext_rise c).trans (State.raise_rise _ (by decide) c))

theorem State.abortList_rise (s : State) (c : Channel) : FlagsRise s (s.abortList c) := by
  unfold State.abortList
  split
  · exact s.discardNext_rise c
  · exact FlagsRise.refl s

theorem State.recordFlip_rise (s : State) (c : Channel) (x : TimeBytes) : FlagsRise s (s.recordFlip c x) := by
  unfold State.recordFlip
  split
  · exact s.raise_rise (by decide) c
  · exact s.putNext_rise c _
  · exact s.raise_rise (by decide) c

theorem State.recordFlip_active (s : State) (c : Channel) (x : TimeBytes) :
    ((s.recordFlip c x).pages c).active = (s.pages c).active := by
  unfold State.recordFlip
  split
  · rfl
  · rw [State.pages_putNext, if_pos rfl]
  · rfl

/-- Frames that are no EDIT leave the active page alone. -/
theorem State.storeFrame_active (s : State) (c : Channel) {b : FeedBody} (other : ∀ op, b ≠ .edit op) :
    ((s.storeFrame c b).pages c).active = (s.pages c).active := by
  cases b with
  | listBegin serial day count => rw [State.storeFrame, State.pages_beginList]
  | event r => exact s.takeEventRecord_active c r
  | listEnd serial count =>
    by_cases loading : ∃ g, (s.pages c).next = .loading g
    · obtain ⟨g, next⟩ := loading
      exact State.endList_active next
    · rw [State.storeFrame_not_loading (not_exists.mp loading) (.inr (.inl ⟨serial, count, rfl⟩))]
  | listAbort =>
    by_cases loading : ∃ g, (s.pages c).next = .loading g
    · obtain ⟨g, next⟩ := loading
      rw [State.storeFrame, State.abortList_loading next, State.pages_discardNext]
    · rw [State.storeFrame_not_loading (not_exists.mp loading) (.inl rfl)]
  | edit op => exact absurd rfl (other op)
  | flip x => exact s.recordFlip_active c x

/-! ## What an edit keeps (R61 to R64) -/

theorem State.planJoin_rise (s : State) (c : Channel) (b : Bool) (x : Option Planned) (j : Join) :
    FlagsRise s (s.planJoin c b x j) :=
  ((s.noteJoin_rise c j).trans (State.bridgeTo_rise _ c b x _)).trans (State.appendSegment_acts _ c _ _ _ _ _).flagsRise_plan

theorem State.rejoinExhausted_rise (s : State) (c : Channel) : FlagsRise s (s.rejoinExhausted c) :=
  FlagsRise.ite ((s.withdrawPlan_acts c).flagsRise_plan.trans (State.noteJoin_rise _ c _))
    ((s.withdrawPlan_acts c).flagsRise_plan.trans (State.planJoin_rise _ c true none _))

theorem State.replanLast_rise (s : State) (c : Channel) (x : Planned) : FlagsRise s (s.replanLast c x) := by
  unfold State.replanLast
  split
  · exact ((s.putPlanned_acts c _).flagsRise_plan.trans (State.withdrawXp_in _ c _).flagsRise_plan).trans
      (State.planNext_rise _ c _)
  · exact FlagsRise.refl s

theorem State.reviewPlan_rise (s : State) (c : Channel) : FlagsRise s (s.reviewPlan c) := by
  unfold State.reviewPlan
  split
  · refine FlagsRise.ite (s.rejoinExhausted_rise c) ?_
    split
    · exact s.replanLast_rise c _
    · exact FlagsRise.refl s
  all_goals exact FlagsRise.refl s

/-- What an edit keeps of its channel, accepted, refused or under way: the next page, the base day, the serial and the BEHIND mark of
the active page, and the flags that are set. -/
structure EditKeeps (c : Channel) (s t : State) : Prop where
  next : (t.pages c).next = (s.pages c).next
  active : ∀ page, (s.pages c).active = some page →
    ∃ page', (t.pages c).active = some page' ∧ page'.behind = page.behind ∧ page'.baseDay = page.baseDay
      ∧ page'.serial = page.serial
  flags : ∀ k, s.channelFlag k c = true → t.channelFlag k c = true

/-- What leaves the pages of the channel alone and clears no flag. -/
theorem EditKeeps.of_pages {c : Channel} {s t : State} (pages : t.pages c = s.pages c)
    (flags : ∀ k, s.channelFlag k c = true → t.channelFlag k c = true) : EditKeeps c s t :=
  ⟨by rw [pages], fun page active => ⟨page, by rw [pages, active], rfl, rfl, rfl⟩, flags⟩

theorem EditKeeps.trans {c : Channel} {s t u : State} (h : EditKeeps c s t) (k : EditKeeps c t u) : EditKeeps c s u where
  next := k.next.trans h.next
  active page active := by
    obtain ⟨page', active', behind, day, serial⟩ := h.active page active
    obtain ⟨page'', active'', behind', day', serial'⟩ := k.active page' active'
    exact ⟨page'', active'', behind'.trans behind, day'.trans day, serial'.trans serial⟩
  flags f set := k.flags f (h.flags f set)

section
variable (s : State) (c : Channel)

theorem State.diverge_keeps : EditKeeps c s (s.diverge c) := by
  refine ⟨?_, fun page active => ?_, fun k set => ?_⟩
  · have put := s.pages_putActive c c ((s.pages c).active.map fun page => { page with diverged := true })
    rw [if_pos rfl] at put
    exact (congrArg Pages.next put :)
  · exact ⟨{ page with diverged := true }, congrArg Pages.active (State.diverge_pages active), rfl, rfl, rfl⟩
  · rw [State.diverge_flag, set, ite_self]

theorem State.refuseEdit_keeps (full locked : Bool) : EditKeeps c s (s.refuseEdit c full locked) := by
  have marked : EditKeeps c s ((s.diverge c).raiseIf locked .editLocked c) := by
    refine (s.diverge_keeps c).trans (EditKeeps.of_pages ?_ fun k set => ?_)
    · rw [State.pages, State.sst_raiseIf]
      rfl
    · rw [State.channelFlag_raiseIf, set, ite_self]
  unfold State.refuseEdit
  dsimp only
  split
  · exact marked.trans (EditKeeps.of_pages (State.pages_raiseDevice _ _ c) fun _ set => set)
  · exact marked

variable {s c} in
theorem State.acceptEdit_keeps {page : Page} (active : (s.pages c).active = some page) (r : List Event × Nat) :
    EditKeeps c s (s.acceptEdit c page r) := by
  have put : (s.putActive c (some { page with events := r.1, dropped := addDropped page.dropped r.2 })).pages c
      = ⟨some { page with events := r.1, dropped := addDropped page.dropped r.2 }, (s.pages c).next⟩ :=
    (s.pages_putActive c c _).trans (if_pos rfl)
  have edited : EditKeeps c s (s.putActive c (some { page with events := r.1, dropped := addDropped page.dropped r.2 })) := by
    refine ⟨by rw [put], fun page' active' => ?_, fun _ set => set⟩
    obtain rfl : page = page' := Option.some.inj (active.symm.trans active')
    exact ⟨_, congrArg Pages.active put, rfl, rfl, rfl⟩
  exact edited.trans (EditKeeps.of_pages
    ((State.reviewPlan_acts _ c).only (.pages c) (by simp [cueParts, planParts, flagParts]))
    fun k set => (State.reviewPlan_rise _ c).kept k c set)

theorem State.completeEdit_keeps (op : EditOp) : EditKeeps c s (s.completeEdit c op) := by
  unfold State.completeEdit
  split
  · exact s.diverge_keeps c
  · next page active =>
    split
    · exact s.diverge_keeps c
    · dsimp only
      split
      · exact State.acceptEdit_keeps active _
      · exact s.refuseEdit_keeps c _ _

theorem State.takeEditOp_keeps (op : EditOp) : EditKeeps c s (s.takeEditOp c op) := by
  unfold State.takeEditOp
  dsimp only
  split
  · exact s.completeEdit_keeps c op
  · exact EditKeeps.of_pages rfl fun _ set => set

/-- No frame clears a flag of its channel at the store. -/
theorem State.storeFrame_keepsFlag (b : FeedBody) {k : ChannelFlag} (set : s.channelFlag k c = true) :
    (s.storeFrame c b).channelFlag k c = true := by
  cases b with
  | listBegin serial day count => exact ((s.discardNext_rise c).trans (State.putNext_rise _ c _)).kept k c set
  | event r =>
    have rise := (s.takeEventRecord_acts c r).only.flagsRise fun _ => by simp [loadParts, deviceFlagParts]
    exact rise.kept k c set
  | listEnd serial count => exact (s.endList_rise c serial count.toNat).kept k c set
  | listAbort => exact (s.abortList_rise c).kept k c set
  | edit op => exact (s.takeEditOp_keeps c op).flags k set
  | flip x => exact (s.recordFlip_rise c x).kept k c set

end

/-! ## A BROKEN page under the frames that follow (R50 to R52, R57, R80) -/

section
variable {s : State} {c : Channel} {g : LoadPage} (next : (s.pages c).next = .loading g)
include next

/-- R50, R61: a BROKEN page takes no event, and no edit is of a next page. -/
theorem State.storeFrame_broken_same (broken : g.broken = true) {b : FeedBody} (kind : (∃ r, b = .event r) ∨ ∃ op, b = .edit op) :
    ((s.storeFrame c b).pages c).next = .loading g := by
  rcases kind with ⟨r, rfl⟩ | ⟨op, rfl⟩
  · rw [State.storeFrame, State.takeEventRecord_broken next broken, next]
  · exact (s.takeEditOp_keeps c op).next.trans next

theorem State.recordFlip_loading (x : TimeBytes) : ∃ f, ((s.recordFlip c x).pages c).next = .loading { g with flip := f } := by
  cases stage : stageA s.live.format (labelOf x) with
  | none =>
    rw [State.recordFlip_missed (.inl stage)]
    exact ⟨g.flip, next⟩
  | some a =>
    rw [State.recordFlip_recorded stage (by rw [next]; exact NextPage.noConfusion), State.next_putNext, next]
    exact ⟨some a.frame, rfl⟩

/-- R52: a BROKEN page agrees with no LIST END. -/
theorem State.endList_broken (broken : g.broken = true) (serial : BitVec 16) (count : Nat) :
    ((s.endList c serial count).pages c).next = .empty ∧ (s.endList c serial count).channelFlag .listRejected c = true := by
  have verdict : listAccepted g serial count = false := by
    rw [Bool.eq_false_iff, ne_eq, listAccepted_iff]
    exact fun accepted => absurd (accepted.1.symm.trans broken) (by decide)
  rw [State.endList_rejected next verdict]
  exact ⟨congrArg Pages.next (s.pages_discardNext c), (State.channelFlag_raise ..).trans (if_pos ⟨rfl, rfl⟩)⟩

end

/-- What the store changes past a gap leaves the intake and the baseline as they were accepted. -/
theorem gap_parts_free (c : Channel) (b : FeedBody) :
    Part.intake ∉ Part.pages c :: (flagParts c ++ frameParts c b)
      ∧ Part.baseline c ∉ Part.pages c :: (flagParts c ++ frameParts c b) := by
  cases b <;> simp [frameParts, listParts, loadParts, editParts, cueParts, planParts, flagParts, deviceFlagParts]

/-- R80: the loss is recorded, and then the frame handled. -/
theorem State.gap_only (s : State) (c : Channel) (b : FeedBody) :
    OnlyChanges (.pages c :: (flagParts c ++ frameParts c b)) s ((s.recordGap c).storeFrame c b) :=
  ((s.recordGap_acts c).only.mono (List.cons_subset_cons _ (List.subset_append_left _ _))).trans
    ((State.storeFrame_acts _ c b).only.mono fun _ hp => by simp [hp])

/-- Settles O31: an old frame by the sequence test alone; one past a gap by the record of the loss, and then by what each kind of frame
does to a BROKEN page. -/
theorem sequenceNumbersGateFrames : Obligations.SequenceNumbersGateFrames := by
  intro s p n c seq base b take baseline
  refine ⟨fun old => ?_, fun low high => ?_⟩
  · have only := (s.dropHead_acts p).only
    have cls : seqClass (s.dropHead p).rpe.baseline[c] seq = .old := (congrArg (seqClass · seq) baseline).trans (seqClass_old old)
    exact ⟨s.dropHead p, (exec_replication_taken take).trans (congrArg _ (State.takeReplication_old cls b)),
      frameTaken_of_only (OnlyChanges.refl [] _) (by simp), only⟩
  have cls : seqClass (s.dropHead p).rpe.baseline[c] seq = .gap :=
    (congrArg (seqClass · seq) baseline).trans (seqClass_gap low high)
  have only := (s.received p c seq).gap_only c b
  have free := gap_parts_free c b
  have marked (page : Page) (active : (s.pages c).active = some page) :
      (((s.received p c seq).recordGap c).pages c).active = some { page with behind := true } := State.recordGap_active active
  refine ⟨((s.received p c seq).recordGap c).storeFrame c b,
    (exec_replication_taken take).trans (congrArg _ (State.takeReplication_gap cls b)), frameTaken_of_received only free.1,
    baseline_of_received only free.2, State.storeFrame_keepsFlag _ c b (State.recordGap_flag _ c), fun page active other => ?_,
    fun page op active edit => ?_, fun g next => ?_, fun serial day count begins => ?_⟩
  · exact (State.storeFrame_active _ c other).trans (marked page active)
  · subst edit
    obtain ⟨page', active', behind, day, serial⟩ := (State.takeEditOp_keeps _ c op).active _ (marked page active)
    exact ⟨page', active', behind, day, serial⟩
  · have broken : (((s.received p c seq).recordGap c).pages c).next = .loading { g with broken := true } :=
      State.recordGap_loading next
    refine ⟨State.storeFrame_broken_same broken rfl, ?_, ?_, ?_⟩
    · rintro x rfl
      exact State.recordFlip_loading broken x
    · rintro serial count rfl
      exact State.endList_broken broken rfl serial count.toNat
    · rintro rfl
      show ((State.abortList _ c).pages c).next = .empty
      rw [State.abortList_loading broken, State.pages_discardNext]
  · subst begins
    exact congrArg Pages.next (State.pages_beginList _ c serial day.toNat count.toNat)

end Sys2Proof.Machine

namespace Sys2Proof.Machine

/-! ## An evaluation, and the evaluation of every channel (R93, R105 to R107) -/

/-- A change of health writes the health, and loads or stops the confirm timer; one that is none writes nothing. -/
theorem State.setHealth_watched_eq (s : State) (c : Channel) (h : Health) :
    (s.setHealth c h).watched c = { s.watched c with
      health := h, confirm := if h = (s.watched c).health then (s.watched c).confirm else confirmAfter (s.cfg c).confirm h } := by
  by_cases same : (s.watched c).health = h
  · rw [State.setHealth_same same, if_pos same.symm, ← same]
  · rw [State.setHealth_change same, if_neg (Ne.symm same)]
    have kept := (State.healthReaction_acts (((s.storeHealth c h).raiseHealth c h).evalAlarm) c h).only (.watched c)
      (by simp [authorityParts, cueParts, planParts, flagParts])
    exact Eq.trans kept ((s.watched_putWatched c c _).trans (if_pos rfl))

/-- The health that an evaluation comes to: that of the evaluated class, for a channel that is heard and enabled. -/
def State.evaluatedHealth (s : State) (c : Channel) : Health :=
  if (s.watched c).heard = true ∧ (s.cfg c).enabled = true then (s.healthClass c).health (s.watched c).health
  else (s.watched c).health

theorem State.evaluate_eq (s : State) (c : Channel) : s.evaluate c = s.setHealth c (s.evaluatedHealth c) := by
  unfold State.evaluate State.evaluatedHealth State.judged
  simp only [Bool.and_eq_true]
  split
  · rfl
  · exact (State.setHealth_same rfl).symm

/-- A channel has been evaluated with this Link state and its latest air report, and its reports stay. -/
def reportsEvaluated (s t : State) (c : Channel) (link : Bool) : Prop :=
  evaluatedAt s t c link (s.watched c).latestAir ∧ (t.watched c).latestAir = (s.watched c).latestAir
    ∧ (t.watched c).latestResume = (s.watched c).latestResume

theorem State.evaluate_evaluated (s : State) (c : Channel) : reportsEvaluated s (s.evaluate c) c s.linkUp := by
  have flag (change : s.evaluatedHealth c ≠ (s.watched c).health) : (s.evaluate c).channelFlag .healthChange c = true := by
    rw [State.evaluate_eq]
    exact State.setHealth_flag change.symm
  have written := s.setHealth_watched_eq c (s.evaluatedHealth c)
  rw [← State.evaluate_eq] at written
  unfold reportsEvaluated evaluatedAt
  rw [written]
  exact ⟨⟨rfl, rfl, flag, rfl, rfl, rfl, rfl⟩, rfl, rfl⟩

/-- The evaluation of a channel depends on what SUP keeps of it and on its settings; what follows may set flags more. -/
theorem reportsEvaluated_of_same {s u v t : State} {c : Channel} {link : Bool} (h : reportsEvaluated u v c link)
    (before : u.watched c = s.watched c) (settings : u.cfg c = s.cfg c) (after : t.watched c = v.watched c)
    (flags : t.channelFlag .healthChange c = v.channelFlag .healthChange c) : reportsEvaluated s t c link := by
  unfold reportsEvaluated evaluatedAt at h ⊢
  rw [after, flags, ← before, ← settings]
  exact h

theorem State.evaluate_sameFor {c d : Channel} (other : d ≠ c) (s : State) : SameFor c s (s.evaluate d) :=
  ((s.evaluate_acts d).only.mono (List.subset_cons_self _ _)).sameFor (concerns_free other)

/-- Each channel is evaluated in its own turn, which the others' leave alone. -/
theorem State.evaluateAll_evaluated (s : State) (c : Channel) : reportsEvaluated s s.evaluateAll c s.linkUp := by
  obtain ⟨u, first, last⟩ := State.eachChannel_turn (c := c) (f := fun s d => s.evaluate d)
    (fun d other s => s.evaluate_sameFor other) s
  have turn := u.evaluate_evaluated c
  rw [first.link] at turn
  exact reportsEvaluated_of_same turn first.watched (State.cfg_eq first.live c) last.watched (last.flags _)

/-! ## Heartbeat seen (R71, R93) -/

theorem not_mem_everyChannel {f : Channel → List Part} {q : Part} (free : ∀ c, q ∉ f c) : q ∉ everyChannel f := fun mem =>
  have ⟨c, _, mem⟩ := List.mem_flatMap.mp mem
  free c mem

theorem not_mem_seenParts {q : Part} (watch : q ≠ .watch) (free : ∀ c, q ∉ healthParts c) : q ∉ seenParts := by
  rw [seenParts, List.mem_cons, not_or]
  exact ⟨watch, not_mem_everyChannel free⟩

theorem State.linkUp_iff (s : State) (p : FeedPort) :
    s.linkUp = true ↔ (s.sup.watch.get p).live = true ∨ (s.sup.watch.get p.other).live = true := by
  unfold State.linkUp
  rw [Bool.or_eq_true]
  cases p
  · exact Iff.rfl
  · exact or_comm

theorem State.watch_putWatch (s : State) (p : FeedPort) (w : Watch) : (s.putWatch p w).sup.watch.get p = w :=
  PerSide.get_put_self _ _ _

/-- R93: where Link is UP already, heartbeat seen reloads the timer and no more. -/
theorem State.heartbeatSeen_linked {s : State} (link : s.linkUp = true) (p : FeedPort) :
    s.heartbeatSeen p = s.putWatch p ⟨true, s.live.hbTimeout⟩ := if_pos link

/-- R93: heartbeat seen that brings Link UP evaluates every channel. -/
theorem State.heartbeatSeen_brings {s : State} (down : s.linkUp = false) (p : FeedPort) :
    s.heartbeatSeen p = (s.putWatch p ⟨true, s.live.hbTimeout⟩).evaluateAll := if_neg (Bool.eq_false_iff.mp down)

theorem State.heartbeatSeen_watch (s : State) (p : FeedPort) :
    (s.heartbeatSeen p).sup.watch.get p = ⟨true, s.live.hbTimeout⟩ := by
  cases link : s.linkUp
  · have kept : (s.heartbeatSeen p).sup.watch = (s.putWatch p ⟨true, s.live.hbTimeout⟩).sup.watch := by
      rw [State.heartbeatSeen_brings link]
      exact (State.evaluateAll_acts _).only .watch
        (not_mem_everyChannel (by simp [healthParts, authorityParts, cueParts, planParts, flagParts]))
    rw [kept, State.watch_putWatch]
  · rw [State.heartbeatSeen_linked link, State.watch_putWatch]

theorem State.heartbeatSeen_evaluated {s : State} (down : s.linkUp = false) (p : FeedPort) (c : Channel) :
    reportsEvaluated s (s.heartbeatSeen p) c true := by
  have up : (s.putWatch p ⟨true, s.live.hbTimeout⟩).linkUp = true := by
    rw [State.linkUp_iff _ p, State.watch_putWatch]
    exact .inl rfl
  have turn := (s.putWatch p ⟨true, s.live.hbTimeout⟩).evaluateAll_evaluated c
  rw [up] at turn
  rw [State.heartbeatSeen_brings down]
  exact reportsEvaluated_of_same turn rfl rfl rfl rfl

/-! ## A completed frame (R69 to R71) -/

/-- R69 to R71, R189: a frame passes where it is no longer than 512 bytes, agrees with its check and is well formed. -/
theorem checkedFeedFrame_eq_some_iff {ty : Byte} {body : List Byte} {check : BitVec 16} {x : FeedFrame} :
    checkedFeedFrame ty body check = some x ↔ body.length ≤ 512 ∧ check = frameCheck ty body ∧ feedFrame ty body = some x := by
  rw [checkedFeedFrame, Option.ite_none_right_eq_some, checkPasses, Bool.and_eq_true, beq_iff_eq, bodyFits, decide_eq_true_iff,
    and_assoc, eq_comm (a := frameCheck ty body)]

theorem checkedFeedFrame_eq_none {ty : Byte} {body : List Byte} {check : BitVec 16}
    (failed : 512 < body.length ∨ check ≠ frameCheck ty body ∨ feedFrame ty body = none) :
    checkedFeedFrame ty body check = none := by
  rw [Option.eq_none_iff_forall_ne_some]
  intro x passes
  obtain ⟨fits, agrees, formed⟩ := checkedFeedFrame_eq_some_iff.mp passes
  rcases failed with long | wrong | malformed
  · exact Nat.not_le.mpr long fits
  · exact wrong agrees
  · exact Option.some_ne_none x (formed.symm.trans malformed)

theorem exec_feedFrameCompletion (p : FeedPort) (ty : Byte) (body : List Byte) (check : BitVec 16) (s : State) :
    exec (.feedFrameCompletion p ty body check) s = execFeedFrameCompletion p ty body check s := rfl

section
variable {s : State} (running : s.power = .running) {p : FeedPort} (ty : Byte) (body : List Byte) (check : BitVec 16)
include running

theorem exec_feedFrameCompletion_disabled (off : (s.feed p).enabled = false) :
    exec (.feedFrameCompletion p ty body check) s = .next (s.rxWait (feedLine p)) := by
  rw [exec_feedFrameCompletion, execFeedFrameCompletion, whenRunning_eq running]
  exact congrArg _ (if_neg (Bool.eq_false_iff.mp off))

theorem exec_feedFrameCompletion_enabled (on : (s.feed p).enabled = true) :
    exec (.feedFrameCompletion p ty body check) s
      = .next ((s.rxWait (feedLine p)).completeFrame p (checkedFeedFrame ty body check)) := by
  rw [exec_feedFrameCompletion, execFeedFrameCompletion, whenRunning_eq running]
  exact congrArg _ (if_pos on)

end

section
variable {s : State} {p : FeedPort} {x : FeedFrame}

theorem State.offerFrame_room (room : (s.feed p).queue.length < 2) :
    s.offerFrame p x = s.putFeed p { s.feed p with queue := (s.feed p).queue ++ [⟨s.cdu.now, x⟩] } := if_pos room

theorem State.offerFrame_full (full : 2 ≤ (s.feed p).queue.length) : s.offerFrame p x = s.raiseDevice (.feedOverrun p) :=
  if_neg (Nat.not_lt.mpr full)

variable (s p x)

theorem State.offerFrame_only : OnlyChanges (.intake :: deviceFlagParts) s (s.offerFrame p x) := by
  have put (k : List QueuedFrame) : Acts [.intake] s (s.putFeed p { s.feed p with queue := k }) := s.putFeed_acts p _ rfl
  exact (Acts.ite ((put _).mono (by simp)) ((s.raiseDevice_acts _).mono (List.subset_cons_self _ _))).only

theorem State.offerFrame_sup : (s.offerFrame p x).sup = s.sup := by
  unfold State.offerFrame
  dsimp only
  split <;> rfl

theorem State.seenIf_only : OnlyChanges seenParts s (s.seenIf p x) := by
  cases x with
  | heartbeat _ => exact (s.heartbeatSeen_acts p).only
  | replication _ _ _ => exact OnlyChanges.refl _ s

/-- A frame that is queued or discarded is nothing to what SUP keeps. -/
theorem State.linkUp_offerFrame : (s.offerFrame p x).linkUp = s.linkUp := by
  rw [State.linkUp, State.linkUp, State.offerFrame_sup]

end

/-- The receive queues are part of the intake. -/
theorem OnlyChanges.feed_queue {ps : List Part} {s t : State} (h : OnlyChanges ps s t) (free : Part.intake ∉ ps) (p : FeedPort) :
    (t.feed p).queue = (s.feed p).queue := by
  have intake : (t.rpe.port.a.receiveSide, t.rpe.port.b.receiveSide, t.rpe.turn) = _ := h .intake free
  obtain ⟨a, b, -⟩ : _ ∧ _ ∧ _ := by simpa only [Prod.mk.injEq] using intake
  cases p
  · exact congrArg Prod.fst a
  · exact congrArg Prod.fst b

/-- What a completed frame cannot change: the baselines, the pages and the Station Clock. -/
theorem OnlyChanges.completion_keeps {s t : State} (h : OnlyChanges (.rx :: completionParts) s t) :
    t.rpe.baseline = s.rpe.baseline ∧ t.sst.pages = s.sst.pages ∧ t.stc = s.stc := by
  have free {q : Part} (plain : q ∉ Part.rx :: .intake :: .watch :: deviceFlagParts) (health : ∀ c, q ∉ healthParts c) :
      q ∉ Part.rx :: completionParts := by
    have channels := not_mem_everyChannel health
    simp only [List.mem_cons, not_or] at plain
    simp [completionParts, seenParts, plain, channels]
  refine ⟨PerChannel.ext _ _ fun c => h (.baseline c) (free ?_ ?_), PerChannel.ext _ _ fun c => h (.pages c) (free ?_ ?_),
    h .clock (free ?_ ?_)⟩
  all_goals simp [deviceFlagParts, healthParts, authorityParts, cueParts, planParts, flagParts]

/-- R70: what is seen of a heartbeat leaves the queue and the device flags as the offering of the frame left them. -/
theorem State.seenIf_keeps (s : State) (p : FeedPort) (x : FeedFrame) :
    ((s.seenIf p x).feed p).queue = (s.feed p).queue ∧ (s.seenIf p x).sli.device = s.sli.device := by
  have only := s.seenIf_only p x
  exact ⟨only.feed_queue (not_mem_seenParts (by simp) (by simp [healthParts, authorityParts, cueParts, planParts, flagParts])) p,
    only .deviceFlags (not_mem_seenParts (by simp) (by simp [healthParts, authorityParts, cueParts, planParts, flagParts]))⟩

/-- R93: where Link is UP already, a frame that passes changes the intake, its port's timer and the device flags alone. -/
theorem State.completeFrame_linked {s : State} (link : s.linkUp = true) (p : FeedPort) (x : FeedFrame) :
    OnlyChanges ([.intake, .watch] ++ deviceFlagParts) s (s.completeFrame p (some x)) := by
  refine ((s.offerFrame_only p x).mono (List.cons_subset_cons _ (List.subset_cons_self _ _))).trans ?_
  cases x with
  | heartbeat h =>
    show OnlyChanges _ _ (State.heartbeatSeen _ p)
    rw [State.heartbeatSeen_linked ((s.linkUp_offerFrame p (.heartbeat h)).trans link)]
    exact (State.putWatch_acts _ p _).only.mono (by simp)
  | replication c seq b => exact OnlyChanges.refl _ _

/-- R71, R93: a heartbeat that passes and brings Link UP evaluates every channel. -/
theorem State.completeFrame_evaluated {s : State} (down : s.linkUp = false) (p : FeedPort) (h : Heartbeat) (c : Channel) :
    reportsEvaluated s (s.completeFrame p (some (.heartbeat h))) c true := by
  have same : SameFor c s (s.offerFrame p (.heartbeat h)) :=
    (s.offerFrame_only p (.heartbeat h)).sameFor (by simp [concerns, deviceFlagParts])
  exact reportsEvaluated_of_same (State.heartbeatSeen_evaluated (same.link.trans down) p c) same.watched
    (State.cfg_eq same.live c) rfl rfl

/-! ## An abandoned frame (R189) -/

theorem exec_partialFrameAbandon {s : State} (running : s.power = .running) {l : LineId} {bs : List Byte} {f : Bool}
    (stale : s.rx.get l = .gathering bs f true) : exec (.partialFrameAbandon l) s = .next (s.abandonPartial l) := by
  have abandoned : (s.rx.get l).abandoned = true := by rw [stale]; rfl
  exact (whenRunning_eq running).trans (congrArg _ (if_pos abandoned))

theorem State.abandonPartial_feedLine (s : State) (p : FeedPort) :
    s.abandonPartial (feedLine p) = if (s.feed p).enabled = true then (s.rxWait (feedLine p)).raiseDevice (.feedCheck p)
      else s.rxWait (feedLine p) := by
  cases p <;> rfl

theorem State.abandonPartial_other (s : State) {l : LineId} (other : l ∈ [LineId.sa, .sb, .ml, .xl]) :
    s.abandonPartial l = s.rxWait l := by
  simp only [List.mem_cons, List.not_mem_nil, or_false] at other
  rcases other with rfl | rfl | rfl | rfl <;> rfl

/-- R164: a site frame that fails its check is discarded. -/
theorem exec_siteFrameCheckFail {s : State} (running : s.power = .running) (p : SitePort) :
    exec (.siteFrameCheckFail p) s = .next (s.rxWait (siteLine p)) :=
  whenRunning_eq (f := fun s => s.rxWait (siteLine p)) running

/-! ## What a frame discarded with FEED-CHECK changes (R69, R189) -/

theorem feedCheck_only (s : State) (p : FeedPort) :
    OnlyChanges (.rx :: deviceFlagParts) s ((s.rxWait (feedLine p)).raiseDevice (.feedCheck p)) :=
  ((s.rxWait_acts _).only.mono (by simp)).trans ((State.raiseDevice_acts _ _).only.mono (List.subset_cons_self _ _))

theorem feedCheck_set (s : State) (p : FeedPort) :
    ((s.rxWait (feedLine p)).raiseDevice (.feedCheck p)).deviceFlag (.feedCheck p) = true := by
  rw [State.deviceFlag_raiseDevice, if_pos rfl]

/-- Settles O36: a completed frame by its port and its check; one that passes by the offering to the queue, which heartbeat seen leaves
alone, and by the evaluation of each channel in its own turn; an abandoned frame by its line. -/
theorem completedFramesAreQueued : Obligations.CompletedFramesAreQueued := by
  refine ⟨fun s p ty body check running => ⟨fun off => ?_, fun on failed => ?_, fun x on fits agrees formed => ?_⟩,
    fun s running => ⟨fun p bs f stale => ?_, fun l other bs f stale => ?_, fun p => exec_siteFrameCheckFail running p⟩⟩
  · exact ⟨_, exec_feedFrameCompletion_disabled running ty body check off, rfl, (s.rxWait_acts _).only⟩
  · have run := exec_feedFrameCompletion_enabled running ty body check on
    rw [checkedFeedFrame_eq_none failed] at run
    refine ⟨_, run, rfl, feedCheck_set s p, fun k other => ?_, feedCheck_only s p⟩
    exact (State.deviceFlag_raiseDevice _ _ _).trans (if_neg other)
  · have run := exec_feedFrameCompletion_enabled running ty body check on
    rw [checkedFeedFrame_eq_some_iff.mpr ⟨fits, agrees, formed⟩] at run
    have wait : OnlyChanges [.rx] s (s.rxWait (feedLine p)) := (s.rxWait_acts _).only
    have only := ((s.rxWait (feedLine p)).completeFrame_acts p (some x)).only
    obtain ⟨queue, device⟩ := ((s.rxWait (feedLine p)).offerFrame p x).seenIf_keeps p x
    refine ⟨_, run, only .rx ?_, fun room => ⟨queue.trans ?_, device.trans ?_⟩, fun full => ⟨queue.trans ?_, ?_⟩, ?_,
      fun other => ?_, ?_, fun link => ?_,
      OnlyChanges.completion_keeps ((wait.mono (by simp)).trans (only.mono (List.subset_cons_self _ _)))⟩
    · have free : Part.rx ∉ seenParts :=
        not_mem_seenParts (by simp) (by simp [healthParts, authorityParts, cueParts, planParts, flagParts])
      simp [completionParts, deviceFlagParts, free]
    · rw [State.offerFrame_room (s := s.rxWait (feedLine p)) room, State.feed_putFeed, if_pos rfl]
      rfl
    · rw [State.offerFrame_room (s := s.rxWait (feedLine p)) room]
      rfl
    · rw [State.offerFrame_full (s := s.rxWait (feedLine p)) full]
      rfl
    · have set : ((s.rxWait (feedLine p)).offerFrame p x).deviceFlag (.feedOverrun p) = true := by
        rw [State.offerFrame_full (s := s.rxWait (feedLine p)) full, State.deviceFlag_raiseDevice, if_pos rfl]
      exact (congrArg (·[(DeviceFlag.feedOverrun p).place]) device).trans set
    · rintro ⟨h, rfl⟩
      refine (State.heartbeatSeen_watch _ p).trans ?_
      rw [(State.offerFrame_only _ p (.heartbeat h)) .settings (by simp [deviceFlagParts])]
      rfl
    · cases x with
      | heartbeat h => exact absurd rfl (other h)
      | replication c seq b => exact State.offerFrame_sup _ p _
    · rintro ⟨h, rfl⟩ silent otherSilent c
      have down : s.linkUp = false := by
        rw [Bool.eq_false_iff, ne_eq, State.linkUp_iff s p, silent, otherSilent]
        simp
      exact State.completeFrame_evaluated (s := s.rxWait (feedLine p)) down p h c
    · have linked := State.completeFrame_linked (s := s.rxWait (feedLine p)) ((s.linkUp_iff p).mpr link) p x
      exact (wait.mono (by simp)).trans (linked.mono (by simp))
  · have run := exec_partialFrameAbandon running stale
    rw [State.abandonPartial_feedLine] at run
    cases port : (s.feed p).enabled
    · rw [if_neg (Bool.eq_false_iff.mp port)] at run
      exact ⟨_, run, rfl, fun on => absurd on (by simp), fun _ => rfl, (s.rxWait_acts _).only.mono (by simp)⟩
    · rw [if_pos port] at run
      exact ⟨_, run, rfl, fun _ => feedCheck_set s p, fun off => absurd off (by simp), feedCheck_only s p⟩
  · exact (exec_partialFrameAbandon running stale).trans (congrArg _ (s.abandonPartial_other other))

end Sys2Proof.Machine

namespace Sys2Proof.Machine

/-! ## The conditions on the whole part, kept: how keeping them composes (R116, R160, R161)

`Lawful s t` is kept by every command, and so by every step; each operation's own lemma is cited where the laws of the model have one,
and what they lack is proved here block by block. -/

theorem Lawful.refl (s : State) : Lawful s s := ⟨id, id, id⟩

theorem Lawful.trans {s t u : State} (h : Lawful s t) (k : Lawful t u) : Lawful s u :=
  ⟨k.tally ∘ h.tally, k.alarm ∘ h.alarm, k.apart ∘ h.apart⟩

theorem Lawful.ite {s t u : State} {p : Prop} [Decidable p] (h : Lawful s t) (k : Lawful s u) : Lawful s (if p then t else u) := by
  split
  · exact h
  · exact k

theorem Lawful.when {s t : State} {p : Prop} [Decidable p] (h : Lawful s t) : Lawful s (if p then t else s) := h.ite (Lawful.refl s)

theorem Lawful.foldl {α : Type} (f : State → α → State) (h : ∀ s x, Lawful s (f s x)) (xs : List α) (s : State) :
    Lawful s (xs.foldl f s) := by
  induction xs generalizing s with
  | nil => exact Lawful.refl s
  | cons x xs ih => exact (h s x).trans (ih _)

theorem whenRunning_lawful {s t : State} {f : State → State} (h : whenRunning s f = .next t) (k : Lawful s (f s)) : Lawful s t := by
  rcases whenRunning_cases h with rfl | rfl
  · exact k
  · exact Lawful.refl _

/-! ## Resets: every channel is in MAIN, no flag is set, no health is FAILED (R186, R187) -/

theorem State.loaded_authority (w : Power) (pins : Pins) (banks : PerSide (Option Bank)) (c : Channel) :
    (State.loaded w pins banks).authority c = .main := PerChannel.get_same _ c

theorem State.tallyValue_main {s : State} {c : Channel} (main : s.authority c = .main) : s.tallyValue c = false := by
  rw [State.tallyValue, main]
  rfl

theorem State.loaded_tallyLaw (w : Power) (pins : Pins) (banks : PerSide (Option Bank)) : (State.loaded w pins banks).TallyLaw := by
  intro c
  rw [State.tallyValue_main (State.loaded_authority w pins banks c)]
  exact PerChannel.get_same false c

theorem State.loaded_alarmLaw (w : Power) (pins : Pins) (banks : PerSide (Option Bank)) : (State.loaded w pins banks).AlarmLaw := by
  have health (c : Channel) : ((State.loaded w pins banks).watched c).health = .unknown :=
    congrArg SupChannel.health (PerChannel.get_same SupChannel.reset c)
  have device (k : DeviceFlag) : (State.loaded w pins banks).deviceFlag k = false := Vector.getElem_replicate ..
  have channel (k : ChannelFlag) (c : Channel) : (State.loaded w pins banks).channelFlag k c = false := by
    have clear : (State.loaded w pins banks).sli.channel[c] = Vector.replicate 14 false := PerChannel.get_same _ c
    rw [State.channelFlag, clear]
    exact Vector.getElem_replicate ..
  have value : (State.loaded w pins banks).alarmValue = false := by
    simp [State.alarmValue, State.anyFailed, State.maskedFlagSet, health, device, channel]
  exact value.symm

theorem State.loaded_apart (w : Power) (pins : Pins) (banks : PerSide (Option Bank)) :
    (State.loaded w pins banks).DestinationsApart := by
  intro c d _ off
  rw [State.isMain, State.loaded_authority] at off
  cases off

theorem State.heldInReset_lawful (s : State) (nrst : Bool) : Lawful s (s.heldInReset nrst) :=
  ⟨fun _ => State.loaded_tallyLaw .held s.pins s.banksAtReset, fun _ => State.loaded_alarmLaw .held s.pins s.banksAtReset,
    fun _ => State.loaded_apart .held s.pins s.banksAtReset⟩

theorem execResetEnd_lawful {s t : State} (h : execResetEnd s = .next t) : Lawful s t := by
  unfold execResetEnd at h
  split at h
  · cases h
    exact ⟨id, id, id⟩
  · cases h
    exact Lawful.refl s

/-! ## The Cadence Unit -/

theorem State.gateLine_lawful (s : State) : Lawful s s.gateLine := (s.putScan_acts _).lawful.when

theorem State.beginLine_lawful (s : State) : Lawful s s.beginLine := ⟨id, id, id⟩

theorem State.endLine_lawful (s : State) : Lawful s s.endLine := by
  have line := s.gateLine_lawful.trans (State.putCdu_acts _ s.cdu.nextLine).lawful
  exact (Lawful.refl s).ite (line.ite (line.trans (State.beginLine_lawful _)))

theorem State.lineTick_lawful (s : State) : Lawful s s.lineTick := (s.putCdu_acts _).lawful.trans (State.endLine_lawful _)

theorem State.loseReference_lawful (s : State) : Lawful s s.loseReference :=
  (s.putCdu_acts _).lawful.trans (State.raiseDevice_acts _ _).lawful

theorem State.gateLast_lawful (s : State) : Lawful s s.gateLast := (Lawful.refl s).ite s.gateLine_lawful

theorem State.lockedPulse_lawful (s : State) : Lawful s s.lockedPulse :=
  (s.gateLast_lawful.trans (State.putCdu_acts _ _).lawful).when

@[simp] theorem SupChannel.tick_health (k : SupChannel) : k.tick.health = k.health := by
  unfold SupChannel.tick
  split <;> rfl

theorem State.frameStart_lawful (s : State) (k : Bool) : Lawful s (s.frameStart k) := by
  have health (c : Channel) : ((s.frameStart k).watched c).health = (s.watched c).health :=
    (congrArg SupChannel.health (PerChannel.get_mapAll SupChannel.tick s.sup.channel c)).trans (SupChannel.tick_health _)
  exact Lawful.of_same (fun _ => rfl) rfl rfl (fun _ => rfl) health rfl (fun _ => rfl) rfl

theorem State.clearBoundaries_lawful (s : State) : Lawful s s.clearBoundaries := ⟨id, id, id⟩

theorem State.abandonAny_lawful (s : State) : Lawful s s.abandonAny := s.abandonWork_acts.lawful.when

theorem State.changeFormat_lawful (s : State) (f : Format) : Lawful s (s.changeFormat f) :=
  have settings : Lawful s (s.emptyAllPages.dropBaselines.unsetClock.putFormat f) := ⟨id, id, id⟩
  (settings.trans (State.putCdu_acts _ _).lawful).trans (State.abandonAny_lawful _)

theorem execSwitchWindowEvent_lawful {s t : State} (h : execSwitchWindowEvent s = .next t) : Lawful s t :=
  whenRunning_lawful h ((Lawful.refl s).ite ((s.putCdu_acts s.cdu.openWindow).lawful.trans (State.clearBoundaries_lawful _)))

theorem execRefLinePulse_lawful {s t : State} (h : execRefLinePulse s = .next t) : Lawful s t :=
  have pulse := (s.putCdu_acts s.cdu.wakened.linePulse).lawful
  whenRunning_lawful h ((pulse.trans (State.endLine_lawful _)).ite pulse)

theorem execRefFramePulse_lawful {s t : State} (h : execRefFramePulse s = .next t) : Lawful s t := by
  refine whenRunning_lawful h ?_
  have pulse := (s.putCdu_acts s.cdu.wakened.framePulse).lawful
  dsimp only
  split
  · exact pulse.trans (State.putCdu_acts _ _).lawful
  · exact pulse.trans (State.lockedPulse_lawful _)
  · exact pulse.trans (State.loseReference_lawful _)
  · exact pulse
  · exact pulse

theorem execLineSilence_lawful {s t : State} (h : execLineSilence s = .next t) : Lawful s t := by
  refine whenRunning_lawful h ?_
  have silent := (s.putCdu_acts { s.cdu with refLine := none, silentLines := 17 }).lawful
  dsimp only
  split
  · exact silent.trans (State.putCdu_acts _ _).lawful
  · exact silent.trans (State.loseReference_lawful _)
  · exact silent

theorem execMissingFramePulse_lawful {s t : State} (h : execMissingFramePulse s = .next t) : Lawful s t := by
  refine whenRunning_lawful h ?_
  dsimp only
  split
  · exact Lawful.refl s
  · next n _ =>
    have missing := (s.putCdu_acts { s.cdu with refLine := some (max n (s.cdu.frame.lines + 8)) }).lawful
    exact (missing.trans (State.loseReference_lawful _)).ite missing

theorem execRePhasing_lawful {d : Nat} {s t : State} (h : execRePhasing d s = .next t) : Lawful s t :=
  have decided := (s.putCdu_acts (s.cdu.rephase d s.quiet)).lawful
  whenRunning_lawful h (decided.ite (decided.trans (State.beginLine_lawful _))).when

/-! ## The Schedule Store and the Replication Engine -/

theorem execCommitStart_lawful {s t : State} (h : execCommitStart s = .next t) : Lawful s t := by
  refine whenRunning_lawful h ?_
  dsimp only
  split
  · exact ((s.engine_acts s.sst.engine _ false).lawful.trans (State.setEngine_acts _ _).lawful).when
  · exact Lawful.refl s

theorem execCommitEnd_lawful {s t : State} (h : execCommitEnd s = .next t) : Lawful s t := by
  refine whenRunning_lawful h ?_
  split
  · split
    · exact (s.finishCommit_acts _ _).lawful.trans (State.setEngine_acts _ _).lawful
    all_goals exact (s.setEngine_acts _).lawful
  all_goals exact Lawful.refl s

theorem execEditComplete_lawful {s t : State} (h : execEditComplete s = .next t) : Lawful s t := by
  refine whenRunning_lawful h ?_
  split
  · exact (s.completeEdit_acts _ _).lawful.trans (State.setEngine_acts _ _).lawful
  all_goals exact Lawful.refl s

theorem execFlipPerform_lawful {c : Channel} {s t : State} (h : execFlipPerform c s = .next t) : Lawful s t := by
  refine whenRunning_lawful h ?_
  split
  · exact (s.performFlip_acts c _).lawful.when
  · exact Lawful.refl s

theorem State.handleFrame_lawful (s : State) (q : QueuedFrame) : Lawful s (s.handleFrame q) := by
  unfold State.handleFrame
  split
  · exact (s.takeReplication_acts _ _ _).lawful
  · exact (s.takeHeartbeatFrame_acts _ _).lawful

theorem State.takeKind_lawful (s : State) (k : FeedKind) : Lawful s (s.takeKind k) := by
  unfold State.takeKind
  split
  · exact ((s.dropHead_acts _).lawful.trans (State.handleFrame_lawful _ _)).when
  · exact Lawful.refl s

theorem execFeedFrameCompletion_lawful {p : FeedPort} {y : Byte} {bs : List Byte} {k : BitVec 16} {s t : State}
    (h : execFeedFrameCompletion p y bs k s = .next t) : Lawful s t :=
  have wait := (s.rxWait_acts (feedLine p)).lawful
  whenRunning_lawful h ((wait.trans (State.completeFrame_acts _ p (checkedFeedFrame y bs k)).lawful).ite wait)

theorem State.abandonPartial_lawful (s : State) (l : LineId) : Lawful s (s.abandonPartial l) := by
  have wait := (s.rxWait_acts l).lawful
  have flag (k : DeviceFlag) := wait.trans (State.raiseDevice_acts (s.rxWait l) k).lawful
  cases l with
  | fa => exact (flag _).ite wait
  | fb => exact (flag _).ite wait
  | _ => exact wait

theorem State.setFeedEnabled_lawful (s : State) (p : FeedPort) (on : Bool) : Lawful s (s.setFeedEnabled p on) :=
  have port (k : FeedPortState) := (s.putFeed_acts_both p k).lawful
  (Lawful.refl s).ite (((port _).trans (State.rxWait_acts _ _).lawful).ite (port _))

theorem State.reloadReportTimer_lawful (s : State) : Lawful s s.reloadReportTimer := ⟨id, id, id⟩

/-- The command of any feed frame keeps the conditions. -/
theorem whenRunning_takeKind_lawful {k : FeedKind} {s t : State} (h : (whenRunning s fun s => s.takeKind k) = .next t) : Lawful s t :=
  whenRunning_lawful h (s.takeKind_lawful k)

/-! ## The Supervision Unit -/

theorem execSweepStart_lawful {s t : State} (h : execSweepStart s = .next t) : Lawful s t := by
  refine whenRunning_lawful h ?_
  split
  · exact (s.putScan_acts _).lawful
  all_goals exact Lawful.refl s

theorem execKeyLevelAccepted_lawful {s t : State} (h : execKeyLevelAccepted s = .next t) : Lawful s t :=
  have key := (s.putKey_acts ⟨!s.sup.key.asserted, 0⟩).lawful
  have arming := (key.trans (State.raiseDevice_acts _ .keyTakeover).lawful).trans (State.keyArming_acts _).lawful
  whenRunning_lawful h (arming.ite key).when

theorem State.sweepEnd_lawful (s : State) : Lawful s s.sweepEnd :=
  (s.putScan_acts _).lawful.trans (State.raiseDevice_acts _ _).lawful

theorem State.endWindow_lawful (s : State) : Lawful s s.endWindow := by
  unfold State.endWindow
  split
  · split
    · exact (s.putScan_acts _).lawful.trans (State.takeSample_acts _ _ _).lawful
    · exact (s.takeSample_acts _ _).lawful.trans (State.sweepEnd_lawful _)
  · exact (Lawful.foldl _ (fun t c => (t.takeSample_acts c _).lawful) _ s).trans (State.sweepEnd_lawful _)
  · exact Lawful.refl s
  · exact Lawful.refl s

/-! ## The Authority Table and the Cue Scheduler: a channel that goes on stays off MAIN -/

theorem Authority.armed_off {r : Authority} {o : Origin} {p : JoinPlan} (h : r = .armed o p) : r.name ≠ .main := by
  rw [h]
  exact nofun

theorem Authority.standby_off {r : Authority} {a : OnAir} (h : r = .standby a) : r.name ≠ .main := by
  rw [h]
  exact nofun

theorem Authority.held_off {r : Authority} {p : SitePort} {a : OnAir} (h : r = .held p a) : r.name ≠ .main := by
  rw [h]
  exact nofun

theorem execGoToAir_lawful {c : Channel} {s t : State} (h : execGoToAir c s = .next t) : Lawful s t := by
  refine whenRunning_lawful h ?_
  split
  case h_1 o p armed => exact (s.goToAir_acts c p (Authority.armed_off armed)).lawful.when
  all_goals exact Lawful.refl s

theorem execReturnComplete_lawful {c : Channel} {s t : State} (h : execReturnComplete c s = .next t) : Lawful s t := by
  refine whenRunning_lawful h ?_
  split
  · exact (s.becomeMain_acts c).lawful.when
  all_goals exact Lawful.refl s

theorem execSegmentStart_lawful {c : Channel} {s t : State} (h : execSegmentStart c s = .next t) : Lawful s t := by
  refine whenRunning_lawful h ?_
  split
  · exact ((s.startHead_acts c _).lawful.trans (State.planAfterStart_acts _ c _).lawful).when
  · exact Lawful.refl s

theorem execCueTake_lawful {s t : State} (h : execCueTake s = .next t) : Lawful s t := by
  refine whenRunning_lawful h ?_
  split
  · exact (s.takeEntry_acts _ _).lawful
  · exact Lawful.refl s

theorem execCueSendEnd_lawful {s t : State} (h : execCueSendEnd s = .next t) : Lawful s t := by
  refine whenRunning_lawful h ?_
  split
  · exact (s.sendEnded_acts _).lawful.when
  · exact Lawful.refl s

theorem State.replyTo_lawful (s : State) (k : Txn) (ok : Bool) : Lawful s (s.replyTo k ok) :=
  (s.sendEnded_acts k).lawful.when.trans (State.endTxn_acts _ k ok).lawful

theorem execCueReply_lawful {a r : Byte} {s t : State} (h : execCueReply a r s = .next t) : Lawful s t := by
  refine whenRunning_lawful h ?_
  split
  · exact (s.replyTo_lawful _ _).when
  · exact Lawful.refl s

theorem execCueReplyTimeout_lawful {s t : State} (h : execCueReplyTimeout s = .next t) : Lawful s t := by
  refine whenRunning_lawful h ?_
  split
  · exact (s.endTxn_acts _ _).lawful.when
  · exact Lawful.refl s

/-! ## The Crosspoint Sequencer -/

theorem execCrosspointAck_lawful {d n r : Byte} {s t : State} (h : execCrosspointAck d n r s = .next t) : Lawful s t := by
  refine whenRunning_lawful h ?_
  split
  · exact Lawful.refl s
  · next x rest _ =>
    have taken := (s.putAwaiting_acts rest).lawful
    exact (taken.trans (State.acknowledge_acts _ x.destination x.source).lawful).ite (taken.trans (State.raise_acts _ _ _).lawful)

theorem execCrosspointAckTimeout_lawful {d : Fin 64} {s t : State} (h : execCrosspointAckTimeout d s = .next t) : Lawful s t := by
  refine whenRunning_lawful h ?_
  split
  · exact Lawful.refl s
  · exact (s.putAwaiting_acts _).lawful.trans (State.raise_acts _ _ _).lawful

/-! ## The Site Link Interface and the taking of a request (R164 to R168) -/

theorem State.siteSilent_lawful (s : State) (p : SitePort) : Lawful s (s.siteSilent p) :=
  ((s.putSite_acts p _).lawful.trans (State.raiseDevice_acts _ _).lawful).trans (State.lapseHolds_acts _ p).lawful

theorem execAnswerTransmitBegin_lawful {p : SitePort} {s t : State} (h : execAnswerTransmitBegin p s = .next t) : Lawful s t := by
  refine whenRunning_lawful h ?_
  dsimp only
  split
  · exact (s.putSite_acts p _).lawful
  · exact Lawful.refl s

theorem execNoticeTransmitBegin_lawful {p : SitePort} {s t : State} (h : execNoticeTransmitBegin p s = .next t) : Lawful s t := by
  refine whenRunning_lawful h ?_
  dsimp only
  split
  · exact (s.putSite_acts p _).lawful.when
  · exact Lawful.refl s

theorem State.answerBy_lawful (s : State) (p : SitePort) (code : Byte) (tag : Tag) {owner : State → Verdict}
    (h : ∀ t, Lawful t (owner t).state) : Lawful s (s.answerBy p code tag owner) :=
  (s.validFrame_acts p).lawful.trans ((h _).trans (State.queueAnswer_acts _ p _).lawful).when

theorem execUnknownRequest_lawful {p : SitePort} {code : Byte} {tag : Tag} {s t : State}
    (h : execUnknownRequest p code tag s = .next t) : Lawful s t :=
  whenRunning_lawful h (s.answerBy_lawful p code tag fun u => Lawful.refl u)

theorem State.request_lawful {α : Type} (s : State) (p : SitePort) (code : Byte) (r : Request α) {owner : α → State → Verdict}
    (h : ∀ x t, Lawful t (owner x t).state) : Lawful s (s.request p code r owner) := by
  refine s.answerBy_lawful p code _ fun t => ?_
  split
  · exact h _ t
  · exact Lawful.refl t

/-- A site request keeps the conditions where its owner does. -/
theorem whenRunning_request_lawful {α : Type} {s t : State} {p : SitePort} {code : Byte} {r : Request α}
    {owner : α → State → Verdict} (h : (whenRunning s fun s => s.request p code r owner) = .next t)
    (k : ∀ x u, Lawful u (owner x u).state) : Lawful s t :=
  whenRunning_lawful h (s.request_lawful p code r k)

theorem State.onChannel_lawful (s : State) (b : Byte) {owner : Channel → Verdict} (h : ∀ c, Lawful s (owner c).state) :
    Lawful s (s.onChannel b owner).state := by
  unfold State.onChannel
  split
  · exact h _
  · exact Lawful.refl s

theorem State.asHolder_lawful (s : State) (p : SitePort) (c : Channel) {owner : Verdict} (h : Lawful s owner.state) :
    Lawful s (s.asHolder p c owner).state := by
  unfold State.asHolder
  split
  · split
    · exact h
    · exact Lawful.refl s
  · exact h

/-! ## The requests' owners -/

/-- A request that is refused on a condition, and decided by its owner otherwise. -/
theorem Lawful.unlessRefused {s : State} {p : Prop} [Decidable p] {k : AnswerCode} {v : Verdict} (h : Lawful s v.state) :
    Lawful s (if p then s.refuse k else v).state := by
  split
  · exact Lawful.refl s
  · exact h

/-- A request that its owner decides on a condition, and that is refused otherwise. -/
theorem Lawful.elseRefused {s : State} {p : Prop} [Decidable p] {k : AnswerCode} {v : Verdict} (h : Lawful s v.state) :
    Lawful s (if p then v else s.refuse k).state := by
  split
  · exact h
  · exact Lawful.refl s

theorem State.readEvent_lawful (s : State) (c : Channel) (x : EventReadFields) : Lawful s (s.readEvent c x).state := by
  unfold State.readEvent
  split
  · split
    · exact Lawful.refl s
    · exact Lawful.refl s
  · exact Lawful.refl s

/-- R116, R119: a channel is taken only where it is ready, so where no other channel off MAIN has its destination. -/
theorem State.takeOne_lawful (s : State) (p : SitePort) (c : Channel) : Lawful s (s.takeOne p c).state := by
  unfold State.takeOne
  refine Lawful.elseRefused ?_
  split
  · exact Lawful.refl s
  · exact Lawful.refl s
  · next ready => exact (s.arm_acts c _ (Or.inr (State.ready_apart ready))).lawful

theorem takeNext_lawful (p : SitePort) (x : State × List Channel) (c : Channel) : Lawful x.1 (takeNext p x c).1 := by
  unfold takeNext
  split
  · next h =>
    obtain ⟨_, ready⟩ := Bool.and_eq_true_iff.mp h
    exact (x.1.arm_acts c _ (Or.inr (State.ready_apart (eq_of_beq ready)))).lawful
  · exact (x.1.passOver_acts _ c).lawful

theorem takeNext_foldl_lawful (p : SitePort) (cs : List Channel) (x : State × List Channel) :
    Lawful x.1 (cs.foldl (takeNext p) x).1 := by
  induction cs generalizing x with
  | nil => exact Lawful.refl x.1
  | cons c cs ih => exact (takeNext_lawful p x c).trans (ih _)

theorem State.takeEvery_lawful (s : State) (p : SitePort) : Lawful s (s.takeEvery p).state := by
  have pass := takeNext_foldl_lawful p channels (s, [])
  unfold State.takeEvery
  generalize channels.foldl (takeNext p) (s, []) = x at pass
  dsimp only
  split
  · exact pass
  · exact pass

theorem execTake_lawful {p : SitePort} {r : Request Byte} {s t : State} (h : execTake p r s = .next t) : Lawful s t := by
  refine whenRunning_request_lawful h fun b u => ?_
  split
  · exact u.takeEvery_lawful p
  · exact u.onChannel_lawful b (u.takeOne_lawful p)

theorem execTakeAll_lawful {p : SitePort} {tag : Tag} {s t : State} (h : execTakeAll p tag s = .next t) : Lawful s t :=
  whenRunning_lawful h (s.answerBy_lawful p 0x25 tag fun u => u.takeEvery_lawful p)

theorem State.cancelArming_lawful (s : State) (c : Channel) : Lawful s (s.cancelArming c).state := by
  unfold State.cancelArming
  split
  · exact (s.abort_acts c _).lawful
  all_goals exact Lawful.refl s

theorem State.holdRequest_lawful (s : State) (p : SitePort) (c : Channel) : Lawful s (s.holdRequest p c).state := by
  unfold State.holdRequest
  split
  case h_5 a standby => exact (s.hold_acts c p a (Authority.standby_off standby)).lawful
  all_goals exact Lawful.refl s

theorem State.releaseRequest_lawful (s : State) (c : Channel) : Lawful s (s.releaseRequest c).state := by
  unfold State.releaseRequest
  split
  case h_1 p a held => exact (s.release_acts c (Authority.held_off held)).lawful
  all_goals exact Lawful.refl s

theorem State.returnFrom_lawful (s : State) (c : Channel) (p : Prior) (m : ReturnMode) (a : OnAir)
    (off : (s.authority c).name ≠ .main) : Lawful s (s.returnFrom c p m a).state :=
  Lawful.elseRefused (s.acceptReturn_acts c p m a off).lawful

theorem State.returnRequest_lawful (s : State) (c : Channel) (mode : Byte) : Lawful s (s.returnRequest c mode).state := by
  unfold State.returnRequest
  split
  · exact Lawful.refl s
  · split
    case h_4 a standby => exact s.returnFrom_lawful c _ _ a (Authority.standby_off standby)
    case h_5 h a held => exact s.returnFrom_lawful c _ _ a (Authority.held_off held)
    all_goals exact Lawful.refl s

theorem State.routeRequest_lawful (s : State) (c : Channel) (source : Nat) : Lawful s (s.routeRequest c source).state := by
  unfold State.routeRequest
  split
  case h_5 h a held => exact Lawful.unlessRefused (s.route_acts c h source (by rw [held]; rfl)).lawful
  all_goals exact Lawful.refl s

theorem State.setTimeRequest_lawful (s : State) (t : TimeBytes) : Lawful s (s.setTimeRequest t).state := by
  unfold State.setTimeRequest
  split
  · exact Lawful.refl s
  · exact Lawful.refl s
  all_goals
    split
    · exact (s.putStc_acts _).lawful
    · exact Lawful.refl s

/-! ## The settings' owners -/

/-- R137: the settings of a channel in MAIN are no part of the conditions: its tally is inactive whatever they are, and only channels
off MAIN are held apart. -/
theorem State.putCfg_lawful {s : State} {c : Channel} (main : s.isMain c = true) (k : ChannelSettings) : Lawful s (s.putCfg c k) where
  tally h d := by
    by_cases same : d = c
    · subst same
      have authority := State.isMain_iff.mp main
      rw [State.tallyValue_main (s := s.putCfg d k) authority]
      exact (h d).trans (State.tallyValue_main authority)
    · have value : (s.putCfg c k).tallyValue d = s.tallyValue d := by
        rw [State.tallyValue, State.cfg_putCfg, if_neg same]
        rfl
      rw [value]
      exact h d
  alarm := id
  apart h d e distinct offD offE := by
    have notMain {x : Channel} (off : (s.putCfg c k).isMain x = false) : x ≠ c := by
      rintro rfl
      rw [State.putCfg_isMain, main] at off
      cases off
    rw [State.cfg_putCfg, State.cfg_putCfg, if_neg (notMain offD), if_neg (notMain offE)]
    exact h d e distinct offD offE

theorem State.applyChannel_lawful {s : State} {c : Channel} (main : s.isMain c = true) (k : ChannelSettings) :
    Lawful s (s.applyChannel c k) :=
  have settings := State.putCfg_lawful main k
  settings.ite (settings.trans (State.enableChanged_acts _ c).lawful)

theorem State.configureChannelRequest_lawful (s : State) (c : Channel) (x : ChannelItems) :
    Lawful s (s.configureChannelRequest c x).state := by
  unfold State.configureChannelRequest
  refine Lawful.unlessRefused ?_
  split
  · exact Lawful.refl s
  · next main => exact Lawful.unlessRefused (State.applyChannel_lawful (by simpa using main) _)

theorem State.takeFormat_lawful (s : State) (f : Option Format) : Lawful s (s.takeFormat f) := by
  unfold State.takeFormat
  split
  · exact (Lawful.refl s).ite (s.changeFormat_lawful _)
  · exact Lawful.refl s

theorem State.putWindow_lawful (s : State) (first last : Nat) (lock : Bool) : Lawful s (s.putWindow first last lock) := ⟨id, id, id⟩

theorem State.configureCadenceRequest_lawful (s : State) (x : CadenceItems) : Lawful s (s.configureCadenceRequest x).state := by
  unfold State.configureCadenceRequest
  refine Lawful.unlessRefused (Lawful.unlessRefused (Lawful.unlessRefused (Lawful.unlessRefused ?_)))
  exact (s.takeFormat_lawful _).trans (State.putWindow_lawful _ _ _ _)

theorem State.putPorts_lawful (s : State) (x : PortItems) : Lawful s (s.putPorts x) := ⟨id, id, id⟩

theorem State.configurePortsRequest_lawful (s : State) (x : PortItems) : Lawful s (s.configurePortsRequest x).state :=
  Lawful.unlessRefused (s.putPorts_lawful x)

theorem State.putScanItems_lawful (s : State) (x : ScanItems) : Lawful s (s.putScanItems x) := ⟨id, id, id⟩

theorem State.applyScan_lawful (s : State) (x : ScanItems) : Lawful s (s.applyScan x) :=
  (s.putScanItems_lawful x).trans (Lawful.foldl (fun t c => if s.masked c && !t.masked c then t.unscan c else t)
    (fun t c => (t.unscan_acts c).lawful.when) channels _)

theorem State.configureScanRequest_lawful (s : State) (x : ScanItems) : Lawful s (s.configureScanRequest x).state :=
  Lawful.unlessRefused (Lawful.unlessRefused (Lawful.unlessRefused (s.applyScan_lawful x)))

theorem State.scanStartRequest_lawful (s : State) : Lawful s s.scanStartRequest.state :=
  Lawful.unlessRefused (Lawful.unlessRefused (s.putScan_acts _).lawful)

theorem State.feedEnableRequest_lawful (s : State) (x : FeedEnableFields) : Lawful s (s.feedEnableRequest x).state := by
  unfold State.feedEnableRequest
  split
  · exact Lawful.elseRefused (s.setFeedEnabled_lawful _ _)
  · exact Lawful.refl s

theorem State.clearChannel_lawful (s : State) (c : Channel) : Lawful s (s.clearChannel c) :=
  ((s.putBaseline_acts c none).lawful.trans (State.emptyPages_acts _ c).lawful).trans (State.unhear_acts _ c).lawful

theorem execClearChannel_lawful {p : SitePort} {r : Request Byte} {s t : State} (h : execClearChannel p r s = .next t) :
    Lawful s t :=
  whenRunning_request_lawful h fun b u => u.onChannel_lawful b fun c => Lawful.elseRefused (u.clearChannel_lawful c)

theorem State.clearName_lawful (s : State) (n : FlagName) : Lawful s (s.clearName n) := by
  unfold State.clearName
  split
  · exact (s.clearDevice_acts _).lawful
  · split
    · exact (s.clearFlag_acts _ _).lawful
    · exact Lawful.foldl _ (fun t c => (t.clearFlag_acts _ c).lawful) channels s
  · exact Lawful.refl s

theorem State.clearFlagsRequest_lawful (s : State) (names : List FlagName) : Lawful s (s.clearFlagsRequest names).state := by
  unfold State.clearFlagsRequest
  split
  · exact s.clearAllFlags_acts.lawful
  · exact Lawful.refl s
  · exact Lawful.foldl _ State.clearName_lawful _ s

theorem execSetNoticeMask_lawful {p : SitePort} {r : Request (BitVec 32)} {s t : State} (h : execSetNoticeMask p r s = .next t) :
    Lawful s t :=
  whenRunning_request_lawful h fun _ u => Lawful.elseRefused (u.putSite_acts p _).lawful

/-- R178: a new alarm mask is followed by an evaluation of ALM. -/
theorem State.putAlarm_lawful (s : State) (x : AlarmMaskFields) : Lawful s (s.putAlarm x) := ⟨id, fun _ => rfl, id⟩

theorem State.alarmMaskRequest_lawful (s : State) (x : AlarmMaskFields) : Lawful s (s.alarmMaskRequest x).state :=
  Lawful.unlessRefused (Lawful.elseRefused (s.putAlarm_lawful x))

theorem State.saveRequest_lawful (s : State) : Lawful s s.saveRequest.state := Lawful.unlessRefused (s.putSave_acts _).lawful

theorem execSaveComplete_lawful {x : Option Bank} {s t : State} (h : execSaveComplete x s = .next t) : Lawful s t := by
  refine whenRunning_lawful h ?_
  split
  · next j _ =>
    have completed : Lawful s { s with store := s.store.completed j x } := ⟨id, id, id⟩
    exact completed.when
  · exact Lawful.refl s

/-! ## Every command, and every step -/

/-- What every command keeps, whatever the state: the tallies (R160), ALM (R161) and that destinations stay apart (R116). -/
theorem exec_lawful {i : Instr} {s t : State} (h : exec i s = .next t) : Lawful s t := by
  cases i with
  | powerOnReset =>
    cases h
    exact s.heldInReset_lawful _
  | nrstAccepted =>
    cases h
    exact s.heldInReset_lawful true
  | resetEnd => exact execResetEnd_lawful h
  | refLinePulse => exact execRefLinePulse_lawful h
  | refFramePulse => exact execRefFramePulse_lawful h
  | lineSilence => exact execLineSilence_lawful h
  | missingFramePulse => exact execMissingFramePulse_lawful h
  | rePhasing _ => exact execRePhasing_lawful h
  | frameStart k => exact whenRunning_lawful (f := fun s => s.frameStart k) h (s.frameStart_lawful k)
  | switchWindowEvent => exact execSwitchWindowEvent_lawful h
  | localFrameWrap =>
    exact whenRunning_lawful h ((s.putStc_acts _).lawful.trans (State.wrapTaken_acts s.addWrap).lawful).when
  | turnRecordExpiry => exact whenRunning_lawful h (s.putStc_acts _).lawful.when
  | feedFrameCompletion _ _ _ _ => exact execFeedFrameCompletion_lawful h
  | partialFrameAbandon l => exact whenRunning_lawful h (s.abandonPartial_lawful l).when
  | listBegin => exact whenRunning_takeKind_lawful (k := .listBegin) h
  | event => exact whenRunning_takeKind_lawful (k := .event) h
  | listEnd => exact whenRunning_takeKind_lawful (k := .listEnd) h
  | listAbort => exact whenRunning_takeKind_lawful (k := .listAbort) h
  | insertAfter => exact whenRunning_takeKind_lawful (k := .insertAfter) h
  | replace => exact whenRunning_takeKind_lawful (k := .replace) h
  | delete => exact whenRunning_takeKind_lawful (k := .delete) h
  | flip => exact whenRunning_takeKind_lawful (k := .flip) h
  | heartbeat => exact whenRunning_takeKind_lawful (k := .heartbeat) h
  | commitStart => exact execCommitStart_lawful h
  | commitEnd => exact execCommitEnd_lawful h
  | editComplete => exact execEditComplete_lawful h
  | flipPerform _ => exact execFlipPerform_lawful h
  | reportTimerExpiry =>
    exact whenRunning_lawful h (s.reloadReportTimer_lawful.trans (State.reportDue_acts _).lawful).when
  | reportTransmitEnd p =>
    exact whenRunning_lawful (f := fun s => s.putFeed p { s.feed p with tx := (s.feed p).tx.ended }) h
      (s.putFeed_acts_both p _).lawful
  | feedEnable _ _ => exact whenRunning_request_lawful h fun x t => t.feedEnableRequest_lawful x
  | feedWatchExpiry p => exact whenRunning_lawful h (s.feedSilent_acts p).lawful.when
  | presencePulse _ _ => exact whenRunning_lawful h (s.putScan_acts _).lawful.when
  | windowEnd => exact whenRunning_lawful h s.endWindow_lawful
  | sweepStart => exact execSweepStart_lawful h
  | confirmExpiry c => exact whenRunning_lawful h (s.setHealth_acts c _).lawful.when
  | keyLevelAccepted => exact execKeyLevelAccepted_lawful h
  | goToAir _ => exact execGoToAir_lawful h
  | returnComplete _ => exact execReturnComplete_lawful h
  | segmentStart _ => exact execSegmentStart_lawful h
  | cueTake => exact execCueTake_lawful h
  | cueSendEnd => exact execCueSendEnd_lawful h
  | cueReply _ _ => exact execCueReply_lawful h
  | cueReplyTimeout => exact execCueReplyTimeout_lawful h
  | crosspointIssue =>
    have issued := Lawful.foldl _ (fun t d => (t.issueOn_acts d).lawful) destinations s
    exact whenRunning_lawful h (issued.trans (State.takeEvent_acts _).lawful).when
  | crosspointAck _ _ _ => exact execCrosspointAck_lawful h
  | crosspointAckTimeout _ => exact execCrosspointAckTimeout_lawful h
  | siteFrameCheckFail p => exact whenRunning_lawful (f := fun s => s.rxWait (siteLine p)) h (s.rxWait_acts _).lawful
  | siteSilenceExpiry p => exact whenRunning_lawful h (s.siteSilent_lawful p).when
  | answerTransmitBegin _ => exact execAnswerTransmitBegin_lawful h
  | noticeTransmitBegin _ => exact execNoticeTransmitBegin_lawful h
  | siteTransmitEnd p =>
    exact whenRunning_lawful (f := fun s => s.putSite p { s.site p with sending := none }) h (s.putSite_acts p _).lawful
  | unknownRequest _ _ _ => exact execUnknownRequest_lawful h
  | status _ _ => exact whenRunning_request_lawful h fun _ t => Lawful.refl t
  | channel _ _ => exact whenRunning_request_lawful h fun _ t => t.onChannel_lawful _ fun _ => Lawful.refl t
  | eventRead _ _ =>
    exact whenRunning_request_lawful h fun x u => u.onChannel_lawful _ fun c => u.readEvent_lawful c x
  | clock _ _ => exact whenRunning_request_lawful h fun _ t => Lawful.refl t
  | flags _ _ => exact whenRunning_request_lawful h fun _ t => Lawful.refl t
  | take _ _ => exact execTake_lawful h
  | takeAll _ _ => exact execTakeAll_lawful h
  | cancel _ _ => exact whenRunning_request_lawful h fun _ t => t.onChannel_lawful _ t.cancelArming_lawful
  | hold p _ =>
    exact whenRunning_request_lawful h fun _ t => t.onChannel_lawful _ fun c => t.asHolder_lawful p c (t.holdRequest_lawful p c)
  | release p _ =>
    exact whenRunning_request_lawful h fun _ t => t.onChannel_lawful _ fun c => t.asHolder_lawful p c (t.releaseRequest_lawful c)
  | returnToMain p _ =>
    exact whenRunning_request_lawful h fun x t => t.onChannel_lawful _ fun c => t.asHolder_lawful p c (t.returnRequest_lawful c x.mode)
  | route p _ =>
    exact whenRunning_request_lawful h fun x t => t.onChannel_lawful _ fun c => t.asHolder_lawful p c (t.routeRequest_lawful c _)
  | setTime _ _ => exact whenRunning_request_lawful h fun x t => t.setTimeRequest_lawful x
  | configureChannel _ _ =>
    exact whenRunning_request_lawful h fun x t => t.onChannel_lawful _ fun c => t.configureChannelRequest_lawful c x.items
  | configureCadence _ _ => exact whenRunning_request_lawful h fun x t => t.configureCadenceRequest_lawful x
  | configurePorts _ _ => exact whenRunning_request_lawful h fun x t => t.configurePortsRequest_lawful x
  | configureScan _ _ => exact whenRunning_request_lawful h fun x t => t.configureScanRequest_lawful x
  | scanStart _ _ => exact whenRunning_request_lawful h fun _ t => t.scanStartRequest_lawful
  | scanStop _ _ => exact whenRunning_request_lawful h fun _ t => (t.putScan_acts _).lawful
  | clearChannel _ _ => exact execClearChannel_lawful h
  | clearFlags _ _ => exact whenRunning_request_lawful h fun names t => t.clearFlagsRequest_lawful names
  | setNoticeMask _ _ => exact execSetNoticeMask_lawful h
  | setAlarmMask _ _ => exact whenRunning_request_lawful h fun x t => t.alarmMaskRequest_lawful x
  | save _ _ => exact whenRunning_request_lawful h fun _ t => t.saveRequest_lawful
  | saveComplete _ => exact execSaveComplete_lawful h
  | keepalive _ _ => exact whenRunning_request_lawful h fun _ t => Lawful.refl t

theorem State.takeByte_lawful {s t : State} {l : LineId} {b : Byte} {rest : List (LineId × Byte)}
    (h : s.takeByte l b rest = .next t) : Lawful s t := by
  have received : Lawful s { s with incoming := rest, rx := s.rx.put l ((s.rx.get l).byte b).1 } := ⟨id, id, id⟩
  unfold State.takeByte at h
  dsimp only at h
  split at h
  · cases h
    exact received
  · cases h
    exact received.trans (State.abandonPartial_lawful _ l)
  · split at h
    · exact received.trans (exec_lawful h)
    · cases h
      exact received

theorem idleHeld_lawful {s t : State} (h : idleHeld s = .next t) : Lawful s t := by
  have line : Lawful s { s with pins := s.pins.nextLine } := ⟨id, id, id⟩
  unfold idleHeld at h
  dsimp only at h
  split at h
  · cases h
    exact ⟨id, id, id⟩
  · split at h
    · cases h
      exact line
    · exact line.trans (exec_lawful h)

theorem idle_lawful {s t : State} (h : idle s = .next t) : Lawful s t := by
  unfold idle at h
  split at h
  · exact idleHeld_lawful h
  · split at h
    · exact exec_lawful h
    · exact State.takeByte_lawful h
    · cases h
      exact s.lineTick_lawful

theorem step_lawful {s t : State} (h : step s = .next t) : Lawful s t := by
  unfold step at h
  split at h
  · next rest _ =>
    have front : Lawful s { s with pending := rest } := ⟨id, id, id⟩
    exact front.trans (exec_lawful h)
  · exact idle_lawful h

/-! ## The readiness test (R115, R116) -/

theorem State.destinationTaken_of_off {s : State} {c d : Channel} (distinct : c ≠ d) (off : s.isMain d = false)
    (same : (s.cfg c).destination = (s.cfg d).destination) : s.destinationTaken c = true :=
  List.any_eq_true.mpr ⟨d, mem_channels d, by simp [distinct.symm, same, off]⟩

theorem State.readiness_of_taken {s : State} {c : Channel} (taken : s.destinationTaken c = true) :
    s.readiness c = if s.readyAlone c then .conflict else .notReady := by
  rw [State.readiness, if_pos taken]

/-- Settles O6: a channel leaves MAIN only by an arming that found no other channel off MAIN on its destination, and its settings change
only in MAIN (R137), so every command keeps destinations apart; and a taken destination is the test's last condition. -/
theorem destinationsStayApart : Obligations.DestinationsStayApart := by
  refine ⟨fun s t apart run => (step_lawful run).apart apart, fun s c d distinct off same => ?_⟩
  have readiness := State.readiness_of_taken (State.destinationTaken_of_off distinct off same)
  refine ⟨?_, fun alone => by rw [readiness, if_pos alone]⟩
  rw [readiness]
  split
  · exact nofun
  · exact nofun

end Sys2Proof.Machine

namespace Sys2Proof.Machine

/-! ## The tallies and ALM, kept and shown on their outputs (R160, R161, R186) -/

/-- While no reset holds the part every output is driven, at the level that its polarity gives. -/
theorem State.levelOf_running {s : State} (running : s.power = .running) (p : Polarity) (active : Bool) :
    s.levelOf p active = some (if p = .activeHigh then active else !active) := by
  unfold State.levelOf
  rw [running]
  cases p with
  | activeHigh => rfl
  | activeLow => rfl

/-- Settles O4: whatever a step changes of an authority, of a last acknowledged source or of a channel's settings, it evaluates the
tallies that depend on it or leaves them at their value (`step_lawful`); and the level is that of the polarity. -/
theorem talliesStayRight : Obligations.TalliesStayRight :=
  ⟨fun _ _ right run => (step_lawful run).tally right,
    fun s c running => State.levelOf_running running (s.cfg c).tallyPolarity s.xps.tally[c]⟩

/-- Settles O5: whatever a step changes of a channel's health, of a flag or of the alarm mask, it evaluates ALM after it or leaves it
at its value (`step_lawful`); and the level is that of the polarity. -/
theorem alarmStaysRight : Obligations.AlarmStaysRight :=
  ⟨fun _ _ right run => (step_lawful run).alarm right,
    fun s running => State.levelOf_running running s.live.almPolarity s.xps.alarm⟩

end Sys2Proof.Machine

namespace Sys2Proof.Machine

/-! ## The bank that a reset loads (R184) -/

theorem validBank_of_valid {x : Bank} (valid : imageValid x.image = true) : validBank (some x) = some x :=
  if_pos valid

theorem validBank_of_invalid {k : Option Bank} (invalid : ∀ x, k = some x → imageValid x.image = false) : validBank k = none := by
  cases k with
  | none => rfl
  | some x => exact if_neg (by simp [invalid x rfl])

theorem newer_iff {x y : Bank} :
    newer x y = true ↔ 1 ≤ (x.generation - y.generation).toNat ∧ (x.generation - y.generation).toNat ≤ 32767 := by
  simp [newer]

theorem not_newer_of_equal_or_far {x y : Bank}
    (h : x.generation = y.generation ∨ 32768 ≤ (x.generation - y.generation).toNat) : newer x y = false := by
  rw [Bool.eq_false_iff, Ne, newer_iff]
  rintro ⟨near, bound⟩
  rcases h with equal | far
  · simp [equal] at near
  · omega

theorem chooseBank_both {x y : Bank} (validX : imageValid x.image = true) (validY : imageValid y.image = true) :
    chooseBank ⟨some x, some y⟩ = if newer y x then some (.B, y) else some (.A, x) := by
  simp only [chooseBank, validBank_of_valid validX, validBank_of_valid validY]

theorem chooseBank_only {banks : PerSide (Option Bank)} {b : BankId} {x : Bank} (holds : banks.get b = some x)
    (valid : imageValid x.image = true) (invalid : ∀ y, banks.get b.other = some y → imageValid y.image = false) :
    chooseBank banks = some (b, x) := by
  have this : validBank (banks.get b) = some x := by rw [holds, validBank_of_valid valid]
  have that : validBank (banks.get b.other) = none := validBank_of_invalid invalid
  cases b with
  | A =>
    change validBank banks.a = some x at this
    change validBank banks.b = none at that
    simp only [chooseBank, this, that]
  | B =>
    change validBank banks.b = some x at this
    change validBank banks.a = none at that
    simp only [chooseBank, this, that]

theorem chooseBank_neither {banks : PerSide (Option Bank)}
    (invalid : ∀ b y, banks.get b = some y → imageValid y.image = false) : chooseBank banks = none := by
  have a : validBank banks.a = none := validBank_of_invalid (invalid .A)
  have b : validBank banks.b = none := validBank_of_invalid (invalid .B)
  simp only [chooseBank, a, b]

/-! ## What a reset makes of the banks (R183, R184) -/

theorem exec_reset {s : State} {i : Instr} (reset : i = .powerOnReset ∨ i = .nrstAccepted) :
    ∃ nrst, exec i s = .next (s.heldInReset nrst) := by
  rcases reset with rfl | rfl
  · exact ⟨s.pins.nrst, rfl⟩
  · exact ⟨true, rfl⟩

@[simp] theorem State.heldInReset_banks (s : State) (nrst : Bool) : (s.heldInReset nrst).store.banks = s.banksAtReset := rfl

theorem State.banksAtReset_idle {s : State} (idle : s.store.save = none) : s.banksAtReset = s.store.banks := by
  rw [State.banksAtReset, idle]

theorem State.banksAtReset_saving {s : State} {j : SaveJob} (saving : s.store.save = some j) :
    s.banksAtReset = s.store.banks.put j.bank (s.tornBank j.bank) := by
  rw [State.banksAtReset, saving]

theorem State.tornBank_kept_or_none (s : State) (b : BankId) : s.tornBank b = s.store.banks.get b ∨ s.tornBank b = none := by
  unfold State.tornBank
  split
  · exact .inl rfl
  · exact .inr rfl

theorem State.heldInReset_of_chosen {s : State} {b : BankId} {x : Bank} (chosen : chooseBank s.banksAtReset = some (b, x))
    (nrst : Bool) :
    (s.heldInReset nrst).live = loadImage x.image ∧ (s.heldInReset nrst).store.current = some b
      ∧ (s.heldInReset nrst).store.defaulted = false := by
  simp [State.heldInReset, State.loaded, Store.loaded, loadedSettings, chosen]

theorem State.heldInReset_of_neither {s : State} (chosen : chooseBank s.banksAtReset = none) (nrst : Bool) :
    (s.heldInReset nrst).live = factorySettings ∧ (s.heldInReset nrst).store.current = none
      ∧ (s.heldInReset nrst).store.defaulted = true := by
  simp [State.heldInReset, State.loaded, Store.loaded, loadedSettings, chosen]

theorem Side.other_ne (p : Side) : p.other ≠ p := by
  cases p <;> decide

/-- Settles O58: every reset holds the part over what `chooseBank` picks of the banks it finds. With no SAVE running these are the banks
as they stand; a SAVE cut short replaces its own bank alone. -/
theorem resetLoadsTheNewerBank : Obligations.ResetLoadsTheNewerBank := by
  intro s i reset
  obtain ⟨nrst, run⟩ := exec_reset (s := s) reset
  refine ⟨fun idle => ⟨_, run, ?_⟩, fun j saving => ⟨_, run, ?_⟩⟩
  · have found : s.banksAtReset = s.store.banks := State.banksAtReset_idle idle
    refine ⟨found, fun x y both validX validY => ?_, fun b x holds valid invalid => ?_, fun invalid => ?_⟩
    · have choice := chooseBank_both validX validY
      rw [← both, ← found] at choice
      refine ⟨fun near => ?_, fun equalOrFar => ?_⟩
      · exact State.heldInReset_of_chosen (by rw [choice, if_pos (newer_iff.mpr near)]) nrst
      · exact State.heldInReset_of_chosen (by simp [choice, not_newer_of_equal_or_far equalOrFar]) nrst
    · exact State.heldInReset_of_chosen (by rw [found, chooseBank_only holds valid invalid]) nrst
    · exact State.heldInReset_of_neither (by rw [found, chooseBank_neither invalid]) nrst
  · rw [State.heldInReset_banks, State.banksAtReset_saving saving, PerSide.get_put_self,
      PerSide.get_put_ne _ _ _ _ (Side.other_ne j.bank)]
    exact ⟨rfl, s.tornBank_kept_or_none j.bank⟩

end Sys2Proof.Machine

namespace Sys2Proof.Machine

/-! # The frame of every command (O3) -/

/-! ## Only some parts change: branches and folds -/

theorem OnlyChanges.ite {ps : List Part} {s t u : State} {p : Prop} [Decidable p] (h : OnlyChanges ps s t)
    (k : OnlyChanges ps s u) : OnlyChanges ps s (if p then t else u) := by
  split
  · exact h
  · exact k

theorem OnlyChanges.when {ps : List Part} {s t : State} {p : Prop} [Decidable p] (h : OnlyChanges ps s t) :
    OnlyChanges ps s (if p then t else s) := h.ite (OnlyChanges.refl ps s)

theorem whenRunning_only {ps : List Part} {s t : State} {f : State → State} (h : whenRunning s f = .next t)
    (k : OnlyChanges ps s (f s)) : OnlyChanges ps s t := by
  rcases whenRunning_cases h with rfl | rfl
  · exact k
  · exact OnlyChanges.refl _ _

theorem everyChannel_sub {f : Channel → List Part} {ps : List Part} (h : ∀ c, f c ⊆ ps) : everyChannel f ⊆ ps := fun _ hp => by
  obtain ⟨c, _, hc⟩ := List.mem_flatMap.mp hp
  exact h c hc

theorem everyChannel_mono {f g : Channel → List Part} (h : ∀ c, f c ⊆ g c) : everyChannel f ⊆ everyChannel g :=
  everyChannel_sub fun c => List.Subset.trans (h c) (mem_everyChannel c)

/-! ## Resets -/

theorem State.heldInReset_only (s : State) (nrst : Bool) : OnlyChanges resetParts s (s.heldInReset nrst) := by
  intro p hp
  cases p with
  | incoming => rfl
  | pending => rfl
  | _ => simp [resetParts, everyChannel, mem_channels] at hp

theorem execResetEnd_only {s t : State} (h : execResetEnd s = .next t) : OnlyChanges [.power, .pins] s t := by
  unfold execResetEnd at h
  split at h
  · cases h
    intro p hp
    cases p <;> first | rfl | simp at hp
  · cases h
    exact OnlyChanges.refl _ s

/-! ## The Cadence Unit -/

/-- What the end of a line can change: the line period that begins with it samples NRST, and a gated line reaches the scanner. -/
def lineParts : List Part := [.pins, .cadence, .scan, .store]

theorem State.gateLine_only (s : State) : OnlyChanges [.scan] s s.gateLine := (s.putScan_acts _).only.when

theorem State.beginLine_only (s : State) : OnlyChanges [.pins, .store] s s.beginLine := by
  intro p hp
  cases p <;> first | rfl | simp at hp

theorem State.endLine_only (s : State) : OnlyChanges lineParts s s.endLine := by
  have line : OnlyChanges lineParts s (s.gateLine.putCdu s.cdu.nextLine) :=
    (s.gateLine_only.mono (by simp [lineParts])).trans ((State.putCdu_acts _ _).only.mono (by simp [lineParts]))
  exact (OnlyChanges.refl _ s).ite (line.ite (line.trans ((State.beginLine_only _).mono (by simp [lineParts]))))

theorem State.lineTick_only (s : State) : OnlyChanges lineParts s s.lineTick :=
  ((s.putCdu_acts _).only.mono (by simp [lineParts])).trans (State.endLine_only _)

theorem State.loseReference_only (s : State) : OnlyChanges (.cadence :: deviceFlagParts) s s.loseReference :=
  ((s.putCdu_acts _).only.mono (by simp)).trans ((State.raiseDevice_acts _ _).only.mono (by simp))

theorem State.lockedPulse_only (s : State) : OnlyChanges [.cadence, .scan] s s.lockedPulse := by
  have last : OnlyChanges [.cadence, .scan] s s.gateLast := (OnlyChanges.refl _ s).ite (s.gateLine_only.mono (by simp))
  exact (last.trans ((State.putCdu_acts _ _).only.mono (by simp))).when

theorem execRefLinePulse_only {s t : State} (h : execRefLinePulse s = .next t) : OnlyChanges lineParts s t := by
  have pulse := (s.putCdu_acts s.cdu.wakened.linePulse).only.mono (qs := lineParts) (by simp [lineParts])
  exact whenRunning_only h ((pulse.trans (State.endLine_only _)).ite pulse)

theorem execRefFramePulse_only {s t : State} (h : execRefFramePulse s = .next t) :
    OnlyChanges ([.cadence, .scan] ++ deviceFlagParts) s t := by
  have pulse := (s.putCdu_acts s.cdu.wakened.framePulse).only.mono (qs := [.cadence, .scan] ++ deviceFlagParts) (by simp)
  refine whenRunning_only h ?_
  dsimp only
  split
  · exact pulse.trans ((State.putCdu_acts _ _).only.mono (by simp))
  · exact pulse.trans ((State.lockedPulse_only _).mono (by simp))
  · exact pulse.trans ((State.loseReference_only _).mono (by simp [deviceFlagParts]))
  · exact pulse
  · exact pulse

theorem execLineSilence_only {s t : State} (h : execLineSilence s = .next t) : OnlyChanges (.cadence :: deviceFlagParts) s t := by
  have silent := (s.putCdu_acts { s.cdu with refLine := none, silentLines := 17 }).only.mono
    (qs := .cadence :: deviceFlagParts) (by simp)
  refine whenRunning_only h ?_
  dsimp only
  split
  · exact silent.trans ((State.putCdu_acts _ _).only.mono (by simp))
  · exact silent.trans (State.loseReference_only _)
  · exact silent

theorem execMissingFramePulse_only {s t : State} (h : execMissingFramePulse s = .next t) :
    OnlyChanges (.cadence :: deviceFlagParts) s t := by
  refine whenRunning_only h ?_
  dsimp only
  split
  · exact OnlyChanges.refl _ s
  · next n _ =>
    have missing := (s.putCdu_acts { s.cdu with refLine := some (max n (s.cdu.frame.lines + 8)) }).only.mono
      (qs := .cadence :: deviceFlagParts) (by simp)
    exact (missing.trans (State.loseReference_only _)).ite missing

theorem execRePhasing_only {d : Nat} {s t : State} (h : execRePhasing d s = .next t) :
    OnlyChanges [.pins, .cadence, .store] s t := by
  have decided := (s.putCdu_acts (s.cdu.rephase d s.quiet)).only.mono (qs := [.pins, .cadence, .store]) (by simp)
  exact whenRunning_only h (decided.ite (decided.trans ((State.beginLine_only _).mono (by simp)))).when

/-- What a frame start changes: every block that counts frame starts. -/
def startParts : List Part :=
  [.pins, .cadence, .clock, .engine, .reportTimer, .watch, .scan, .key, .cueQueue, .crosspoints, .sitePorts, .store, .rx]
    ++ everyChannel fun c => [.watched c]

@[simp] theorem SitePortState.tick_pairs (k : SitePortState) : k.tick.pairs = k.pairs := by
  unfold SitePortState.tick
  split <;> rfl

theorem State.frameStart_only (s : State) (k : Bool) : OnlyChanges startParts s (s.frameStart k) := by
  intro p hp
  cases p with
  | notices => exact Prod.ext (SitePortState.tick_pairs _) (SitePortState.tick_pairs _)
  | watched c => exact absurd (by simp [startParts, everyChannel, mem_channels]) hp
  | _ => first | rfl | simp [startParts] at hp

theorem State.clearBoundaries_only (s : State) : OnlyChanges (everyChannel fun c => [.plan c]) s s.clearBoundaries := by
  intro p hp
  cases p with
  | plan c => exact absurd (mem_everyChannel c (List.mem_singleton_self _)) hp
  | _ => rfl

theorem execSwitchWindowEvent_only {s t : State} (h : execSwitchWindowEvent s = .next t) :
    OnlyChanges (.cadence :: everyChannel fun c => [.plan c]) s t :=
  whenRunning_only h ((OnlyChanges.refl _ s).ite (((s.putCdu_acts s.cdu.openWindow).only.mono (by simp)).trans
    ((State.clearBoundaries_only _).mono (by simp))))

/-! ## The Schedule Store -/

theorem execCommitStart_only {s t : State} (h : execCommitStart s = .next t) : OnlyChanges [.engine, .reports] s t := by
  refine whenRunning_only h ?_
  dsimp only
  split
  · exact (((s.engine_acts s.sst.engine _ false).only.mono (by simp)).trans (State.setEngine_acts _ _).only).when
  · exact OnlyChanges.refl _ s

theorem list_sub_commit (c : Channel) :
    listParts c ⊆ [.engine, .reports] ++ everyChannel fun c => .pages c :: flagParts c := fun p hp => by
  rcases List.mem_cons.mp hp with rfl | hp
  · exact List.mem_append_right _ (mem_everyChannel c List.mem_cons_self)
  · rcases List.mem_cons.mp hp with rfl | hp
    · simp
    · exact List.mem_append_right _ (mem_everyChannel c (List.mem_cons_of_mem _ hp))

theorem execCommitEnd_only {s t : State} (h : execCommitEnd s = .next t) :
    OnlyChanges ([.engine, .reports] ++ everyChannel fun c => .pages c :: flagParts c) s t := by
  have idle (s : State) := (s.setEngine_acts .idle).only.mono
    (qs := [.engine, .reports] ++ everyChannel fun c => .pages c :: flagParts c) (by simp)
  refine whenRunning_only h ?_
  split
  · split
    · exact ((s.finishCommit_acts _ _).only.mono (list_sub_commit _)).trans (idle _)
    all_goals exact idle s
  all_goals exact OnlyChanges.refl _ s

/-- What the parts of an edit are for all channels together. -/
def editReach : List Part := [.engine, .reports] ++ deviceFlagParts ++ everyChannel fun c => .pages c :: cueParts c

theorem edit_sub_reach (c : Channel) : editParts c ⊆ editReach := by
  have cue : .pages c :: cueParts c ⊆ editReach :=
    List.Subset.trans (mem_everyChannel (f := fun c => .pages c :: cueParts c) c) (List.subset_append_right _ _)
  obtain ⟨pages, cue⟩ := List.cons_subset.mp cue
  exact List.cons_subset.mpr ⟨pages, List.cons_subset.mpr ⟨by simp [editReach], List.cons_subset.mpr ⟨by simp [editReach],
    List.append_subset.mpr ⟨fun p hp => by simp [editReach, hp], cue⟩⟩⟩⟩

theorem execEditComplete_only {s t : State} (h : execEditComplete s = .next t) : OnlyChanges editReach s t := by
  refine whenRunning_only h ?_
  split
  · exact ((s.completeEdit_acts _ _).only.mono (edit_sub_reach _)).trans
      ((State.setEngine_acts _ _).only.mono (by simp [editReach]))
  all_goals exact OnlyChanges.refl _ s

theorem execFlipPerform_only {c : Channel} {s t : State} (h : execFlipPerform c s = .next t) :
    OnlyChanges ([.pages c, .engine] ++ authorityParts c) s t := by
  refine whenRunning_only h ?_
  split
  · exact (s.performFlip_acts c _).only.when
  · exact OnlyChanges.refl _ s

end Sys2Proof.Machine

namespace Sys2Proof.Machine

/-! ## The Replication Engine -/

/-- The shared parts that the frames of a channel's replication can change, before those of the channel. -/
theorem mem_replicationReach {shared : List Part} {f : Channel → List Part} (c : Channel) :
    shared ++ f c ⊆ shared ++ everyChannel f :=
  List.append_subset.mpr ⟨List.subset_append_left _ _, List.Subset.trans (mem_everyChannel c) (List.subset_append_right _ _)⟩

theorem replication_sub_reach (c : Channel) (seq : SeqNo) (b : FeedBody) :
    replicationParts c b ⊆ (FeedFrame.kind (.replication c seq b)).command.reach := by
  have list : replicationParts c .listAbort ⊆
      [.intake, .engine] ++ everyChannel fun c => [.baseline c, .pages c] ++ flagParts c :=
    List.Subset.trans (by intro p; simp [replicationParts, frameParts, listParts]; grind) (mem_replicationReach c)
  have edit (op : EditOp) : replicationParts c (.edit op) ⊆ [.intake, .engine, .reports] ++ deviceFlagParts ++
      everyChannel fun c => [.baseline c, .pages c] ++ cueParts c :=
    List.Subset.trans (by intro p; simp [replicationParts, frameParts, editParts, cueParts]; grind) (mem_replicationReach c)
  cases b with
  | listBegin _ _ _ => exact list
  | listEnd _ _ => exact list
  | listAbort => exact list
  | event _ =>
    exact List.Subset.trans (by intro p; simp [replicationParts, frameParts, loadParts]; grind)
      (mem_replicationReach (shared := .intake :: deviceFlagParts) c)
  | edit op => cases op <;> exact edit _
  | flip _ =>
    exact List.Subset.trans (by intro p; simp [replicationParts, frameParts]; grind)
      (mem_replicationReach (shared := [.intake]) c)

theorem heartbeat_sub_reach : heartbeatParts ⊆ Instr.heartbeat.reach := by
  have every : everyChannel healthParts ⊆ everyChannel fun c => .pages c :: healthParts c :=
    everyChannel_mono fun c => List.subset_cons_self _ _
  have pages : everyChannel (fun c => [.pages c]) ⊆ everyChannel fun c => .pages c :: healthParts c :=
    everyChannel_mono fun c => by simp
  intro p hp
  simp only [heartbeatParts, List.mem_cons, List.mem_append] at hp
  simp only [Instr.reach, List.mem_cons, List.mem_append]
  rcases hp with hp | hp | hp | hp
  · exact .inl (.inl (.inr (.inl hp)))
  · exact .inl (.inr hp)
  · exact .inr (every hp)
  · exact .inr (pages hp)

theorem State.handleFrame_only (s : State) (q : QueuedFrame) : OnlyChanges q.frame.kind.command.reach s (s.handleFrame q) := by
  obtain ⟨n, f⟩ := q
  cases f with
  | replication c seq b => exact (s.takeReplication_acts c seq b).only.mono (replication_sub_reach c seq b)
  | heartbeat h => exact (s.takeHeartbeatFrame_acts h n).only.mono heartbeat_sub_reach

theorem intake_mem_reach (k : FeedKind) : Part.intake ∈ k.command.reach := by
  cases k <;> simp [FeedKind.command, Instr.reach]

theorem State.takeKind_only (s : State) (k : FeedKind) : OnlyChanges k.command.reach s (s.takeKind k) := by
  unfold State.takeKind
  split
  · next p q _ =>
    split
    · next take =>
      have drop := (s.dropHead_acts p).only.mono (qs := k.command.reach) (by simp [intake_mem_reach])
      exact drop.trans (take.2 ▸ (s.dropHead p).handleFrame_only q)
    · exact OnlyChanges.refl _ s
  · exact OnlyChanges.refl _ s

theorem whenRunning_takeKind_only {k : FeedKind} {s t : State} (h : (whenRunning s fun s => s.takeKind k) = .next t) :
    OnlyChanges k.command.reach s t := whenRunning_only h (s.takeKind_only k)

theorem completion_sub_reach : Part.rx :: completionParts ⊆ [.rx, .intake, .watch] ++ deviceFlagParts ++ everyChannel healthParts := by
  intro p hp
  simp only [completionParts, seenParts, List.mem_cons, List.mem_append] at hp ⊢
  tauto

theorem execFeedFrameCompletion_only {p : FeedPort} {y : Byte} {bs : List Byte} {k : BitVec 16} {s t : State}
    (h : execFeedFrameCompletion p y bs k s = .next t) :
    OnlyChanges ([.rx, .intake, .watch] ++ deviceFlagParts ++ everyChannel healthParts) s t := by
  have wait := (s.rxWait_acts (feedLine p)).only.mono (qs := .rx :: completionParts) (by simp)
  have complete := (State.completeFrame_acts (s.rxWait (feedLine p)) p (checkedFeedFrame y bs k)).only.mono
    (qs := .rx :: completionParts) (List.subset_cons_self _ _)
  exact (whenRunning_only h ((wait.trans complete).ite wait)).mono completion_sub_reach

theorem State.abandonPartial_only (s : State) (l : LineId) : OnlyChanges (.rx :: deviceFlagParts) s (s.abandonPartial l) := by
  have wait := (s.rxWait_acts l).only.mono (qs := .rx :: deviceFlagParts) (by simp)
  have flag (k : DeviceFlag) := wait.trans ((State.raiseDevice_acts (s.rxWait l) k).only.mono (by simp))
  cases l with
  | fa => exact (flag _).ite wait
  | fb => exact (flag _).ite wait
  | _ => exact wait

theorem State.setFeedEnabled_only (s : State) (p : FeedPort) (on : Bool) :
    OnlyChanges [.intake, .reports, .rx] s (s.setFeedEnabled p on) := by
  have port (k : FeedPortState) := (s.putFeed_acts_both p k).only.mono (qs := [.intake, .reports, .rx]) (by simp)
  exact (OnlyChanges.refl _ s).ite (((port _).trans ((State.rxWait_acts _ _).only.mono (by simp))).ite (port _))

theorem State.reloadReportTimer_only (s : State) : OnlyChanges [.reportTimer] s s.reloadReportTimer := by
  intro p hp
  cases p <;> first | rfl | simp at hp

/-! ## The Supervision Unit -/

theorem execSweepStart_only {s t : State} (h : execSweepStart s = .next t) : OnlyChanges [.scan] s t := by
  refine whenRunning_only h ?_
  split
  · exact (s.putScan_acts _).only
  all_goals exact OnlyChanges.refl _ s

theorem execKeyLevelAccepted_only {s t : State} (h : execKeyLevelAccepted s = .next t) :
    OnlyChanges (.key :: deviceFlagParts ++ everyChannel authorityParts) s t := by
  have key := (s.putKey_acts ⟨!s.sup.key.asserted, 0⟩).only.mono (qs := .key :: deviceFlagParts ++ everyChannel authorityParts)
    (by simp)
  have flag := (State.raiseDevice_acts (s.putKey ⟨!s.sup.key.asserted, 0⟩) .keyTakeover).only.mono
    (qs := .key :: deviceFlagParts ++ everyChannel authorityParts) (by simp)
  exact whenRunning_only h (((key.trans flag).trans ((State.keyArming_acts _).only.mono (by simp))).ite key).when

/-- What the end of a window can change. -/
def windowParts : List Part := .scan :: deviceFlagParts ++ everyChannel healthParts

theorem State.sweepEnd_only (s : State) : OnlyChanges windowParts s s.sweepEnd :=
  ((s.putScan_acts _).only.mono (by simp [windowParts])).trans ((State.raiseDevice_acts _ _).only.mono (by simp [windowParts]))

theorem State.takeSample_window (s : State) (c : Channel) (n : Nat) : OnlyChanges windowParts s (s.takeSample c n) :=
  (s.takeSample_acts c n).only.mono (List.Subset.trans (mem_everyChannel c) (by simp [windowParts]))

theorem OnlyChanges.foldl {α : Type} {ps : List Part} {f : State → α → State} (h : ∀ s x, OnlyChanges ps s (f s x)) (xs : List α)
    (s : State) : OnlyChanges ps s (xs.foldl f s) := by
  induction xs generalizing s with
  | nil => exact OnlyChanges.refl ps s
  | cons x xs ih => exact (h s x).trans (ih _)

theorem State.endWindow_only (s : State) : OnlyChanges windowParts s s.endWindow := by
  unfold State.endWindow
  split
  · split
    · exact ((s.putScan_acts _).only.mono (by simp [windowParts])).trans (State.takeSample_window _ _ _)
    · exact (s.takeSample_window _ _).trans (State.sweepEnd_only _)
  · exact (OnlyChanges.foldl (fun t c => t.takeSample_window c _) _ s).trans (State.sweepEnd_only _)
  · exact OnlyChanges.refl _ s
  · exact OnlyChanges.refl _ s

theorem execFeedWatchExpiry_only {p : FeedPort} {s t : State} (h : execFeedWatchExpiry p s = .next t) :
    OnlyChanges ([.watch, .clock] ++ deviceFlagParts ++ everyChannel healthParts) s t :=
  whenRunning_only h (((s.feedSilent_acts p).only.mono (by simp [silentParts])).when)

/-! ## The Authority Table, the Cue Scheduler and the Crosspoint Sequencer -/

theorem execGoToAir_only {c : Channel} {s t : State} (h : execGoToAir c s = .next t) : OnlyChanges (authorityParts c) s t := by
  refine whenRunning_only h ?_
  split
  · next armed => exact (s.goToAir_acts c _ (Authority.armed_off armed)).only.when
  all_goals exact OnlyChanges.refl _ s

theorem execReturnComplete_only {c : Channel} {s t : State} (h : execReturnComplete c s = .next t) :
    OnlyChanges (authorityParts c) s t := by
  refine whenRunning_only h ?_
  split
  · exact (s.becomeMain_acts c).only.when
  all_goals exact OnlyChanges.refl _ s

theorem execSegmentStart_only {c : Channel} {s t : State} (h : execSegmentStart c s = .next t) : OnlyChanges (cueParts c) s t := by
  refine whenRunning_only h ?_
  split
  · exact ((s.startHead_acts c _).trans (State.planAfterStart_acts _ c _)).only.when
  · exact OnlyChanges.refl _ s

theorem execCueTake_only {s t : State} (h : execCueTake s = .next t) : OnlyChanges (everyChannel cueParts) s t := by
  refine whenRunning_only h ?_
  split
  · exact (s.takeEntry_acts _ _).only.mono (mem_everyChannel _)
  · exact OnlyChanges.refl _ s

theorem execCueSendEnd_only {s t : State} (h : execCueSendEnd s = .next t) : OnlyChanges (everyChannel planParts) s t := by
  refine whenRunning_only h ?_
  split
  · exact ((s.sendEnded_acts _).only.mono (mem_everyChannel _)).when
  · exact OnlyChanges.refl _ s

theorem State.replyTo_acts (s : State) (k : Txn) (ok : Bool) : Acts (cueParts k.entry.channel) s (s.replyTo k ok) :=
  (Acts.ite (s.sendEnded_acts k).inCue (Acts.refl _ s)).trans (State.endTxn_acts _ k ok)

theorem execCueReply_only {a r : Byte} {s t : State} (h : execCueReply a r s = .next t) :
    OnlyChanges (everyChannel cueParts) s t := by
  refine whenRunning_only h ?_
  split
  · exact ((s.replyTo_acts _ _).only.mono (mem_everyChannel _)).when
  · exact OnlyChanges.refl _ s

theorem execCueReplyTimeout_only {s t : State} (h : execCueReplyTimeout s = .next t) : OnlyChanges (everyChannel cueParts) s t := by
  refine whenRunning_only h ?_
  split
  · exact ((s.endTxn_acts _ _).only.mono (mem_everyChannel _)).when
  · exact OnlyChanges.refl _ s

theorem execCrosspointIssue_only {s t : State} (h : execCrosspointIssue s = .next t) : OnlyChanges [.crosspoints] s t :=
  whenRunning_only h ((OnlyChanges.foldl (fun t d => (t.issueOn_acts d).only) destinations s).trans
    (State.takeEvent_acts _).only).when

theorem execCrosspointAck_only {d n r : Byte} {s t : State} (h : execCrosspointAck d n r s = .next t) :
    OnlyChanges ([.crosspoints, .acknowledged] ++ everyChannel fun c => .tally c :: flagParts c) s t := by
  have tallies : acknowledgeParts ⊆ [.crosspoints, .acknowledged] ++ everyChannel fun c => .tally c :: flagParts c :=
    List.cons_subset.mpr ⟨by simp, List.Subset.trans (everyChannel_mono fun c => by simp) (List.subset_append_right _ _)⟩
  have flags (c : Channel) : flagParts c ⊆ [.crosspoints, .acknowledged] ++ everyChannel fun c => .tally c :: flagParts c :=
    List.Subset.trans (List.subset_cons_self _ _) (List.Subset.trans
      (mem_everyChannel (f := fun c => .tally c :: flagParts c) c) (List.subset_append_right _ _))
  refine whenRunning_only h ?_
  split
  · exact OnlyChanges.refl _ s
  · next x rest _ =>
    have taken := (s.putAwaiting_acts rest).only.mono
      (qs := [.crosspoints, .acknowledged] ++ everyChannel fun c => .tally c :: flagParts c) (by simp)
    exact (taken.trans ((State.acknowledge_acts _ _ _).only.mono tallies)).ite
      (taken.trans ((State.raise_acts _ _ _).only.mono (flags _)))

theorem execCrosspointAckTimeout_only {d : Fin 64} {s t : State} (h : execCrosspointAckTimeout d s = .next t) :
    OnlyChanges (.crosspoints :: everyChannel flagParts) s t := by
  refine whenRunning_only h ?_
  split
  · exact OnlyChanges.refl _ s
  · exact ((s.putAwaiting_acts _).only.mono (by simp)).trans ((State.raise_acts _ _ _).only.mono
      (List.Subset.trans (mem_everyChannel _) (List.subset_cons_self _ _)))

/-! ## The transmit side and the silence timers of the site ports -/

theorem State.siteSilent_only (s : State) (p : SitePort) :
    OnlyChanges (.sitePorts :: deviceFlagParts ++ everyChannel authorityParts) s (s.siteSilent p) := by
  have port := (s.putSite_acts_port p { s.site p with live := false, timer := 0 } rfl).only.mono
    (qs := .sitePorts :: deviceFlagParts ++ everyChannel authorityParts) (by simp)
  exact (port.trans ((State.raiseDevice_acts _ _).only.mono (by simp))).trans ((State.lapseHolds_acts _ _).only.mono (by simp))

theorem execAnswerTransmitBegin_only {p : SitePort} {s t : State} (h : execAnswerTransmitBegin p s = .next t) :
    OnlyChanges [.sitePorts] s t := by
  refine whenRunning_only h ?_
  dsimp only
  split
  · exact (s.putSite_acts_port p _ (by rfl)).only
  · exact OnlyChanges.refl _ s

theorem execNoticeTransmitBegin_only {p : SitePort} {s t : State} (h : execNoticeTransmitBegin p s = .next t) :
    OnlyChanges [.sitePorts, .notices] s t := by
  refine whenRunning_only h ?_
  dsimp only
  split
  · exact (s.putSite_acts p _).only.when
  · exact OnlyChanges.refl _ s

end Sys2Proof.Machine

namespace Sys2Proof.Machine

/-! # Site requests: one account of all of them (R164 to R168) -/

/-- What a site request asks: at which port, under which code and tag, which parts of the state its owner can change, and what its
owner decides. -/
structure Asking where
  port : SitePort
  code : Byte
  tag : Tag
  parts : List Part
  owner : State → Verdict

/-- What a route can change. -/
def routeParts : List Part := everyChannel fun c => [.authority c, .plan c, .crosspoints]

/-- What a change of settings that health depends on can change. -/
def settingsParts : List Part := .settings :: everyChannel healthParts

/-- What a format change can change. -/
def formatParts : List Part := [.settings, .cadence, .clock, .engine, .reports] ++ everyChannel fun c => [.pages c, .baseline c]

/-- What the clearing of a channel can change. -/
def clearingParts : List Part := [.engine, .reports] ++ everyChannel fun c => [.baseline c, .pages c] ++ healthParts c

/-- R168 step 2: the owner of the fields of a body, where it agrees with its form. -/
def owned {α : Type} (r : Request α) (owner : α → State → Verdict) (s : State) : Verdict :=
  match r with
  | .formed _ x => owner x s
  | .malformed _ => s.refuse .badValue

/-- What a command asks as a request of a site port; none for a command that is no request. -/
def askingOf : Instr → Option Asking
  | .feedEnable p r => some ⟨p, 0x32, r.tag, [.intake, .reports, .rx], owned r fun x s => s.feedEnableRequest x⟩
  | .unknownRequest p code tag => some ⟨p, code, tag, [], fun s => s.refuse .unknownRequest⟩
  | .status p r => some ⟨p, 0x20, r.tag, [], owned r fun _ s => s.done s.statusBytes⟩
  | .channel p r => some ⟨p, 0x21, r.tag, [], owned r fun ch s => s.onChannel ch fun c => s.done (s.channelBytes c)⟩
  | .eventRead p r => some ⟨p, 0x22, r.tag, [], owned r fun x s => s.onChannel x.channel fun c => s.readEvent c x⟩
  | .clock p r => some ⟨p, 0x23, r.tag, [], owned r fun _ s => s.done s.clockBytes⟩
  | .flags p r => some ⟨p, 0x24, r.tag, [], owned r fun _ s => s.done s.flagsBytes⟩
  | .take p r => some ⟨p, 0x25, r.tag, everyChannel authorityParts, owned r fun ch s =>
      if ch = 0xFF then s.takeEvery p else s.onChannel ch fun c => s.takeOne p c⟩
  | .takeAll p tag => some ⟨p, 0x25, tag, everyChannel authorityParts, fun s => s.takeEvery p⟩
  | .cancel p r => some ⟨p, 0x26, r.tag, everyChannel authorityParts, owned r fun ch s => s.onChannel ch fun c => s.cancelArming c⟩
  | .hold p r => some ⟨p, 0x27, r.tag, everyChannel authorityParts, owned r fun ch s =>
      s.onChannel ch fun c => s.asHolder p c (s.holdRequest p c)⟩
  | .release p r => some ⟨p, 0x28, r.tag, everyChannel authorityParts, owned r fun ch s =>
      s.onChannel ch fun c => s.asHolder p c (s.releaseRequest c)⟩
  | .returnToMain p r => some ⟨p, 0x29, r.tag, everyChannel authorityParts, owned r fun x s =>
      s.onChannel x.channel fun c => s.asHolder p c (s.returnRequest c x.mode)⟩
  | .route p r => some ⟨p, 0x2A, r.tag, routeParts, owned r fun x s =>
      s.onChannel x.channel fun c => s.asHolder p c (s.routeRequest c x.source.toNat)⟩
  | .setTime p r => some ⟨p, 0x2B, r.tag, [.clock], owned r fun t s => s.setTimeRequest t⟩
  | .configureChannel p r => some ⟨p, 0x2C, r.tag, settingsParts, owned r fun x s =>
      s.onChannel x.channel fun c => s.configureChannelRequest c x.items⟩
  | .configureCadence p r => some ⟨p, 0x2D, r.tag, formatParts, owned r fun x s => s.configureCadenceRequest x⟩
  | .configurePorts p r => some ⟨p, 0x2E, r.tag, [.settings], owned r fun x s => s.configurePortsRequest x⟩
  | .configureScan p r => some ⟨p, 0x2F, r.tag, settingsParts, owned r fun x s => s.configureScanRequest x⟩
  | .scanStart p r => some ⟨p, 0x30, r.tag, [.scan], owned r fun _ s => s.scanStartRequest⟩
  | .scanStop p r => some ⟨p, 0x31, r.tag, [.scan], owned r fun _ s => (s.putScan .idle).done []⟩
  | .clearChannel p r => some ⟨p, 0x33, r.tag, clearingParts, owned r fun ch s =>
      s.onChannel ch fun c => if s.isMain c then (s.clearChannel c).done [] else s.refuse .wrongState⟩
  | .clearFlags p r => some ⟨p, 0x34, r.tag, clearedParts, owned r fun names s => s.clearFlagsRequest names⟩
  | .setNoticeMask p r => some ⟨p, 0x35, r.tag, [.notices, .sitePorts], owned r fun m s =>
      if kindMaskValid m then (s.putSite p ((s.site p).withMask m)).done ((s.putSite p ((s.site p).withMask m)).maskBytes p)
      else s.refuse .badValue⟩
  | .setAlarmMask p r => some ⟨p, 0x36, r.tag, [.settings, .alarm], owned r fun x s => s.alarmMaskRequest x⟩
  | .save p r => some ⟨p, 0x37, r.tag, [.store], owned r fun _ s => s.saveRequest⟩
  | .keepalive p r => some ⟨p, 0x38, r.tag, [], owned r fun _ s => s.done []⟩
  | _ => none

/-- What a request comes to: its port takes it, its owner decides, and the answer is queued. -/
def Asking.result (a : Asking) (s : State) : State := s.answerBy a.port a.code a.tag a.owner

theorem Asking.result_mk (p : SitePort) (code : Byte) (tag : Tag) (ps : List Part) (owner : State → Verdict) :
    Asking.result ⟨p, code, tag, ps, owner⟩ = fun s => s.answerBy p code tag owner := rfl

theorem exec_asking {i : Instr} {a : Asking} (h : askingOf i = some a) (s : State) : exec i s = whenRunning s a.result := by
  cases i <;> cases h <;> rw [Asking.result_mk] <;> rfl

theorem isRequest_iff_asking {i : Instr} {p : SitePort} : IsRequest p i ↔ ∃ a, askingOf i = some a ∧ a.port = p := by
  constructor
  · intro h
    cases h <;> exact ⟨_, rfl, rfl⟩
  · rintro ⟨a, h, rfl⟩
    cases i <;> cases h <;> constructor

/-! ## What the steps of R168 do with any owner -/

theorem owned_ind {α : Type} {P : Verdict → Prop} {s : State} {owner : α → State → Verdict} (r : Request α)
    (refused : P (s.refuse .badValue)) (h : ∀ x, P (owner x s)) : P (owned r owner s) := by
  cases r with
  | formed _ x => exact h x
  | malformed _ => exact refused

theorem State.onChannel_ind {P : Verdict → Prop} {s : State} {owner : Channel → Verdict} (b : Byte)
    (refused : P (s.refuse .noChannel)) (h : ∀ c, P (owner c)) : P (s.onChannel b owner) := by
  unfold State.onChannel
  split
  · exact h _
  · exact refused

theorem State.asHolder_ind {P : Verdict → Prop} {s : State} {owner : Verdict} (p : SitePort) (c : Channel)
    (refused : P (s.refuse .heldElsewhere)) (h : P owner) : P (s.asHolder p c owner) := by
  unfold State.asHolder
  split
  · split
    · exact h
    · exact refused
  · exact h

/-! ## What the owners change -/

theorem askingParts_sub_reach {i : Instr} {a : Asking} (h : askingOf i = some a) : a.parts ⊆ i.reach ∧ requestParts ⊆ i.reach := by
  cases i <;> cases h
  all_goals simp only [Instr.reach, requestParts, clearedParts, routeParts, settingsParts, formatParts, clearingParts]
  all_goals constructor <;> intro p hp <;> grind

/-- The owner's verdict changes only the listed parts. -/
def Verdict.Only (ps : List Part) (s : State) (v : Verdict) : Prop := OnlyChanges ps s v.state

theorem State.refuse_only (ps : List Part) (s : State) (k : AnswerCode) : (s.refuse k).Only ps s := OnlyChanges.refl ps s

theorem State.done_only (ps : List Part) (s : State) (r : List Byte) : (s.done r).Only ps s := OnlyChanges.refl ps s

theorem Verdict.Only.unlessRefused {ps : List Part} {s : State} {p : Prop} [Decidable p] {k : AnswerCode} {v : Verdict}
    (h : v.Only ps s) : (if p then s.refuse k else v).Only ps s := by
  split
  · exact s.refuse_only ps k
  · exact h

theorem Verdict.Only.elseRefused {ps : List Part} {s : State} {p : Prop} [Decidable p] {k : AnswerCode} {v : Verdict}
    (h : v.Only ps s) : (if p then v else s.refuse k).Only ps s := by
  split
  · exact h
  · exact s.refuse_only ps k

theorem State.onChannel_only {ps : List Part} (s : State) (b : Byte) {owner : Channel → Verdict}
    (h : ∀ c, (owner c).Only ps s) : (s.onChannel b owner).Only ps s := s.onChannel_ind b (s.refuse_only ps _) h

theorem State.asHolder_only {ps : List Part} (s : State) (p : SitePort) (c : Channel) {owner : Verdict}
    (h : owner.Only ps s) : (s.asHolder p c owner).Only ps s := s.asHolder_ind p c (s.refuse_only ps _) h

theorem State.takeOne_only (s : State) (p : SitePort) (c : Channel) : (s.takeOne p c).Only (everyChannel authorityParts) s := by
  unfold State.takeOne
  refine Verdict.Only.elseRefused ?_
  split
  · exact s.refuse_only _ _
  · exact s.refuse_only _ _
  · next ready => exact (s.arm_acts c _ (Or.inr (State.ready_apart ready))).only.mono (mem_everyChannel c)

theorem takeNext_only (p : SitePort) (x : State × List Channel) (c : Channel) :
    OnlyChanges (everyChannel authorityParts) x.1 (takeNext p x c).1 := by
  unfold takeNext
  split
  · next h =>
    obtain ⟨_, ready⟩ := Bool.and_eq_true_iff.mp h
    exact (x.1.arm_acts c _ (Or.inr (State.ready_apart (eq_of_beq ready)))).only.mono (mem_everyChannel c)
  · exact (x.1.passOver_acts _ c).only.mono (mem_everyChannel c)

theorem State.takeEvery_only (s : State) (p : SitePort) : (s.takeEvery p).Only (everyChannel authorityParts) s := by
  have pass (cs : List Channel) (x : State × List Channel) :
      OnlyChanges (everyChannel authorityParts) x.1 (cs.foldl (takeNext p) x).1 := by
    induction cs generalizing x with
    | nil => exact OnlyChanges.refl _ x.1
    | cons c cs ih => exact (takeNext_only p x c).trans (ih _)
  have all := pass channels (s, [])
  unfold State.takeEvery
  generalize channels.foldl (takeNext p) (s, []) = x at all
  dsimp only
  split
  · exact all
  · exact all

theorem State.cancelArming_only (s : State) (c : Channel) : (s.cancelArming c).Only (everyChannel authorityParts) s := by
  unfold State.cancelArming
  split
  · exact (s.abort_acts c _).only.mono (mem_everyChannel c)
  all_goals exact s.refuse_only _ _

theorem State.holdRequest_only (s : State) (p : SitePort) (c : Channel) :
    (s.holdRequest p c).Only (everyChannel authorityParts) s := by
  unfold State.holdRequest
  split
  case h_5 a standby => exact (s.hold_acts c p a (Authority.standby_off standby)).only.mono (mem_everyChannel c)
  all_goals exact OnlyChanges.refl _ s

theorem State.releaseRequest_only (s : State) (c : Channel) : (s.releaseRequest c).Only (everyChannel authorityParts) s := by
  unfold State.releaseRequest
  split
  · next held => exact (s.release_acts c (Authority.held_off held)).only.mono (mem_everyChannel c)
  all_goals exact s.refuse_only _ _

theorem State.returnFrom_only (s : State) (c : Channel) (p : Prior) (m : ReturnMode) (a : OnAir)
    (h : (s.authority c).name ≠ .main) : (s.returnFrom c p m a).Only (everyChannel authorityParts) s :=
  Verdict.Only.elseRefused ((s.acceptReturn_acts c p m a h).only.mono (mem_everyChannel c))

theorem State.returnRequest_only (s : State) (c : Channel) (mode : Byte) :
    (s.returnRequest c mode).Only (everyChannel authorityParts) s := by
  unfold State.returnRequest
  split
  · exact s.refuse_only _ _
  · split
    case h_4 standby => exact s.returnFrom_only c _ _ _ (Authority.standby_off standby)
    case h_5 held => exact s.returnFrom_only c _ _ _ (Authority.held_off held)
    all_goals exact s.refuse_only _ _

theorem State.routeRequest_only (s : State) (c : Channel) (n : Nat) :
    (s.routeRequest c n).Only routeParts s := by
  unfold State.routeRequest
  split
  case h_5 p _ held =>
    have routed := (s.route_acts c p n (by rw [held]; rfl)).only
    exact Verdict.Only.unlessRefused (routed.mono (mem_everyChannel (f := fun c => [.authority c, .plan c, .crosspoints]) c))
  all_goals exact s.refuse_only _ _

theorem State.setTimeRequest_only (s : State) (t : TimeBytes) : (s.setTimeRequest t).Only [.clock] s := by
  unfold State.setTimeRequest
  split
  · exact s.refuse_only _ _
  · exact s.refuse_only _ _
  all_goals
    split
    · exact (s.putStc_acts _).only
    · exact s.refuse_only _ _

theorem State.putCfg_only (s : State) (c : Channel) (k : ChannelSettings) : OnlyChanges [.settings] s (s.putCfg c k) := by
  intro p hp
  cases p <;> first | rfl | simp at hp

theorem health_sub_settings (c : Channel) : healthParts c ⊆ settingsParts :=
  List.Subset.trans (mem_everyChannel c) (List.subset_cons_self _ _)

theorem State.configureChannelRequest_only (s : State) (c : Channel) (x : ChannelItems) :
    (s.configureChannelRequest c x).Only settingsParts s := by
  have put (k : ChannelSettings) := (s.putCfg_only c k).mono (qs := settingsParts) (by simp [settingsParts])
  have apply (k : ChannelSettings) : OnlyChanges settingsParts s (s.applyChannel c k) :=
    (put k).ite ((put k).trans ((State.enableChanged_acts _ c).only.mono (health_sub_settings c)))
  exact Verdict.Only.unlessRefused (Verdict.Only.unlessRefused (Verdict.Only.unlessRefused (apply _)))

theorem State.abandonAny_only (s : State) : OnlyChanges [.engine, .reports] s s.abandonAny := s.abandonWork_acts.only.when

theorem State.changeFormat_only (s : State) (f : Format) : OnlyChanges formatParts s (s.changeFormat f) := by
  have emptied : OnlyChanges formatParts s (s.emptyAllPages.dropBaselines.unsetClock.putFormat f) := fun p hp => by
    cases p with
    | pages c => exact absurd (by simp [formatParts, everyChannel, mem_channels]) hp
    | baseline c => exact absurd (by simp [formatParts, everyChannel, mem_channels]) hp
    | _ => first | rfl | simp [formatParts] at hp
  exact (emptied.trans ((State.putCdu_acts _ _).only.mono (by simp [formatParts]))).trans
    ((State.abandonAny_only _).mono (by simp [formatParts]))

theorem State.takeFormat_only (s : State) (f : Option Format) : OnlyChanges formatParts s (s.takeFormat f) := by
  unfold State.takeFormat
  split
  · exact (OnlyChanges.refl _ s).ite (s.changeFormat_only _)
  · exact OnlyChanges.refl _ s

theorem State.putWindow_only (s : State) (a b : Nat) (l : Bool) : OnlyChanges [.settings, .cadence] s (s.putWindow a b l) := by
  intro p hp
  cases p <;> first | rfl | simp at hp

theorem State.configureCadenceRequest_only (s : State) (x : CadenceItems) : (s.configureCadenceRequest x).Only formatParts s :=
  Verdict.Only.unlessRefused <| Verdict.Only.unlessRefused <| Verdict.Only.unlessRefused <| Verdict.Only.unlessRefused <|
    (s.takeFormat_only _).trans ((State.putWindow_only _ _ _ _).mono (by simp [formatParts]))

theorem State.putPorts_only (s : State) (x : PortItems) : OnlyChanges [.settings] s (s.putPorts x) := by
  intro p hp
  cases p <;> first | rfl | simp at hp

theorem State.putScanItems_only (s : State) (x : ScanItems) : OnlyChanges [.settings] s (s.putScanItems x) := by
  intro p hp
  cases p <;> first | rfl | simp at hp

theorem State.applyScan_only (s : State) (x : ScanItems) :
    OnlyChanges settingsParts s (s.applyScan x) :=
  ((s.putScanItems_only x).mono (by simp [settingsParts])).trans
    (OnlyChanges.foldl (fun t c => ((t.unscan_acts c).only.mono (health_sub_settings c)).when) channels _)

theorem State.feedEnableRequest_only (s : State) (x : FeedEnableFields) :
    (s.feedEnableRequest x).Only [.intake, .reports, .rx] s := by
  unfold State.feedEnableRequest
  split
  · exact Verdict.Only.elseRefused (s.setFeedEnabled_only _ _)
  · exact s.refuse_only _ _

theorem State.clearChannel_only (s : State) (c : Channel) :
    OnlyChanges clearingParts s (s.clearChannel c) := by
  have mine : [.baseline c, .pages c] ++ healthParts c ⊆ clearingParts :=
    List.Subset.trans (mem_everyChannel (f := fun c => [.baseline c, .pages c] ++ healthParts c) c) (List.subset_append_right _ _)
  obtain ⟨marks, health⟩ := List.append_subset.mp mine
  have pages := List.cons_subset.mp (List.cons_subset.mp marks).2
  have unheard (t : State) : Acts (healthParts c) t (t.unhear c) := t.unhear_acts c
  exact (((s.putBaseline_acts c none).only.mono (by simpa using (List.cons_subset.mp marks).1)).trans
    ((State.emptyPages_acts _ c).only.mono (List.cons_subset.mpr ⟨pages.1, by simp [clearingParts]⟩))).trans ((unheard _).only.mono health)

theorem State.clearName_only (s : State) (n : FlagName) : OnlyChanges clearedParts s (s.clearName n) := by
  unfold State.clearName
  split
  · exact (s.clearDevice_acts _).only.mono (by simp [clearedParts])
  · split
    · exact (s.clearFlag_acts _ _).only.mono (channelFlags_sub_cleared _)
    · exact OnlyChanges.foldl (fun t c => (t.clearFlag_acts _ c).only.mono (channelFlags_sub_cleared c)) channels s
  · exact OnlyChanges.refl _ s

theorem State.clearFlagsRequest_only (s : State) (names : List FlagName) : (s.clearFlagsRequest names).Only clearedParts s := by
  unfold State.clearFlagsRequest
  split
  · exact s.clearAllFlags_acts.only
  · exact s.refuse_only _ _
  · exact OnlyChanges.foldl (fun t n => t.clearName_only n) _ s

theorem State.putAlarm_only (s : State) (x : AlarmMaskFields) : OnlyChanges [.settings, .alarm] s (s.putAlarm x) := by
  intro p hp
  cases p <;> first | rfl | simp at hp

theorem owned_only {α : Type} {ps : List Part} {s : State} {r : Request α} {owner : α → State → Verdict}
    (own : ∀ x, (owner x s).Only ps s) : (owned r owner s).Only ps s := owned_ind r (s.refuse_only ps _) own

theorem asking_only {i : Instr} {a : Asking} (h : askingOf i = some a) (s : State) : (a.owner s).Only a.parts s := by
  cases i <;> cases h <;> dsimp only
  case feedEnable => exact owned_only fun x => s.feedEnableRequest_only x
  case unknownRequest => exact s.refuse_only _ _
  case channel => exact owned_only fun ch => s.onChannel_only ch fun c => s.done_only _ _
  case eventRead => 
    refine owned_only fun x => s.onChannel_only _ fun c => ?_
    unfold State.readEvent
    split
    · split
      · exact s.done_only _ _
      · exact s.refuse_only _ _
    · exact s.refuse_only _ _
  case take p _ =>
    refine owned_only fun ch => ?_
    split
    · exact s.takeEvery_only p
    · exact s.onChannel_only ch (s.takeOne_only p)
  case takeAll p _ => exact s.takeEvery_only p
  case cancel => exact owned_only fun ch => s.onChannel_only ch s.cancelArming_only
  case hold p _ => exact owned_only fun ch => s.onChannel_only ch fun c => s.asHolder_only p c (s.holdRequest_only p c)
  case release p _ => exact owned_only fun ch => s.onChannel_only ch fun c => s.asHolder_only p c (s.releaseRequest_only c)
  case returnToMain p _ =>
    exact owned_only fun x => s.onChannel_only x.channel fun c => s.asHolder_only p c (s.returnRequest_only c x.mode)
  case route p _ => exact owned_only fun x => s.onChannel_only x.channel fun c => s.asHolder_only p c (s.routeRequest_only c _)
  case setTime => exact owned_only fun t => s.setTimeRequest_only t
  case configureChannel => exact owned_only fun x => s.onChannel_only x.channel fun c => s.configureChannelRequest_only c x.items
  case configureCadence => exact owned_only fun x => s.configureCadenceRequest_only x
  case configurePorts => exact owned_only fun x => Verdict.Only.unlessRefused (s.putPorts_only x)
  case configureScan =>
    exact owned_only fun x => Verdict.Only.unlessRefused (Verdict.Only.unlessRefused (Verdict.Only.unlessRefused (s.applyScan_only x)))
  case scanStart => exact owned_only fun _ => Verdict.Only.unlessRefused (Verdict.Only.unlessRefused (s.putScan_acts _).only)
  case scanStop => exact owned_only fun _ => (s.putScan_acts _).only
  case clearChannel => exact owned_only fun ch => s.onChannel_only ch fun c => Verdict.Only.elseRefused (s.clearChannel_only c)
  case clearFlags => exact owned_only fun names => s.clearFlagsRequest_only names
  case setNoticeMask p _ => 
    exact owned_only fun m => Verdict.Only.elseRefused ((s.putSite_acts p _).only.mono (by simp))
  case setAlarmMask => exact owned_only fun x => Verdict.Only.unlessRefused (Verdict.Only.elseRefused (s.putAlarm_only x))
  case save => exact owned_only fun _ => Verdict.Only.unlessRefused (s.putSave_acts _).only
  all_goals exact owned_only fun _ => s.done_only _ _

theorem Asking.result_only {ps : List Part} (a : Asking) {s : State} (own : ∀ t, OnlyChanges ps t (a.owner t).state)
    (taking : requestParts ⊆ ps) : OnlyChanges ps s (a.result s) := by
  obtain ⟨ports, _⟩ := List.cons_subset.mp taking
  have queued (v : Verdict) : OnlyChanges ps v.state (v.state.queueAnswer a.port ⟨a.tag, a.code, v.code, v.result⟩) :=
    (State.queueAnswer_acts _ _ _).only.mono (by simpa using ports)
  exact ((s.validFrame_acts a.port).only.mono taking).trans (((own _).trans (queued _)).when)

theorem exec_asking_only {i : Instr} {a : Asking} (h : askingOf i = some a) {s t : State} (run : exec i s = .next t) :
    OnlyChanges i.reach s t := by
  obtain ⟨own, taking⟩ := askingParts_sub_reach h
  exact whenRunning_only (exec_asking h s ▸ run) (a.result_only (fun u => (asking_only h u).mono own) taking)

end Sys2Proof.Machine

namespace Sys2Proof.Machine

/-! ## Any command -/

theorem execSaveComplete_only {x : Option Bank} {s t : State} (h : execSaveComplete x s = .next t) : OnlyChanges [.store] s t := by
  refine whenRunning_only h ?_
  split
  · refine OnlyChanges.when fun p hp => ?_
    cases p <;> first | rfl | simp at hp
  · exact OnlyChanges.refl _ s

theorem exec_only {i : Instr} {s t : State} (h : exec i s = .next t) : OnlyChanges i.reach s t := by
  cases i
  case powerOnReset => cases h; exact s.heldInReset_only _
  case nrstAccepted => cases h; exact s.heldInReset_only true
  case resetEnd => exact execResetEnd_only h
  case refLinePulse => exact execRefLinePulse_only h
  case refFramePulse => exact execRefFramePulse_only h
  case lineSilence => exact execLineSilence_only h
  case missingFramePulse => exact execMissingFramePulse_only h
  case rePhasing => exact execRePhasing_only h
  case frameStart k => exact whenRunning_only (f := fun s => s.frameStart k) h (s.frameStart_only k)
  case switchWindowEvent => exact execSwitchWindowEvent_only h
  case localFrameWrap =>
    exact whenRunning_only h (((s.putStc_acts _).only.mono (by simp [Instr.reach])).trans
      ((State.wrapTaken_acts s.addWrap).only.mono (by simp [Instr.reach]))).when
  case turnRecordExpiry => exact whenRunning_only h (s.putStc_acts _).only.when
  case feedFrameCompletion => exact execFeedFrameCompletion_only h
  case partialFrameAbandon l => exact whenRunning_only h (s.abandonPartial_only l).when
  case listBegin => exact whenRunning_takeKind_only (k := .listBegin) h
  case event => exact whenRunning_takeKind_only (k := .event) h
  case listEnd => exact whenRunning_takeKind_only (k := .listEnd) h
  case listAbort => exact whenRunning_takeKind_only (k := .listAbort) h
  case insertAfter => exact whenRunning_takeKind_only (k := .insertAfter) h
  case replace => exact whenRunning_takeKind_only (k := .replace) h
  case delete => exact whenRunning_takeKind_only (k := .delete) h
  case flip => exact whenRunning_takeKind_only (k := .flip) h
  case heartbeat => exact whenRunning_takeKind_only (k := .heartbeat) h
  case commitStart => exact execCommitStart_only h
  case commitEnd => exact execCommitEnd_only h
  case editComplete => exact execEditComplete_only h
  case flipPerform => exact execFlipPerform_only h
  case reportTimerExpiry =>
    exact whenRunning_only h ((s.reloadReportTimer_only.mono (by simp [Instr.reach])).trans
      ((State.reportDue_acts _).only.mono (by simp [Instr.reach]))).when
  case reportTransmitEnd p =>
    refine whenRunning_only (f := fun s => s.putFeed p { s.feed p with tx := (s.feed p).tx.ended }) h fun q hq => ?_
    cases q with
    | intake => cases p <;> rfl
    | _ => first | rfl | simp [Instr.reach] at hq
  case feedWatchExpiry => exact execFeedWatchExpiry_only h
  case presencePulse => exact whenRunning_only h (s.putScan_acts _).only.when
  case windowEnd => exact whenRunning_only h s.endWindow_only
  case sweepStart => exact execSweepStart_only h
  case confirmExpiry c => exact whenRunning_only h (s.setHealth_acts c _).only.when
  case keyLevelAccepted => exact execKeyLevelAccepted_only h
  case goToAir => exact execGoToAir_only h
  case returnComplete => exact execReturnComplete_only h
  case segmentStart => exact execSegmentStart_only h
  case cueTake => exact execCueTake_only h
  case cueSendEnd => exact execCueSendEnd_only h
  case cueReply => exact execCueReply_only h
  case cueReplyTimeout => exact execCueReplyTimeout_only h
  case crosspointIssue => exact execCrosspointIssue_only h
  case crosspointAck => exact execCrosspointAck_only h
  case crosspointAckTimeout => exact execCrosspointAckTimeout_only h
  case siteFrameCheckFail p => exact whenRunning_only (f := fun s => s.rxWait (siteLine p)) h (s.rxWait_acts _).only
  case siteSilenceExpiry p => exact whenRunning_only h (s.siteSilent_only p).when
  case answerTransmitBegin => exact execAnswerTransmitBegin_only h
  case noticeTransmitBegin => exact execNoticeTransmitBegin_only h
  case siteTransmitEnd p =>
    exact whenRunning_only (f := fun s => s.putSite p { s.site p with sending := none }) h (s.putSite_acts_port p _ (by rfl)).only
  case saveComplete => exact execSaveComplete_only h
  all_goals exact exec_asking_only rfl h

/-! ## The parts are the whole state -/

theorem SitePortState.ext_pairs {x y : SitePortState} (pairs : x.pairs = y.pairs) (rest : x.withoutPairs = y.withoutPairs) :
    x = y := by
  cases x
  cases y
  simp_all [SitePortState.withoutPairs]

theorem FeedPortState.ext_sides {x y : FeedPortState} (rx : x.receiveSide = y.receiveSide) (tx : x.tx = y.tx) : x = y := by
  cases x
  cases y
  simp_all [FeedPortState.receiveSide]

theorem PerSide.ext_fields {α : Type} {v w : PerSide α} (a : v.a = w.a) (b : v.b = w.b) : v = w := by
  cases v
  cases w
  simp_all

theorem State.eq_of_same_parts {s t : State} (h : ∀ p : Part, p.same s t) : t = s := by
  obtain ⟨engine, queue, due⟩ : t.sst.engine = s.sst.engine ∧ t.sst.queue = s.sst.queue ∧ t.sst.startDue = s.sst.startDue := by
    simpa [Part.same] using h .engine
  obtain ⟨recvA, recvB, turn⟩ : t.rpe.port.a.receiveSide = s.rpe.port.a.receiveSide
      ∧ t.rpe.port.b.receiveSide = s.rpe.port.b.receiveSide ∧ t.rpe.turn = s.rpe.turn := by simpa [Part.same] using h .intake
  obtain ⟨txA, txB⟩ : t.rpe.port.a.tx = s.rpe.port.a.tx ∧ t.rpe.port.b.tx = s.rpe.port.b.tx := by
    simpa [Part.same] using h .reports
  obtain ⟨cues, txn⟩ : t.cus.queue = s.cus.queue ∧ t.cus.txn = s.cus.txn := by simpa [Part.same] using h .cueQueue
  obtain ⟨pending, awaiting, taken⟩ : t.xps.pending = s.xps.pending ∧ t.xps.awaiting = s.xps.awaiting
      ∧ t.xps.eventTaken = s.xps.eventTaken := by simpa [Part.same] using h .crosspoints
  obtain ⟨pairsA, pairsB⟩ : t.sli.port.a.pairs = s.sli.port.a.pairs ∧ t.sli.port.b.pairs = s.sli.port.b.pairs := by
    simpa [Part.same] using h .notices
  obtain ⟨restA, restB⟩ : t.sli.port.a.withoutPairs = s.sli.port.a.withoutPairs
      ∧ t.sli.port.b.withoutPairs = s.sli.port.b.withoutPairs := by simpa [Part.same] using h .sitePorts
  have pages : t.sst.pages = s.sst.pages := PerChannel.ext _ _ fun c => h (.pages c)
  have baseline : t.rpe.baseline = s.rpe.baseline := PerChannel.ext _ _ fun c => h (.baseline c)
  have watched : t.sup.channel = s.sup.channel := PerChannel.ext _ _ fun c => h (.watched c)
  have plans : t.cus.channel = s.cus.channel := PerChannel.ext _ _ fun c => h (.plan c)
  have tally : t.xps.tally = s.xps.tally := PerChannel.ext _ _ fun c => h (.tally c)
  have flags : t.sli.channel = s.sli.channel := PerChannel.ext _ _ fun c => h (.channelFlags c)
  have sst : t.sst = s.sst := Sst.mk.injEq .. ▸ ⟨pages, engine, queue, due⟩
  have ports : t.rpe.port = s.rpe.port :=
    PerSide.ext_fields (FeedPortState.ext_sides recvA txA) (FeedPortState.ext_sides recvB txB)
  have rpe : t.rpe = s.rpe := Rpe.mk.injEq .. ▸ ⟨ports, turn, baseline, h .reportTimer⟩
  have sup : t.sup = s.sup := Sup.mk.injEq .. ▸ ⟨h .watch, h .scan, watched, h .key⟩
  have cus : t.cus = s.cus := Cus.mk.injEq .. ▸ ⟨cues, txn, plans⟩
  have xps : t.xps = s.xps := Xps.mk.injEq .. ▸ ⟨pending, awaiting, h .acknowledged, tally, h .alarm, taken⟩
  have sites : t.sli.port = s.sli.port :=
    PerSide.ext_fields (SitePortState.ext_pairs pairsA restA) (SitePortState.ext_pairs pairsB restB)
  have sli : t.sli = s.sli := Sli.mk.injEq .. ▸ ⟨sites, h .deviceFlags, flags⟩
  have aut : t.aut = s.aut := PerChannel.ext _ _ fun c => h (.authority c)
  exact State.mk.injEq .. ▸ ⟨h .power, h .pins, h .settings, h .cadence, h .clock, sst, rpe, sup, aut, cus, xps, sli, h .store,
    h .rx, h .incoming, h .freeUsed, h .pending⟩

/-- Settles O3: the frame of each command, and a state put together from its parts. -/
theorem eachCommandChangesOnlyItsParts : Obligations.EachCommandChangesOnlyItsParts :=
  ⟨fun _ _ _ h => exec_only h, fun _ _ h => State.eq_of_same_parts h⟩

end Sys2Proof.Machine

namespace Sys2Proof.Machine

/-! # Every command completes (O1, O2) -/

/-- Settles O1: the front command is what `step` matches on. -/
theorem stepRunsFrontCommand : Obligations.StepRunsFrontCommand := fun _ _ _ => rfl

theorem whenRunning_completes (s : State) (f : State → State) : ∃ t, whenRunning s f = .next t := by
  cases h : s.power
  · exact ⟨f s, whenRunning_eq h⟩
  · exact ⟨s, whenRunning_held h⟩

theorem execResetEnd_completes (s : State) : ∃ t, execResetEnd s = .next t := by
  unfold execResetEnd
  split
  · exact ⟨_, rfl⟩
  · exact ⟨_, rfl⟩

/-- Every command but the resets and RESET_END is one that a running part carries out. -/
theorem exec_whenRunning {i : Instr} (power : i ≠ .powerOnReset) (nrst : i ≠ .nrstAccepted) (ended : i ≠ .resetEnd) (s : State) :
    ∃ f, exec i s = whenRunning s f := by
  cases i
  case powerOnReset => exact absurd rfl power
  case nrstAccepted => exact absurd rfl nrst
  case resetEnd => exact absurd rfl ended
  all_goals
    dsimp only [exec]
    exact ⟨_, rfl⟩

theorem exec_completes (i : Instr) (s : State) : ∃ t, exec i s = .next t := by
  by_cases power : i = .powerOnReset
  · subst power
    exact ⟨_, rfl⟩
  · by_cases nrst : i = .nrstAccepted
    · subst nrst
      exact ⟨_, rfl⟩
    · by_cases ended : i = .resetEnd
      · subst ended
        exact execResetEnd_completes s
      · obtain ⟨f, h⟩ := exec_whenRunning power nrst ended s
        exact h ▸ whenRunning_completes s f

theorem State.takeByte_completes (s : State) (l : LineId) (b : Byte) (rest : List (LineId × Byte)) :
    ∃ t, s.takeByte l b rest = .next t := by
  unfold State.takeByte
  dsimp only
  split
  · exact ⟨_, rfl⟩
  · exact ⟨_, rfl⟩
  · split
    · exact exec_completes _ _
    · exact ⟨_, rfl⟩

theorem idleHeld_completes (s : State) : ∃ t, idleHeld s = .next t := by
  unfold idleHeld
  split
  · exact ⟨_, rfl⟩
  · dsimp only
    split
    · exact ⟨_, rfl⟩
    · exact exec_completes _ _

theorem idle_completes (s : State) : ∃ t, idle s = .next t := by
  unfold idle
  split
  · exact idleHeld_completes s
  · split
    · exact exec_completes _ _
    · exact s.takeByte_completes _ _ _
    · exact ⟨_, rfl⟩

/-- Settles O2: `whenRunning` completes with the command's effect or, while held, with the state as it was. -/
theorem everyCommandCompletes : Obligations.EveryCommandCompletes := by
  refine ⟨exec_completes, fun s => ?_, fun i s held power nrst ended => ?_⟩
  · unfold step
    split
    · exact exec_completes _ _
    · exact idle_completes s
  · obtain ⟨f, h⟩ := exec_whenRunning power nrst ended s
    rw [h, whenRunning_held held]

theorem whenRunning_next {s u : State} {f : State → State} (running : s.power = .running) (e : f s = u) :
    whenRunning s f = .next u := by
  rw [whenRunning_eq running, e]

/-! # The state after reset (O11) -/

theorem State.reset_pages (c : Channel) : State.reset.pages c = ⟨none, .empty⟩ := PerChannel.get_same _ c

theorem State.reset_cue (c : Channel) : State.reset.cue c = CueChannel.reset := PerChannel.get_same _ c

theorem State.reset_authority (c : Channel) : State.reset.authority c = .main := PerChannel.get_same _ c

theorem State.reset_site (p : SitePort) : State.reset.site p = SitePortState.reset := PerSide.get_same _ p

theorem State.reset_feed (p : FeedPort) : State.reset.feed p = ⟨[], true, ⟨none, none⟩⟩ := PerSide.get_same _ p

/-- No channel has a PLAY, an obligation, an expected clip or a CUED player after reset. -/
theorem State.reset_cueLawOf (c : Channel) : State.reset.CueLawOf c where
  shape := by
    unfold State.planShape
    rw [State.reset_authority, State.reset_cue]
    exact ⟨rfl, Or.inl (Nat.zero_le 1)⟩
  onePlay := Nat.zero_le 1
  playExpected := nofun
  oneObligation := Nat.zero_le 1
  noneBesideTxn := nofun
  cuedExpected p h := by
    rw [State.playerState, State.reset_cue] at h
    cases p <;> cases h

/-- Settles O11: every condition, read off the reset values. -/
theorem resetMeetsEveryCondition : Obligations.ResetMeetsEveryCondition := by
  refine ⟨State.loaded_tallyLaw _ _ _, State.loaded_alarmLaw _ _ _, State.loaded_apart _ _ _,
    ⟨fun p => ?_, fun p => ?_⟩, ⟨?_, fun c => ?_⟩, fun c => ?_, ?_, nofun, fun c => ?_, fun p => ?_, ⟨?_, nofun, State.reset_cueLawOf⟩⟩
  · rw [State.reset_feed]; exact Nat.zero_le 2
  · rw [State.reset_site]; exact Nat.zero_le 4
  · exact Nat.le_of_lt (by decide : (0 : Nat) < 6144)
  · rw [State.reset_pages]; exact ⟨Nat.zero_le _, Nat.zero_le _⟩
  · rw [State.reset_pages]; exact ⟨nofun, trivial⟩
  · unfold State.SettingsLegal; decide
  · rw [State.reset_cue]; exact Nat.zero_le 2
  · rw [State.reset_site]; exact ⟨List.Pairwise.nil, nofun⟩
  · exact List.Pairwise.nil

/-! # The switch-window event (O17) -/

theorem State.cue_clearBoundaries (s : State) (c : Channel) : s.clearBoundaries.cue c = { s.cue c with boundary := false } :=
  PerChannel.get_mapAll _ _ c

/-- Settles O17: the event acts once, since it marks the window as opened. -/
theorem windowOpensOncePerFrame : Obligations.WindowOpensOncePerFrame := by
  intro s running
  refine ⟨fun closed => ?_, fun opened => ?_⟩
  · have run : exec .switchWindowEvent s = .next (s.putCdu s.cdu.openWindow).clearBoundaries := by
      show execSwitchWindowEvent s = _
      exact whenRunning_next running (if_neg (by simp [closed]))
    refine ⟨_, run, rfl, ?_, State.cue_clearBoundaries _, exec_only run⟩
    show (true && decide (_ ≤ _)) = true ↔ _
    rw [Bool.true_and, decide_eq_true_iff]
    rfl
  · show execSwitchWindowEvent s = _
    exact whenRunning_next running (if_pos opened)

/-! # The Cadence Unit's pulses (O12 to O15) -/

theorem exec_refFramePulse_acquiring {s : State} {k : Cdu} (running : s.power = .running) (woken : s.cdu.wakened = k)
    (acquiring : k.refState = .acquiring) :
    exec .refFramePulse s = .next (s.putCdu (k.framePulse.qualify k.pulsePlace)) := by
  subst woken
  show execRefFramePulse s = _
  refine whenRunning_next running ?_
  simp only [acquiring]
  rfl

theorem exec_refFramePulse_inPlace {s : State} (running : s.power = .running) (locked : s.cdu.refState = .locked)
    (inPlace : s.cdu.pulsePlace = .inPlace) :
    exec .refFramePulse s = .next (s.putCdu s.cdu.framePulse).lockedPulse := by
  have woken : s.cdu.wakened = s.cdu := if_neg (by simp [locked])
  show execRefFramePulse s = _
  refine whenRunning_next running ?_
  simp only [woken, locked, inPlace]

theorem exec_refFramePulse_misplaced {s : State} (running : s.power = .running) (locked : s.cdu.refState = .locked)
    (misplaced : s.cdu.pulsePlace = .misplaced) :
    exec .refFramePulse s = .next (s.putCdu s.cdu.framePulse).loseReference := by
  have woken : s.cdu.wakened = s.cdu := if_neg (by simp [locked])
  show execRefFramePulse s = _
  refine whenRunning_next running ?_
  simp only [woken, locked, misplaced]

theorem Cdu.wakened_of_running {k : Cdu} (h : k.refState ≠ .freerun) : k.wakened = k := if_neg h

theorem Cdu.pulsePlace_inPlace {k : Cdu} (h : k.refLine = some k.frame.lines) : k.pulsePlace = .inPlace := by
  simp [Cdu.pulsePlace, h]

theorem Cdu.pulsePlace_elsewhere {k : Cdu} (h : k.refLine ≠ some k.frame.lines) :
    k.pulsePlace = .first ∨ k.pulsePlace = .misplaced := by
  unfold Cdu.pulsePlace
  split
  · exact .inl rfl
  · next n eq => exact .inr (if_neg fun m => h (eq.trans (congrArg some m)))

theorem Cdu.pulsePlace_misplaced {k : Cdu} {n : Nat} (h : k.refLine = some n) (other : n ≠ k.frame.lines) :
    k.pulsePlace = .misplaced := by
  simp [Cdu.pulsePlace, h, other]

theorem exec_lineSilence_acquiring {s : State} (running : s.power = .running) (acquiring : s.cdu.refState = .acquiring) :
    exec .lineSilence s = .next (s.putCdu { s.cdu with refLine := none, silentLines := 17, qualifying := 0 }) := by
  show execLineSilence s = _
  refine whenRunning_next running ?_
  simp only [acquiring]
  rfl

theorem exec_lineSilence_locked {s : State} (running : s.power = .running) (locked : s.cdu.refState = .locked) :
    exec .lineSilence s = .next (s.putCdu { s.cdu with refLine := none, silentLines := 17 }).loseReference := by
  show execLineSilence s = _
  refine whenRunning_next running ?_
  simp only [locked]

theorem exec_missingFramePulse {s : State} (running : s.power = .running) {n : Nat} (line : s.cdu.refLine = some n) :
    exec .missingFramePulse s = .next (if s.cdu.refState = .locked
      then (s.putCdu { s.cdu with refLine := some (max n (s.cdu.frame.lines + 8)) }).loseReference
      else s.putCdu { s.cdu with refLine := some (max n (s.cdu.frame.lines + 8)) }) := by
  show execMissingFramePulse s = _
  refine whenRunning_next running ?_
  rw [line]

theorem exec_refLinePulse {s : State} (running : s.power = .running) :
    exec .refLinePulse s = .next (if s.cdu.follows then (s.putCdu s.cdu.wakened.linePulse).endLine
      else s.putCdu s.cdu.wakened.linePulse) := by
  show execRefLinePulse s = _
  exact whenRunning_next running rfl

theorem exec_refLinePulse_pending {s : State} (running : s.power = .running)
    (apart : s.cdu.refState ≠ .locked ∨ s.cdu.phase = .pending) :
    exec .refLinePulse s = .next (s.putCdu s.cdu.wakened.linePulse) := by
  have free : s.cdu.follows = false := by
    rcases apart with h | h <;> simp [Cdu.follows, h]
  rw [exec_refLinePulse running, free]
  rfl

/-- Settles O12: the pulses of ACQUIRING and FREERUN, by the place of the pulse and the count. -/
theorem pulsesQualifyTheReference : Obligations.PulsesQualifyTheReference := by
  intro s running
  refine ⟨fun acquiring => ?_, fun free => ?_⟩
  · have woken : s.cdu.wakened = s.cdu := Cdu.wakened_of_running (by simp [acquiring])
    have pulse := exec_refFramePulse_acquiring running woken acquiring
    refine ⟨fun inPlace early => ?_, fun inPlace last => ?_, fun elsewhere => ?_, ?_, fun n line => ?_, ?_⟩
    · rw [pulse, Cdu.pulsePlace_inPlace inPlace]
      have more : ¬ 25 ≤ s.cdu.framePulse.qualifying + 1 := by simp only [Cdu.framePulse]; omega
      simp only [Cdu.qualify, if_neg more]
      rfl
    · rw [pulse, Cdu.pulsePlace_inPlace inPlace]
      have full : 25 ≤ s.cdu.framePulse.qualifying + 1 := by simp only [Cdu.framePulse]; omega
      simp only [Cdu.qualify, if_pos full]
      rfl
    · rw [pulse]
      rcases Cdu.pulsePlace_elsewhere elsewhere with place | place <;> rw [place] <;> rfl
    · rw [exec_lineSilence_acquiring running acquiring]
      rfl
    · rw [exec_missingFramePulse running line, if_neg (by simp [acquiring])]
      rfl
    · rw [exec_refLinePulse_pending running (.inl (by simp [acquiring])), woken]
      rfl
  · have woken : s.cdu.wakened = { s.cdu with refState := .acquiring, qualifying := 0, refLine := none } := if_pos free
    refine ⟨?_, ?_⟩
    · rw [exec_refLinePulse_pending running (.inl (by simp [free])), woken]
      rfl
    · rw [exec_refFramePulse_acquiring running woken rfl]
      rfl

/-- A loss of reference from a state whose Cadence Unit differs by the pulse only. -/
theorem State.loseReference_loses {s : State} {k : Cdu} (adjust : k.adjust = s.cdu.adjust) (decide : k.rephaseDue = s.cdu.rephaseDue)
    (due : k.frameDue = s.cdu.frameDue) (now : k.now = s.cdu.now) (line : k.line = s.cdu.line) (frame : k.frame = s.cdu.frame) :
    ∃ t, t = (s.putCdu k).loseReference ∧ t.cdu.refState = .freerun ∧ t.cdu.phase = .pending ∧ t.cdu.adjust = .none
      ∧ t.cdu.rephaseDue = false ∧ t.cdu.now = s.cdu.now ∧ t.cdu.line = s.cdu.line ∧ t.cdu.frame = s.cdu.frame
      ∧ (s.cdu.adjust = .stretching ∨ s.cdu.rephaseDue = true → t.cdu.frameDue = true)
      ∧ (s.cdu.adjust ≠ .stretching → s.cdu.rephaseDue = false → t.cdu.frameDue = s.cdu.frameDue)
      ∧ t.deviceFlag .refLost = true ∧ ∀ j, j ≠ .refLost → t.deviceFlag j = s.deviceFlag j := by
  have ends : (s.putCdu k).loseReference.cdu.frameDue = (s.cdu.frameDue || s.cdu.rephaseDue || s.cdu.adjust == .stretching) := by
    rw [← adjust, ← decide, ← due]
    rfl
  refine ⟨_, rfl, rfl, rfl, rfl, rfl, now, line, frame, fun past => ?_, fun short undecided => ?_, ?_, fun j other => ?_⟩
  · rw [ends]
    rcases past with h | h <;> simp [h]
  · rw [ends, undecided]
    simp [short]
  · exact (State.deviceFlag_raiseDevice _ _ _).trans (by simp)
  · exact (State.deviceFlag_raiseDevice _ _ _).trans (by simp [other])

/-- Settles O13: each of the three is the same loss, after what the pulse or its absence does to the reference line. -/
theorem lossOfReferenceRunsFree : Obligations.LossOfReferenceRunsFree := by
  intro s i running locked cause
  obtain ⟨k, run, adjust, decide, due, now, line, frame⟩ : ∃ k, exec i s = .next (s.putCdu k).loseReference ∧ k.adjust = s.cdu.adjust
      ∧ k.rephaseDue = s.cdu.rephaseDue ∧ k.frameDue = s.cdu.frameDue ∧ k.now = s.cdu.now ∧ k.line = s.cdu.line
      ∧ k.frame = s.cdu.frame := by
    rcases cause with ⟨rfl, n, at_, other⟩ | rfl | ⟨rfl, there⟩
    · refine ⟨s.cdu.framePulse, ?_, rfl, rfl, rfl, rfl, rfl, rfl⟩
      exact exec_refFramePulse_misplaced running locked (Cdu.pulsePlace_misplaced at_ other)
    · refine ⟨{ s.cdu with refLine := none, silentLines := 17 }, ?_, rfl, rfl, rfl, rfl, rfl, rfl⟩
      exact exec_lineSilence_locked running locked
    · obtain ⟨n, at_⟩ := Option.isSome_iff_exists.mp there
      refine ⟨{ s.cdu with refLine := some (max n (s.cdu.frame.lines + 8)) }, ?_, rfl, rfl, rfl, rfl, rfl, rfl⟩
      rw [exec_missingFramePulse running at_, if_pos locked]
  have reach : i.reach ⊆ [.cadence, .scan] ++ deviceFlagParts := by
    rcases cause with ⟨rfl, _⟩ | rfl | ⟨rfl, _⟩ <;> simp [Instr.reach, deviceFlagParts]
  obtain ⟨t, rfl, lost⟩ := State.loseReference_loses adjust decide due now line frame
  obtain ⟨free, phase, unadjusted, decided, now', line', frame', ends, goes, flag, others⟩ := lost
  exact ⟨_, run, free, phase, unadjusted, decided, now', line', frame', ends, goes, flag, others,
    ((s.putCdu_acts k).only.mono (by simp)).trans (State.loseReference_only _)⟩

theorem State.beginLine_nrstSampled {s t : State} (pins : t.pins = s.pins) (store : t.store = s.store) :
    nrstSampled s t.beginLine := by
  have levels : t.beginLine.pins = s.pins.nextLine := congrArg Pins.nextLine pins
  refine ⟨levels.trans ?_, ?_⟩
  · unfold Pins.nextLine
    cases s.pins.nrstLater <;> rfl
  · have sampled : t.beginLine.store = t.store.sampleNrst t.beginLine.pins.nrst := rfl
    rw [sampled, store]
    rfl

theorem State.gateLine_scan (s : State) :
    s.gateLine.sup.scan = if s.cdu.gated then s.sup.scan.gatedLine else s.sup.scan := by
  unfold State.gateLine
  split <;> rfl

theorem State.gateLine_cdu (s : State) : s.gateLine.cdu = s.cdu := by
  unfold State.gateLine
  split <;> rfl

theorem State.gateLine_pins (s : State) : s.gateLine.pins = s.pins := by
  unfold State.gateLine
  split <;> rfl

theorem State.gateLine_store (s : State) : s.gateLine.store = s.store := by
  unfold State.gateLine
  split <;> rfl

/-- A line before line L ends, and the next one begins. -/
theorem State.endLine_within {s : State} (going : s.cdu.ending = false) (within : s.cdu.line < s.cdu.frame.lines) :
    s.endLine = (s.gateLine.putCdu { s.cdu with line := s.cdu.line + 1, windowEvent := false }).beginLine := by
  have next : s.cdu.nextLine = { s.cdu with line := s.cdu.line + 1, windowEvent := false } := if_pos (by simp [within])
  have still : (s.gateLine.putCdu { s.cdu with line := s.cdu.line + 1, windowEvent := false }).cdu.ending = false := going
  unfold State.endLine
  rw [going, next]
  simp only [still]
  rfl

/-- An in-place pulse ends the frame in progress, with its line. -/
theorem State.lockedPulse_ends {s : State} (h : s.cdu.endsOnPulse = true) :
    s.lockedPulse.cdu = s.cdu.pulseEnd ∧ s.lockedPulse.sup.scan
      = if s.cdu.gated = true ∧ s.cdu.frameDue = false ∧ s.cdu.rephaseDue = false then s.sup.scan.gatedLine else s.sup.scan := by
  unfold State.lockedPulse State.gateLast
  rw [if_pos h]
  refine ⟨rfl, ?_⟩
  cases due : s.cdu.frameDue
  · cases dec : s.cdu.rephaseDue
    · simp [Cdu.ending, due, dec, State.gateLine_scan]
    · simp [Cdu.ending, due, dec]
  · simp [Cdu.ending, due]

theorem State.putCdu_putCdu (s : State) (k l : Cdu) : (s.putCdu k).putCdu l = s.putCdu l := rfl

/-- Settles O14: the line pulse by `endLine_within`, the frame pulse by `lockedPulse_ends` where it ends the frame. -/
theorem alignedTimingFollowsPulses : Obligations.AlignedTimingFollowsPulses := by
  intro s running locked
  have woken : s.cdu.wakened = s.cdu := Cdu.wakened_of_running (by simp [locked])
  have pulse (inPlace : s.cdu.refLine = some s.cdu.frame.lines) :
      exec .refFramePulse s = .next (s.putCdu s.cdu.framePulse).lockedPulse :=
    exec_refFramePulse_inPlace running locked (Cdu.pulsePlace_inPlace inPlace)
  have only (t : State) (h : t = (s.putCdu s.cdu.framePulse).lockedPulse) : OnlyChanges [.cadence, .scan] s t :=
    h ▸ ((s.putCdu_acts _).only.mono (by simp)).trans (State.lockedPulse_only _)
  refine ⟨fun aligned plain going undecided => ⟨fun within => ?_, fun inPlace later => ?_⟩, fun inPlace ends => ?_,
    fun pending => ⟨?_, fun inPlace plain undecided => ?_⟩⟩
  · have run : exec .refLinePulse s = .next (s.putCdu s.cdu.linePulse).endLine := by
      rw [exec_refLinePulse running, woken, if_pos (by simp [Cdu.follows, locked, aligned])]
    have ended := State.endLine_within (s := s.putCdu s.cdu.linePulse) (by simp [Cdu.ending, Cdu.linePulse, going, undecided]) within
    rw [ended] at run
    exact ⟨_, run, rfl, State.gateLine_scan _, State.beginLine_nrstSampled (State.gateLine_pins _) (State.gateLine_store _),
      exec_only run⟩
  · have ends : (s.putCdu s.cdu.framePulse).cdu.endsOnPulse = true := by
      simp [Cdu.endsOnPulse, Cdu.framePulse, aligned, plain, going, later]
    obtain ⟨cdu, scan⟩ := State.lockedPulse_ends ends
    refine ⟨_, pulse inPlace, cdu.trans ?_, scan.trans ?_, only _ rfl⟩
    · simp [Cdu.pulseEnd, Cdu.framePulse, aligned, plain, undecided]
    · simp [Cdu.framePulse, going, undecided, Cdu.gated]
  · have ends : (s.putCdu s.cdu.framePulse).cdu.endsOnPulse = true := by
      rcases ends with h | h | ⟨h, due⟩
      · simp [Cdu.endsOnPulse, Cdu.framePulse, h]
      · simp [Cdu.endsOnPulse, Cdu.framePulse, h]
      · simp [Cdu.endsOnPulse, Cdu.framePulse, h, due]
    obtain ⟨cdu, scan⟩ := State.lockedPulse_ends ends
    exact ⟨_, pulse inPlace, cdu, scan, only _ rfl⟩
  · rw [exec_refLinePulse_pending running (.inr pending), woken]
    rfl
  · have goes : (s.putCdu s.cdu.framePulse).cdu.endsOnPulse = false := by
      rcases plain with h | h <;> simp [Cdu.endsOnPulse, Cdu.framePulse, h, pending, undecided]
    rw [pulse inPlace, State.lockedPulse, goes]
    rfl

theorem State.quiet_iff (s : State) : s.quiet = true ↔ ∀ c, (s.authority c).busy = false := by
  simp [State.quiet, mem_channels]

theorem exec_rePhasing {s : State} {d : Nat} {k : Cdu} (running : s.power = .running) (decides : s.cdu.decides = true)
    (k_eq : s.cdu.rephase d s.quiet = k) :
    exec (.rePhasing d) s = .next (if k.ending then s.putCdu k else (s.putCdu k).beginLine) := by
  subst k_eq
  show execRePhasing d s = _
  exact whenRunning_next running (if_pos decides)

/-- Settles O15: the cases of `Cdu.rephase`. -/
theorem rePhasingIsDecidedAtLineEnd : Obligations.RePhasingIsDecidedAtLineEnd := by
  intro s d running locked pending plain
  have decides : s.cdu.decides = true := by simp [Cdu.decides, locked, pending, plain]
  have frameEnds {k : Cdu} (k_eq : s.cdu.rephase d s.quiet = k) (due : k.frameDue = true) :
      exec (.rePhasing d) s = .next (s.putCdu k) := by
    rw [exec_rePhasing running decides k_eq, if_pos (by simp [Cdu.ending, due])]
  refine ⟨fun zero => ?_, fun some_ near quietStart quiet => ?_, fun far quietStart => ?_, fun some_ refused => ?_⟩
  · exact frameEnds (k := { s.cdu.frameEnds with phase := .aligned }) (if_pos zero) rfl
  · have stretched : s.cdu.rephase d s.quiet
        = { s.cdu with rephaseDue := false, adjust := .stretching, line := s.cdu.frame.lines + 1, windowEvent := false } := by
      simp [Cdu.rephase, Nat.pos_iff_ne_zero.mp some_, near, quietStart, s.quiet_iff.mpr quiet]
    have run := exec_rePhasing running decides stretched
    cases due : s.cdu.frameDue
    · rw [if_neg (by simp [Cdu.ending, due])] at run
      exact ⟨_, run, rfl, fun _ => State.beginLine_nrstSampled rfl rfl, exec_only run⟩
    · rw [if_pos (by simp [Cdu.ending, due])] at run
      exact ⟨_, run, rfl, nofun, exec_only run⟩
  · refine frameEnds (k := { s.cdu.frameEnds with adjust := .cutNext }) ?_ rfl
    simp [Cdu.rephase, Nat.not_le.mpr far, quietStart, Nat.ne_of_gt (Nat.zero_lt_of_lt far)]
  · refine frameEnds (k := s.cdu.frameEnds) ?_ rfl
    have nonzero : d ≠ 0 := Nat.pos_iff_ne_zero.mp some_
    rcases refused with h | ⟨near, c, busy⟩
    · simp [Cdu.rephase, nonzero, h]
    · have loud : s.quiet = false := by
        rw [← Bool.not_eq_true, s.quiet_iff]
        exact fun all => by simp [all c] at busy
      simp [Cdu.rephase, nonzero, near, loud]

/-! # A frame start (O16) -/

theorem RxStages.get_start (r : RxStages) (l : LineId) : r.start.get l = (r.get l).start := by
  cases l <;> rfl

/-- Settles O16: each block's own count at a frame start. -/
theorem frameStartAdvancesEveryCount : Obligations.FrameStartAdvancesEveryCount := by
  intro s k running
  have run := exec_frameStart running k
  refine ⟨_, run, rfl, rfl, rfl, rfl, rfl, rfl, rfl, ?_, s.quiet_iff, ?_, rfl, rfl, rfl, rfl, ?_, ?_, rfl, rfl, rfl, fun p => ?_,
    ?_, fun c => ?_, ?_, ?_, fun p => ?_, rfl, rfl, rfl, rfl, ?_, fun l w => ?_, fun l bs fresh stale g => ?_, rfl, rfl, exec_only run⟩
  · show (s.cdu.wrapDue || s.cdu.now + 1 == 0) = true ↔ _
    rw [Bool.or_eq_true, beq_iff_eq]
    have wraps : s.cdu.now + 1 = 0 ↔ s.cdu.now = 4294967295 := by bv_omega
    rw [wraps]
  · show s.cdu.adjust.atStart = _
    cases s.cdu.adjust <;> rfl
  · show s.sst.engine.tick = _
    cases s.sst.engine <;> rfl
  · show (!s.sst.queue.isEmpty) = true ↔ _
    simp
  · show (s.sup.watch.map Watch.tick).get p = _
    rw [PerSide.get_map]
    cases h : s.sup.watch.get p with
    | mk live timer => cases live <;> rfl
  · show s.sup.scan.atStart = _
    cases s.sup.scan <;> rfl
  · exact PerChannel.get_mapAll SupChannel.tick s.sup.channel c
  · show (s.sup.key.sample k).asserted = _ ∧ (s.sup.key.sample k).count = _
    unfold KeyFilter.sample
    split
    · next same => exact ⟨rfl, rfl⟩
    · next other => exact ⟨rfl, rfl⟩
  · rfl
  · show (s.sli.port.map SitePortState.tick).get p = _
    rw [PerSide.get_map]
    rfl
  · show { s.pins.nextLine with tkey := k } = _
    unfold Pins.nextLine
    cases h : s.pins.nrstLater with
    | nil =>
      show { s.pins with tkey := k } = ⟨k, s.pins.nrst, []⟩
      rw [← h]
    | cons b later => rfl
  · exact (RxStages.get_start _ l).trans (congrArg RxStage.start w)
  · exact (RxStages.get_start _ l).trans (congrArg RxStage.start g)

end Sys2Proof.Machine

namespace Sys2Proof.Machine

/-! # What a taken request comes to (R164 to R168) -/

theorem exec_asked {i : Instr} {a : Asking} {s : State} {v : Verdict} (ask : askingOf i = some a) (take : canTake s a.port)
    (decided : a.owner (s.validFrame a.port) = v) :
    exec i s = .next (v.state.queueAnswer a.port ⟨a.tag, a.code, v.code, v.result⟩) := by
  rw [exec_asking ask, ← decided, ← State.answerBy_room take.2 a.code a.tag a.owner]
  exact whenRunning_next take.1 rfl

theorem State.site_withoutPairs {ps : List Part} {s t : State} (h : OnlyChanges ps s t) (free : Part.sitePorts ∉ ps) (q : SitePort) :
    (t.site q).withoutPairs = (s.site q).withoutPairs := by
  obtain ⟨ha, hb⟩ := Prod.mk.inj (h .sitePorts free)
  cases q
  · exact ha
  · exact hb

/-- A request whose owner leaves the site ports and the receive stages alone is answered as its owner decides. -/
theorem answered_of_only {s u : State} {p : SitePort} {ps : List Part} (only : OnlyChanges ps (s.validFrame p) u)
    (ports : Part.sitePorts ∉ ps) (rx : Part.rx ∉ ps) (tag : Tag) (code : Byte) (k : AnswerCode) (result : List Byte) :
    answered s (u.queueAnswer p ⟨tag, code, k, result⟩) p tag code k result := by
  have own := State.site_withoutPairs only ports p
  have others := State.site_withoutPairs only ports p.other
  rw [State.site_validFrame, if_pos rfl] at own
  rw [State.site_validFrame, if_neg (Side.other_ne p)] at others
  have answers : (u.site p).answers = (s.site p).answers := (SitePortState.mk.inj own).2.2.1
  refine ⟨?_, ?_, only .rx rx⟩
  · rw [State.queueAnswer, State.site_putSite, if_pos rfl, answers]
    exact congrArg (fun x : SitePortState =>
      SitePortState.mk x.live x.timer ((s.site p).answers ++ [Answer.mk tag code k result]) x.sending x.mask x.pairs) own
  · rw [State.queueAnswer, State.site_putSite, if_neg (Side.other_ne p)]
    exact others

theorem request_only {s u : State} {p : SitePort} {ps : List Part} (only : OnlyChanges ps (s.validFrame p) u) (a : Answer) :
    OnlyChanges (ps ++ requestParts) s (u.queueAnswer p a) :=
  ((s.validFrame_acts p).only.mono (by simp [takingParts, requestParts])).trans
    ((only.mono (by simp)).trans ((State.queueAnswer_acts u p a).only.mono (by simp [requestParts])))

/-- A request that its owner refuses, or answers without acting, is answered and changes nothing else. -/
theorem asked_unchanged {i : Instr} {p : SitePort} {code : Byte} {tag : Tag} {ps : List Part} {owner : State → Verdict} {s : State}
    {k : AnswerCode} {result : List Byte} (ask : askingOf i = some ⟨p, code, tag, ps, owner⟩) (take : canTake s p)
    (decided : owner (s.validFrame p) = ⟨s.validFrame p, k, result⟩) :
    ∃ t, exec i s = .next t ∧ OnlyChanges requestParts s t ∧ answered s t p tag code k result :=
  ⟨_, exec_asked ask take decided, request_only (OnlyChanges.refl [] _) _,
    answered_of_only (OnlyChanges.refl [] _) (by simp) (by simp) _ _ _ _⟩

/-- The same with what changes said last, as most statements have it. -/
theorem asked_refused {i : Instr} {p : SitePort} {code : Byte} {tag : Tag} {ps : List Part} {owner : State → Verdict} {s : State}
    {k : AnswerCode} {result : List Byte} (ask : askingOf i = some ⟨p, code, tag, ps, owner⟩) (take : canTake s p)
    (decided : owner (s.validFrame p) = ⟨s.validFrame p, k, result⟩) :
    ∃ t, exec i s = .next t ∧ answered s t p tag code k result ∧ OnlyChanges requestParts s t := by
  obtain ⟨t, run, only, answer⟩ := asked_unchanged ask take decided
  exact ⟨t, run, answer, only⟩

/-! # The layouts of the reads (R66, R169, R193) -/

/-! ## STATUS -/

theorem State.intake_closed (s : State) :
    (!s.intakeOpen) = decide (s.sst.engine ≠ .idle ∨ s.sst.startDue = true ∧ s.sst.queue ≠ []) := by
  rw [Bool.eq_iff_iff]
  simp [State.intakeOpen, State.engineRunning, or_iff_not_imp_left]

theorem State.linkCode (s : State) :
    (if s.linkUp then 0 else 1) = if (s.sup.watch.get .A).live ∨ (s.sup.watch.get .B).live then 0 else 1 := by
  simp only [State.linkUp, Bool.or_eq_true, PerSide.get]
  congr

theorem State.txnKind (s : State) :
    s.txnStatus = optional (fun k => nat8 k.entry.channel.val ++ nat8 (if k.entry.action = .cancel then 1 else 0)) s.cus.txn := by
  unfold State.txnStatus
  congr 1
  funext t
  cases t.entry.action <;> rfl

theorem State.scanKind (s : State) : nat8 (ScanMode.code s.live.scanMode) = nat8 (if s.live.scanMode = .sequential then 0 else 1) := by
  cases s.live.scanMode <;> rfl

theorem State.statusBytes_eq (s : State) : s.statusBytes = statusItems s := by
  unfold State.statusBytes statusItems
  rw [s.intake_closed, s.linkCode, s.txnKind, State.scanStatus, State.scanSettings, s.scanKind]
  simp only [List.append_assoc, State.feedStatus, State.siteStatus, State.saveStatus, State.saving, State.cueEntries, liveCode,
    List.flatMap_cons, List.flatMap_nil, List.append_nil]
  cases s.sup.scan <;> rfl

/-! ## CHANNEL -/

theorem placeIn_eq (q : List Channel) (c : Channel) : placeIn q c = (q.findIdx? (· == c)).map fun i => i + 1 := by
  unfold placeIn
  induction q with
  | nil => rfl
  | cons d q ih =>
    by_cases e : d = c
    · rw [List.findIdx?_cons, if_pos (beq_iff_eq.mpr e)]
      simp [e]
    · have ne : ¬ c = d := fun h => e h.symm
      rw [List.findIdx?_cons, if_neg (show ¬ (d == c) = true by simpa using e), Option.map_map]
      simp only [List.contains_eq_mem, decide_eq_true_eq, List.mem_cons, ne, false_or, List.takeWhile_cons, bne_iff_ne, ne_eq, e,
        not_false_eq_true, if_true, List.length_cons] at ih ⊢
      have next := congrArg (Option.map fun i => i + 1) ih
      rw [Option.map_map] at next
      rw [← next]
      split <;> rfl

theorem State.pageBytes_eq (s : State) (c : Channel) : s.pageBytes c = pageItems s c := by
  unfold State.pageBytes pageItems
  rw [placeIn_eq]
  have engine : s.engineRunning = decide (s.sst.engine ≠ .idle) := by
    rw [State.engineRunning, Bool.eq_iff_iff]
    simp
  have place (i : Option Nat) : optional nat16 (i.map fun i => i + 1) = optional (fun i => nat16 (i + 1)) i := by
    cases i <;> rfl
  rw [engine, place]
  cases (s.pages c).active <;> cases (s.pages c).next <;> simp only [activeBytes, nextBytes, List.append_assoc] <;> rfl

theorem State.healthBytes_eq (s : State) (c : Channel) : s.healthBytes c = healthItems s c := by
  unfold State.healthBytes healthItems
  rw [s.linkCode]
  dsimp only
  cases (s.watched c).run with
  | none => rfl
  | some r => obtain ⟨v, n⟩ := r; cases v <;> rfl

theorem State.planBytes_eq (s : State) (g : JoinPlan) : s.planBytes g = planItems s g := by
  unfold State.planBytes planItems
  cases g.content <;> simp only [List.append_assoc] <;> rfl

theorem airBytes_eq (a : OnAir) : airBytes a = airItems a := rfl

theorem State.authorityBytes_eq (s : State) (c : Channel) : s.authorityBytes c = authorityItems s c := by
  unfold State.authorityBytes authorityItems
  cases s.authority c with
  | main => rfl
  | returning prior m point a =>
    cases prior <;>
      simp only [Authority.armedPart, Authority.holder, Authority.air, Authority.returnPart, optional, airBytes_eq, List.append_assoc] <;>
      rfl
  | _ =>
    simp only [Authority.armedPart, Authority.holder, Authority.air, Authority.returnPart, optional, s.planBytes_eq, airBytes_eq,
      List.append_assoc]
    rfl

theorem State.plannedBytes_eq (s : State) (c : Channel) (g : Planned) : s.plannedBytes c g = plannedItems s c g := by
  unfold State.plannedBytes plannedItems
  cases g.content <;> simp only [List.append_assoc] <;> rfl

theorem entryBytes_eq (place : Nat) (x : CueEntry) (withdrawn : Bool) : entryBytes place x withdrawn = entryItems place x withdrawn := by
  unfold entryBytes entryItems
  cases x.action <;> simp only [List.append_assoc] <;> rfl

theorem State.cueBytes_eq (s : State) (c : Channel) : s.cueBytes c = cueItems s c := by
  unfold State.cueBytes cueItems
  have planned : s.plannedBytes c = plannedItems s c := funext fun g => s.plannedBytes_eq c g
  simp only [listBytes, State.placedEntries, List.append_assoc, planned, entryBytes_eq, List.filter_map, List.length_map, List.flatMap_map]
  rfl

theorem State.channelBytes_eq (s : State) (c : Channel) :
    s.channelBytes c = pageItems s c ++ optional bytes16 s.rpe.baseline[c] ++ healthItems s c ++ authorityItems s c ++ cueItems s c
      ++ channelFlags.flatMap fun k => flag8 (s.channelFlag k c) := by
  rw [State.channelBytes, s.pageBytes_eq, s.healthBytes_eq, s.authorityBytes_eq, s.cueBytes_eq]

/-! ## CLOCK, FLAGS and EVENT -/

theorem State.clockBytes_eq (s : State) :
    s.clockBytes = nat8 s.stc.state.code ++ (if s.stc.state = .unset then [0] else 1 :: labelBytes (stageB s.format s.stationNow))
      ++ nat8 s.cdu.refState.code ++ (if s.windowOpen then [1] else [0]) := by
  unfold State.clockBytes State.stationTime
  split <;> rfl

theorem State.flagsBytes_eq (s : State) :
    s.flagsBytes = (deviceFlags.flatMap fun k => flag8 (s.deviceFlag k))
      ++ (channelFlags.flatMap fun k => channels.flatMap fun c => flag8 (s.channelFlag k c))
      ++ bytes32 (s.site .A).mask ++ bytes32 (s.site .B).mask ++ bytes32 s.live.alarmMask
      ++ (if s.live.almPolarity = .activeHigh then [0] else [1]) := by
  unfold State.flagsBytes
  cases s.live.almPolarity <;> rfl

theorem State.validFrame_mask (s : State) (p q : SitePort) : ((s.validFrame p).site q).mask = (s.site q).mask := by
  rw [State.site_validFrame]
  split
  · next h => rw [h]
  · rfl

theorem State.readEvent_of {s : State} {c : Channel} {x : EventReadFields} {day : Nat} {es : List Event} {e : Event}
    (named : s.pageNamed c x.page = some (day, es)) (held : es[x.index.toNat]? = some e) :
    s.readEvent c x = s.done (eventBytes s.format day e) := by
  simp only [State.readEvent, named, held]

theorem State.readEvent_beyond {s : State} {c : Channel} {x : EventReadFields} {day : Nat} {es : List Event}
    (named : s.pageNamed c x.page = some (day, es)) (beyond : es.length ≤ x.index.toNat) :
    s.readEvent c x = s.refuse .badValue := by
  simp only [State.readEvent, named, List.getElem?_eq_none beyond]

theorem State.readEvent_noPage {s : State} {c : Channel} {x : EventReadFields} (other : 1 < x.page.toNat) :
    s.readEvent c x = s.refuse .badValue := by
  have named : s.pageNamed c x.page = none := by
    rw [State.pageNamed, if_neg (fun h => by simp [h] at other), if_neg (fun h => by simp [h] at other)]
  simp only [State.readEvent, named]

theorem State.pageNamed_active {s : State} {c : Channel} {page : Byte} (h : page = 0) :
    s.pageNamed c page = some ((((s.pages c).active.map fun p => p.baseDay).getD 0), activeEvents (s.pages c).active) := if_pos h

theorem State.pageNamed_next {s : State} {c : Channel} {page : Byte} (h : page = 1) :
    s.pageNamed c page = some ((s.pages c).next.baseDay.getD 0, (s.pages c).next.events) := by
  rw [State.pageNamed, if_neg (by simp [h]), if_pos h]

/-! # Reads answer and change nothing -/

/-- Settles O20: each read's owner leaves the state as it is, and its result is the items in their order. -/
theorem readsAnswerAndChangeNothing : Obligations.ReadsAnswerAndChangeNothing := by
  intro s p tag take
  refine ⟨?status, ?channel, ?clock, ?flags, ?keepalive, ?unknown, ?event⟩
  case status => exact asked_unchanged rfl take (congrArg (Verdict.mk _ .done) (s.validFrame p).statusBytes_eq)
  case channel =>
    intro ch c named
    exact asked_unchanged rfl take ((State.onChannel_of named _).trans
      (congrArg (Verdict.mk _ .done) ((s.validFrame p).channelBytes_eq c)))
  case clock =>
    refine asked_unchanged rfl take ((congrArg (Verdict.mk _ .done) (s.validFrame p).clockBytes_eq).trans ?_)
    refine congrArg (Verdict.mk _ .done) (congrArg₂ _ (congrArg₂ _ (congrArg₂ _ ?_ rfl) ?_) rfl)
    · show nat8 s.stc.state.code = _
      cases s.stc.state <;> rfl
    · show nat8 s.cdu.refState.code = _
      cases s.cdu.refState <;> rfl
  case flags =>
    refine asked_unchanged rfl take (congrArg (Verdict.mk _ .done) ?_)
    rw [State.flagsBytes_eq, State.validFrame_mask, State.validFrame_mask]
    rfl
  case keepalive => exact asked_refused rfl take rfl
  case unknown => exact fun code => asked_refused rfl take rfl
  case event =>
    intro x c named
    have owned (v : Verdict) (h : (s.validFrame p).readEvent c x = v) :
        (s.validFrame p).onChannel x.channel (fun c => (s.validFrame p).readEvent c x) = v := (State.onChannel_of named _).trans h
    refine ⟨fun page e active holds held => ?_, fun day e next base held => ?_, ?_⟩
    · have named : (s.validFrame p).pageNamed c x.page = some (page.baseDay, page.events) := by
        rw [State.pageNamed_active active]
        show some (((s.pages c).active.map fun p => p.baseDay).getD 0, activeEvents (s.pages c).active) = _
        rw [holds]
        rfl
      exact asked_refused rfl take (owned _ (State.readEvent_of named held))
    · have named : (s.validFrame p).pageNamed c x.page = some (day, (s.pages c).next.events) := by
        rw [State.pageNamed_next next]
        show some ((s.pages c).next.baseDay.getD 0, _) = _
        rw [base]
        rfl
      exact asked_refused rfl take (owned _ (State.readEvent_of named held))
    · rintro (⟨active, beyond⟩ | ⟨next, beyond⟩ | other)
      · exact asked_refused rfl take (owned _ (State.readEvent_beyond (State.pageNamed_active active) beyond))
      · exact asked_refused rfl take (owned _ (State.readEvent_beyond (State.pageNamed_next next) beyond))
      · exact asked_refused rfl take (owned _ (State.readEvent_noPage other))

/-! # Refused requests change nothing but their port -/

/-- A valid frame of any request that finds four answers queued reloads the port's silence timer, and does nothing more. -/
theorem request_overrun {i : Instr} {s : State} {p : SitePort} (running : s.power = .running)
    (full : (s.site p).answers.length = 4) (h : IsRequest p i) : exec i s = .next (s.validFrame p) := by
  obtain ⟨a, ask, rfl⟩ := isRequest_iff_asking.mp h
  rw [exec_asking ask]
  exact whenRunning_next running (State.answerBy_full full _ _ _)

/-- Settles O21: R168 refuses before the owner decides, and a full answer queue before R168. -/
theorem refusedRequestsChangeNothing : Obligations.RefusedRequestsChangeNothing := by
  intro s p tag
  refine ⟨fun take => ?malformed, fun take ch page mode index source items above => ?noChannel, fun take ch above one => ?take,
    fun running full i request => ⟨_, request_overrun running full request, ?own, ?other, rfl, (s.validFrame_acts p).only⟩⟩
  case malformed =>
    simp only [malformedRequests, List.forall_mem_cons, List.not_mem_nil, false_implies, implies_true, and_true]
    and_intros
    all_goals exact asked_refused rfl take rfl
  case noChannel =>
    simp only [List.forall_mem_cons, List.not_mem_nil, false_implies, implies_true, and_true]
    and_intros
    all_goals exact asked_refused rfl take (State.onChannel_none above _)
  case take => exact asked_refused rfl take ((if_neg one).trans (State.onChannel_none above _))
  case own => rw [State.site_validFrame, if_pos rfl]
  case other => rw [State.site_validFrame, if_neg (Side.other_ne p)]

end Sys2Proof.Machine

namespace Sys2Proof.Machine

/-! # Joins and positions (chapter 2) -/

/-! ## Where a join is placed (R34, R35) -/

theorem State.joinFrame_eq (s : State) (c : Channel) :
    s.joinFrame c = s.cdu.now + BitVec.ofNat 32 (s.cueEntries * (1 + s.live.replyTimeout) + (s.cfg c).cueLead) := by
  rw [BitVec.ofNat_add, ← BitVec.add_assoc]
  rfl

theorem State.join_plan_start (s : State) (c : Channel) : (s.join c).plan.start = s.joinFrame c := by
  unfold State.join
  cases (s.pages c).active <;> rfl

theorem State.join_plan_station (s : State) (c : Channel) : (s.join c).plan.station = s.joinStation c := by
  unfold State.join
  cases (s.pages c).active <;> rfl

theorem State.join_rel {s : State} {c : Channel} {page : Page} (active : (s.pages c).active = some page) :
    (s.join c).rel = some (relativeFrame s.format (s.joinStation c) (pageBase s.format page.baseDay)) := by
  simp only [State.join, active]

/-- A local frame at most 2^32 − 1 frames ahead lies below the frame in progress exactly where the count wraps on the way. -/
theorem ahead_toNat (n : LocalFrame) {k : Nat} (h : k < 4294967296) :
    (n + BitVec.ofNat 32 k).toNat + (if (n + BitVec.ofNat 32 k).toNat < n.toNat then 4294967296 else 0) = n.toNat + k := by
  have := n.isLt
  simp only [BitVec.toNat_add, BitVec.toNat_ofNat]
  split <;> omega

theorem State.joinStation_ahead {s : State} {c : Channel}
    (near : s.cueEntries * (1 + s.live.replyTimeout) + (s.cfg c).cueLead < 4294967296) :
    s.joinStation c
      = (s.stationNow + (s.cueEntries * (1 + s.live.replyTimeout) + (s.cfg c).cueLead)) % wf s.format := by
  have wraps := ahead_toNat s.cdu.now near
  rw [← s.joinFrame_eq c] at wraps
  generalize s.cueEntries * (1 + s.live.replyTimeout) + (s.cfg c).cueLead = ahead at wraps
  rw [State.stationNow, Nat.mod_add_mod, show s.now.toNat + s.stc.offset + ahead = s.cdu.now.toNat + ahead + s.stc.offset from
    Nat.add_right_comm .., ← wraps]
  by_cases wrap : (s.joinFrame c).toNat < s.cdu.now.toNat
  · rw [if_pos wrap, State.joinStation, State.now, if_pos wrap, wrapShift, Nat.add_mod_mod, Nat.add_right_comm]
  · rw [if_neg wrap, State.joinStation, State.now, if_neg wrap, Nat.add_zero, Nat.add_zero]

theorem wf_pos (f : Format) : 0 < wf f := by cases f <;> decide

theorem State.joinStation_lt (s : State) (c : Channel) : s.joinStation c < wf s.format := Nat.mod_lt _ (wf_pos _)

/-- Settles O25: the three facts about jl, js and rj. -/
theorem joinIsPlacedBySendEstimate : Obligations.JoinIsPlacedBySendEstimate := by
  intro s c
  refine ⟨(s.join_plan_start c).trans (s.joinFrame_eq c), fun near => (s.join_plan_station c).trans (State.joinStation_ahead near),
    fun page active => ?_⟩
  rw [State.join_rel active, s.join_plan_station c, relativeFrame, stationDiff, Nat.mod_eq_of_lt (s.joinStation_lt c), pageBase]

/-! ## Resolved events -/

theorem mem_resolvedEvents {es : List Event} {e : Event} {r : Resolution} :
    (e, r) ∈ resolvedEvents es ↔ e ∈ es ∧ e.res = some r := by
  simp only [resolvedEvents, List.mem_filterMap, Option.map_eq_some_iff, Prod.mk.injEq]
  constructor
  · rintro ⟨e', held, r', res, rfl, rfl⟩
    exact ⟨held, res⟩
  · rintro ⟨held, res⟩
    exact ⟨e, held, r, res, rfl, rfl⟩

theorem resolvedEvents_append (xs ys : List Event) : resolvedEvents (xs ++ ys) = resolvedEvents xs ++ resolvedEvents ys :=
  List.filterMap_append

theorem resolvedEvents_cons {e : Event} {r : Resolution} (h : e.res = some r) (es : List Event) :
    resolvedEvents (e :: es) = (e, r) :: resolvedEvents es :=
  List.filterMap_cons_some (by rw [h]; rfl)

theorem resolvedEvents_eq_nil {es : List Event} (all : ∀ e ∈ es, ∃ r, e.res = some r) : resolvedEvents es = [] ↔ es = [] := by
  constructor
  · intro h
    cases es with
    | nil => rfl
    | cons e es =>
      obtain ⟨r, res⟩ := all e (List.mem_cons_self ..)
      rw [resolvedEvents_cons res] at h
      cases h
  · rintro rfl
    rfl

/-- A search that fails on what stands before an event and succeeds on it finds the event. -/
theorem find_resolved {es pre post : List Event} {e : Event} {r : Resolution} {q : Event × Resolution → Bool}
    (split : es = pre ++ e :: post) (res : e.res = some r) (before : ∀ e' ∈ pre, ∀ r', e'.res = some r' → q (e', r') = false)
    (here : q (e, r) = true) : (resolvedEvents es).find? q = some (e, r) := by
  have none : (resolvedEvents pre).find? q = none := by
    rw [List.find?_eq_none]
    rintro ⟨e', r'⟩ held
    obtain ⟨mem, res'⟩ := mem_resolvedEvents.mp held
    simp [before e' mem r' res']
  rw [split, resolvedEvents_append, resolvedEvents_cons res, List.find?_append, none, Option.none_or, List.find?_cons_of_pos here]

/-! ## The content that a position decides (R37, R38, R41) -/

theorem coveredContent_clip {mu : Nat} {e : Event} {dur offset : Nat} {clipId : List Byte} {media : Nat} (some : 1 ≤ mu)
    (h : coveredContent mu e dur offset = .clip clipId media) :
    ∃ trim, e.kind = .clip clipId trim ∧ media = trim + offset ∧ offset + mu ≤ dur := by
  unfold coveredContent startTest pastStart at h
  split at h
  · next start =>
    split at h
    · split at h
      · next kind fits =>
        cases h
        exact ⟨_, kind, by omega, by omega⟩
      · cases h
    · cases h
    · cases h
  · split at h
    · cases h
    · split at h
      · split at h
        · next kind fits =>
          cases h
          exact ⟨_, kind, rfl, by omega⟩
        · cases h
      · cases h
      · cases h

theorem coveredContent_noJoin {mu : Nat} {e : Event} {dur offset : Nat} (past : offset ≠ 0) (policy : e.policy = .noJoin) :
    coveredContent mu e dur offset = .filler := by
  simp only [coveredContent, if_neg past, pastStart, policy]

/-- At the start of an event, and past it where its policy allows, the kind of the event decides. -/
theorem coveredContent_joined {mu : Nat} {e : Event} {dur offset : Nat} (joins : offset = 0 ∨ e.policy = .join) :
    (∀ clipId trim, e.kind = .clip clipId trim →
      coveredContent mu e dur offset = if mu ≤ dur - offset then .clip clipId (trim + offset) else .filler)
    ∧ (∀ source, e.kind = .live source → coveredContent mu e dur offset = .live source)
    ∧ (e.kind = .fill → coveredContent mu e dur offset = .filler) := by
  by_cases start : offset = 0
  · subst start
    refine ⟨fun clipId trim kind => ?_, fun source kind => ?_, fun kind => ?_⟩ <;>
      simp only [coveredContent, if_true, startTest, kind, Nat.sub_zero, Nat.add_zero]
  · have policy := joins.resolve_left start
    refine ⟨fun clipId trim kind => ?_, fun source kind => ?_, fun kind => ?_⟩ <;>
      simp only [coveredContent, if_neg start, pastStart, policy, kind]

/-! ## The place of a position (R36, R39, R40) -/

theorem reach_within {f : Format} {p : Nat} (h : p < 4 * fpd f) : reach f p = .within := if_pos h

theorem reach_afterPage {f : Format} {p : Nat} (past : 4 * fpd f ≤ p) (h : p < 6 * fpd f) : reach f p = .afterPage := by
  rw [reach, if_neg (by omega), if_pos h]

theorem reach_beforeBase {f : Format} {p : Nat} (h : 6 * fpd f ≤ p) : reach f p = .beforeBase := by
  rw [reach, if_neg (by omega), if_neg (by omega)]

/-- R36: the event that covers a frame. -/
def coverer (es : List Event) (p : Nat) : Option (Event × Resolution) :=
  (resolvedEvents es).find? fun x => x.2.start ≤ p && p < x.2.start + x.2.dur

theorem placeOn_covered {f : Format} {mu : Nat} {es : List Event} {p : Nat} {e : Event} {r : Resolution} (near : p < 4 * fpd f)
    (covers : coverer es p = some (e, r)) :
    placeOn f mu es p
      = { content := coveredContent mu e r.dur (p - r.start), id := e.id, length := some (r.start + r.dur - p),
          next := ((resolvedEvents es).find? fun x => r.start < x.2.start).map fun x => (x.1.id, x.2.start - p) } := by
  unfold coverer at covers
  simp only [placeOn, reach_within near, covers]

theorem placeOn_gap {f : Format} {mu : Nat} {es : List Event} {p : Nat} {e : Event} {r : Resolution} (near : p < 4 * fpd f)
    (uncovered : coverer es p = none) (next : (resolvedEvents es).find? (fun x => p < x.2.start) = some (e, r)) :
    placeOn f mu es p = gapPlace f p e r := by
  unfold coverer at uncovered
  simp only [placeOn, reach_within near, uncovered, next]

theorem placeOn_pastLast {f : Format} {mu : Nat} {es : List Event} {p : Nat} (near : p < 4 * fpd f)
    (uncovered : coverer es p = none) (last : (resolvedEvents es).find? (fun x => p < x.2.start) = none) :
    placeOn f mu es p = exhaustedPlace := by
  unfold coverer at uncovered
  simp only [placeOn, reach_within near, uncovered, last]

theorem placeOn_afterPage {f : Format} {mu : Nat} {es : List Event} {p : Nat} (past : 4 * fpd f ≤ p) (h : p < 6 * fpd f) :
    placeOn f mu es p = exhaustedPlace := by
  simp only [placeOn, reach_afterPage past h]

theorem placeOn_beforeBase {f : Format} {mu : Nat} {es : List Event} {p : Nat} (h : 6 * fpd f ≤ p) {e : Event} {r : Resolution}
    (first : (resolvedEvents es).head? = some (e, r)) : placeOn f mu es p = gapPlace f p e r := by
  simp only [placeOn, reach_beforeBase h, first]

theorem placeOn_beforeEmpty {f : Format} {mu : Nat} {es : List Event} {p : Nat} (h : 6 * fpd f ≤ p)
    (empty : (resolvedEvents es).head? = none) : placeOn f mu es p = exhaustedPlace := by
  simp only [placeOn, reach_beforeBase h, empty]

theorem coverer_some {es : List Event} {p : Nat} {e : Event} {r : Resolution} (h : coverer es p = some (e, r)) :
    (e ∈ es ∧ e.res = some r) ∧ r.start ≤ p ∧ p < r.start + r.dur := by
  refine ⟨mem_resolvedEvents.mp (List.mem_of_find?_eq_some h), ?_⟩
  have covers := List.find?_some h
  simpa using covers

theorem coverer_eq_none {es : List Event} {p : Nat}
    (h : ∀ e ∈ es, ∀ r, e.res = some r → ¬(r.start ≤ p ∧ p < r.start + r.dur)) : coverer es p = none := by
  rw [coverer, List.find?_eq_none]
  rintro ⟨e, r⟩ held
  obtain ⟨mem, res⟩ := mem_resolvedEvents.mp held
  simpa using h e mem r res

/-- What a position gives that no event covers: filler up to the next event, or with no end. -/
theorem placeOn_uncovered (f : Format) (mu : Nat) {es : List Event} {p : Nat} (uncovered : coverer es p = none) :
    (∃ e r, (e ∈ es ∧ e.res = some r) ∧ placeOn f mu es p = gapPlace f p e r ∧ (p < 4 * fpd f ∧ p < r.start ∨ 6 * fpd f ≤ p))
    ∨ placeOn f mu es p = exhaustedPlace ∧ (resolvedEvents es = []
        ∨ p < 4 * fpd f ∧ (∀ e ∈ es, ∀ r, e.res = some r → r.start ≤ p) ∨ 4 * fpd f ≤ p ∧ p < 6 * fpd f) := by
  rcases lt_or_ge p (4 * fpd f) with near | far
  · cases next : (resolvedEvents es).find? (fun x => p < x.2.start) with
    | some x =>
      obtain ⟨e, r⟩ := x
      have ahead : p < r.start := by simpa using List.find?_some next
      exact .inl ⟨e, r, mem_resolvedEvents.mp (List.mem_of_find?_eq_some next), placeOn_gap near uncovered next, .inl ⟨near, ahead⟩⟩
    | none =>
      refine .inr ⟨placeOn_pastLast near uncovered next, .inr (.inl ⟨near, fun e held r res => ?_⟩)⟩
      have := List.find?_eq_none.mp next (e, r) (mem_resolvedEvents.mpr ⟨held, res⟩)
      simpa using this
  · rcases lt_or_ge p (6 * fpd f) with after | before
    · exact .inr ⟨placeOn_afterPage far after, .inr (.inr ⟨far, after⟩)⟩
    · cases first : resolvedEvents es with
      | nil => exact .inr ⟨placeOn_beforeEmpty before (by rw [first]; rfl), .inl rfl⟩
      | cons x xs =>
        obtain ⟨e, r⟩ := x
        have held : (e, r) ∈ resolvedEvents es := by rw [first]; exact List.mem_cons_self ..
        exact .inl ⟨e, r, mem_resolvedEvents.mp held, placeOn_beforeBase before (by rw [first]; rfl), .inr before⟩

/-! ## What a position gives, case by case -/

/-- A clip that a position gives is that of the event that covers it, and keeps its cue bound. -/
theorem placeOn_clip {f : Format} {mu : Nat} (least : 1 ≤ mu) {es : List Event} {p : Nat} {clipId : List Byte} {media : Nat}
    (h : (placeOn f mu es p).content = .clip clipId media) :
    ∃ e ∈ es, ∃ (r : Resolution) (trim : Nat), e.res = some r ∧ e.kind = .clip clipId trim ∧ e.id = (placeOn f mu es p).id
      ∧ trim ≤ media ∧ media - trim + mu ≤ r.dur ∧ r.start + (media - trim) = p := by
  have filler {x : Placed} (e : placeOn f mu es p = x) (fill : x.content = .filler) : False := by
    rw [e, fill] at h
    cases h
  cases covered : coverer es p with
  | none =>
    rcases placeOn_uncovered f mu covered with ⟨e, r, -, place, -⟩ | ⟨place, -⟩
    · exact (filler place rfl).elim
    · exact (filler place rfl).elim
  | some x =>
    obtain ⟨e, r⟩ := x
    rcases lt_or_ge p (4 * fpd f) with near | far
    · have place := placeOn_covered (mu := mu) near covered
      rw [place] at h ⊢
      obtain ⟨⟨held, res⟩, start, -⟩ := coverer_some covered
      obtain ⟨trim, kind, rfl, fits⟩ := coveredContent_clip least h
      exact ⟨e, held, r, trim, res, kind, rfl, by omega, by omega, by omega⟩
    · rcases lt_or_ge p (6 * fpd f) with after | before
      · exact (filler (placeOn_afterPage far after) rfl).elim
      · cases first : (resolvedEvents es).head? with
        | none => exact (filler (placeOn_beforeEmpty before first) rfl).elim
        | some x => exact (filler (placeOn_beforeBase before first) rfl).elim

/-- On a resolved page the events that stand before an event end at its start or earlier. -/
theorem resolvedWell_before {f : Format} {pre post : List Event} {e : Event} {r : Resolution}
    (well : resolvedWell f (pre ++ e :: post)) (res : e.res = some r) {e' : Event} (held : e' ∈ pre) {r' : Resolution}
    (res' : e'.res = some r') : r'.start + r'.dur ≤ r.start :=
  (List.pairwise_append.mp well.2.2.2.1).2.2 e' held e (List.mem_cons_self ..) r' r res' res

theorem resolvedWell_after {f : Format} {pre post : List Event} {e : Event} {r : Resolution}
    (well : resolvedWell f (pre ++ e :: post)) (res : e.res = some r) {e' : Event} (held : e' ∈ post) {r' : Resolution}
    (res' : e'.res = some r') : r.start + r.dur ≤ r'.start :=
  (List.pairwise_cons.mp (List.pairwise_append.mp well.2.2.2.1).2.1).1 e' held r r' res res'

theorem resolvedWell_event {f : Format} {es : List Event} (well : resolvedWell f es) {e : Event} (held : e ∈ es) {r : Resolution}
    (res : e.res = some r) : 1 ≤ r.dur ∧ r.dur ≤ fpd f ∧ r.start < 3 * fpd f := by
  obtain ⟨long, r', res', dur, within, span, -⟩ := well.2.2.1 e held
  cases res.symm.trans res'
  omega

/-- On a resolved page the event that covers a position decides the place. -/
theorem placeOn_on {f : Format} (mu : Nat) {pre post : List Event} {e : Event} {r : Resolution} {p : Nat}
    (well : resolvedWell f (pre ++ e :: post)) (res : e.res = some r) (start : r.start ≤ p) (stop : p < r.start + r.dur) :
    placeOn f mu (pre ++ e :: post) p
      = { content := coveredContent mu e r.dur (p - r.start), id := e.id, length := some (r.start + r.dur - p),
          next := (resolvedEvents post).head?.map fun x => (x.1.id, x.2.start - p) } := by
  have held : e ∈ pre ++ e :: post := by simp
  obtain ⟨dur, long, span⟩ := resolvedWell_event well held res
  have covers : coverer (pre ++ e :: post) p = some (e, r) := by
    refine find_resolved rfl res (fun e' mem r' res' => ?_) (by simp [start, stop])
    have := resolvedWell_before well res mem res'
    simp
    omega
  have later : ((resolvedEvents (pre ++ e :: post)).find? fun x => r.start < x.2.start) = (resolvedEvents post).head? := by
    cases after : resolvedEvents post with
    | nil =>
      rw [List.head?_nil, List.find?_eq_none]
      rintro ⟨e', r'⟩ mem
      rw [resolvedEvents_append, resolvedEvents_cons res, after, List.mem_append, List.mem_singleton] at mem
      rcases mem with before | same
      · obtain ⟨mem, res'⟩ := mem_resolvedEvents.mp before
        have := resolvedWell_before well res mem res'
        simp
        omega
      · cases same
        simp
    | cons x xs =>
      obtain ⟨e', r'⟩ := x
      have mem : (e', r') ∈ resolvedEvents post := by rw [after]; exact List.mem_cons_self ..
      obtain ⟨mem, res'⟩ := mem_resolvedEvents.mp mem
      have := resolvedWell_after well res mem res'
      rw [resolvedEvents_append, resolvedEvents_cons res, after, List.find?_append, List.find?_eq_none.mpr, Option.none_or,
        List.find?_cons_of_neg (by simp), List.find?_cons_of_pos (by simp; omega)]
      · rfl
      · rintro ⟨e'', r''⟩ before
        obtain ⟨mem, res''⟩ := mem_resolvedEvents.mp before
        have := resolvedWell_before well res mem res''
        simp
        omega
  rw [placeOn_covered (by omega) covers, later]

/-- The distance from a position of the week to a frame of a page's span, the wrap of the week on the way included. -/
theorem gap_distance {f : Format} {p start : Nat} (week : p < wf f) (span : start < 3 * fpd f) :
    stationDiff f start p = if p ≤ start then start - p else start + wf f - p := by
  cases f <;> simp only [stationDiff, wf, fpd] at * <;> split <;> omega

theorem gap_arrives {f : Format} {p start : Nat} (span : start < 3 * fpd f) :
    (p + stationDiff f start p) % wf f = start :=
  add_stationDiff_mod (by simp only [wf]; omega) p

/-! ## A boundary lookup takes its position from the anchor (R145) -/

theorem anchorRel_eq {f : Format} {jl e : LocalFrame} (rj : Nat) (apart : (e - jl).toNat ≠ 2147483648) :
    anchorRel f (jl, rj) e = (((rj : Int) + (e - jl).toInt) % wf f).toNat := by
  have back : (jl - e).toNat = (4294967296 - (e - jl).toNat) % 4294967296 := by
    simp only [BitVec.toNat_sub]
    have := e.isLt
    have := jl.isLt
    omega
  unfold anchorRel atOrAfter frameDiff
  generalize (e - jl) = d at *
  have range := d.isLt
  by_cases near : d.toNat ≤ 2147483648
  · rw [if_pos (by simpa using near), BitVec.toInt_eq_toNat_of_lt (by omega)]
    norm_cast
  · rw [if_neg (by simpa using near), stationDiff_eq_emod, back]
    congr 2
    rw [BitVec.toInt_eq_toNat_cond, if_neg (by omega)]
    omega

theorem State.lookupPlace_anchored {s : State} {c : Channel} {a : LocalFrame × Nat} {page : Page}
    (anchor : (s.cue c).anchor = some a) (active : (s.pages c).active = some page) (e : LocalFrame) :
    s.lookupPlace c e
      = some (placeOn s.format (leastRemainder (s.cfg c).minRemain) page.events (anchorRel s.format a e)) := by
  simp only [State.lookupPlace, anchor, active]

/-- Settles O26: the place of a covered position from `placeOn_on`, that of one which no event covers from `placeOn_uncovered`. -/
theorem positionsGiveTheirSegments : Obligations.PositionsGiveTheirSegments := by
  refine ⟨fun f minRemain es p => ⟨fun clipId media h => ?clip, ?covered, fun week all bare => ?bare⟩,
    fun s c e jl rj page anchor active apart => ?lookup⟩
  case clip => exact placeOn_clip (Nat.le_max_right ..) h
  case lookup => rw [State.lookupPlace_anchored anchor active, anchorRel_eq rj apart, leastRemainder]
  case covered =>
    rintro well pre post e r rfl res start stop
    have place := placeOn_on (max minRemain 1) well res start stop
    refine ⟨by rw [place], by rw [place], ?_, ?_, ?_, ?_⟩
    · rintro rfl
      rw [place]
      rfl
    · rintro e' post' r' rfl res'
      rw [place, resolvedEvents_cons res']
      rfl
    · intro joins
      rw [place]
      obtain ⟨clip, live, fill⟩ := coveredContent_joined (mu := max minRemain 1) (e := e) (dur := r.dur) (offset := p - r.start)
        (joins.imp_left fun h => by omega)
      refine ⟨fun clipId trim kind => (clip clipId trim kind).trans ?_, live, fill⟩
      rw [show r.dur - (p - r.start) = r.start + r.dur - p by omega]
    · intro past policy
      rw [place]
      exact coveredContent_noJoin (by omega) policy
  case bare =>
    have none := coverer_eq_none bare
    have span {e : Event} {r : Resolution} (held : e ∈ es ∧ e.res = some r) : r.start < 3 * fpd f := by
      obtain ⟨r', res, lt⟩ := all e held.1
      cases res.symm.trans held.2
      exact lt
    have empty := resolvedEvents_eq_nil fun e held => (all e held).imp fun r h => h.1
    have day := fpd_pos f
    have within (pre post : List Event) (e : Event) (r : Resolution) (split : es = pre ++ e :: post) (res : e.res = some r)
        (ahead : p < r.start ∧ ∀ e' ∈ pre, ∀ r', e'.res = some r' → r'.start ≤ p) (near : p < 4 * fpd f) :
        placeOn f (max minRemain 1) es p = gapPlace f p e r :=
      placeOn_gap near none (find_resolved split res (fun e' mem r' res' => by simpa using ahead.2 e' mem r' res')
        (by simpa using ahead.1))
    have before (post : List Event) (e : Event) (r : Resolution) (split : es = e :: post) (res : e.res = some r)
        (far : 6 * fpd f ≤ p) : placeOn f (max minRemain 1) es p = gapPlace f p e r :=
      placeOn_beforeBase far (by rw [split, resolvedEvents_cons res]; rfl)
    refine ⟨?content, ?id, ?exhausted, ?next, fun pre post e r split res ahead near => ?_, fun post e r split res far => ?_⟩
    case content => rcases placeOn_uncovered f (max minRemain 1) none with ⟨e, r, -, place, -⟩ | ⟨place, -⟩ <;> rw [place] <;> rfl
    case id => rcases placeOn_uncovered f (max minRemain 1) none with ⟨e, r, -, place, -⟩ | ⟨place, -⟩ <;> rw [place] <;> rfl
    case exhausted =>
      rcases placeOn_uncovered f (max minRemain 1) none with ⟨e, r, held, place, ahead⟩ | ⟨place, open'⟩
      · rw [place]
        refine ⟨fun h => (by cases h), ?_⟩
        rintro (rfl | ⟨near, passed⟩ | after)
        · cases held.1
        · have := passed e held.1 r held.2
          omega
        · omega
      · rw [place, ← empty]
        exact ⟨fun _ => open', fun _ => rfl⟩
    case next =>
      intro i n next
      rcases placeOn_uncovered f (max minRemain 1) none with ⟨e, r, held, place, -⟩ | ⟨place, -⟩
      · rw [place] at next ⊢
        cases next
        exact ⟨rfl, e, held.1, r, held.2, rfl, gap_arrives (span held)⟩
      · rw [place] at next
        cases next
    · have place := within pre post e r split res ahead near
      have distance := gap_distance week (span ⟨by simp [split], res⟩)
      rw [if_pos (by omega)] at distance
      rw [place, gapPlace, distance]
      exact ⟨rfl, rfl⟩
    · have place := before post e r split res far
      have start := span (e := e) ⟨by simp [split], res⟩
      have distance := gap_distance week start
      rw [if_neg (by omega)] at distance
      rw [place, gapPlace, distance]
      exact ⟨rfl, rfl⟩

end Sys2Proof.Machine

namespace Sys2Proof.Machine

/-! # Resolution (R55, R56) -/

theorem resolveFrom_nil (before : Nat) : resolveFrom before [] = ([], 0) := rfl

theorem resolveFrom_removed {before : Nat} {e : Event} {es : List Event}
    (empty : (limitedTo (firstHard es) (e.hardRel.getD before) e.duration).1 = 0) :
    resolveFrom before (e :: es)
      = ((resolveFrom (e.hardRel.getD before) es).1, (resolveFrom (e.hardRel.getD before) es).2 + 1) := by
  simp only [resolveFrom, empty, if_true, Nat.add_zero]

theorem resolveFrom_kept {before : Nat} {e : Event} {es : List Event} {d : Nat × Bool}
    (lasts : limitedTo (firstHard es) (e.hardRel.getD before) e.duration = d) (some : d.1 ≠ 0) :
    resolveFrom before (e :: es)
      = ({ e with res := Option.some ⟨e.hardRel.getD before, d.1, d.2⟩ } :: (resolveFrom (e.hardRel.getD before + d.1) es).1,
          (resolveFrom (e.hardRel.getD before + d.1) es).2) := by
  subst lasts
  simp only [resolveFrom, if_neg some]

theorem firstHard_eq_none {es : List Event} : firstHard es = none ↔ ∀ x ∈ es, x.hardRel = none := List.findSome?_eq_none_iff

theorem firstHard_split {pre post : List Event} {x : Event} {limit : Nat} (before : ∀ y ∈ pre, y.hardRel = none)
    (here : x.hardRel = some limit) : firstHard (pre ++ x :: post) = some limit := by
  rw [firstHard, List.findSome?_append, List.findSome?_eq_none_iff.mpr before, Option.none_or, List.findSome?_cons, here]

theorem firstHard_cons_hard {e : Event} {l : Nat} (h : e.hardRel = some l) (es : List Event) : firstHard (e :: es) = some l := by
  rw [firstHard, List.findSome?_cons, h]

theorem firstHard_cons_follow {e : Event} (h : e.hardRel = none) (es : List Event) : firstHard (e :: es) = firstHard es := by
  rw [firstHard, List.findSome?_cons, h]
  rfl

theorem limitedTo_none (start dur : Nat) : limitedTo none start dur = (dur, false) := rfl

theorem limitedTo_fits {l start dur : Nat} (h : start + dur ≤ l) : limitedTo (some l) start dur = (dur, false) := if_pos h

theorem limitedTo_cut {l start dur : Nat} (h : l < start + dur) : limitedTo (some l) start dur = (l - start, true) :=
  if_neg (by omega)

/-- An effective duration is at most the one of the record, and shorter exactly where the event is truncated. -/
theorem limitedTo_spec (limit : Option Nat) (start dur : Nat) :
    (limitedTo limit start dur).1 ≤ dur
      ∧ ((limitedTo limit start dur).1 ≠ 0 → ((limitedTo limit start dur).2 = true ↔ (limitedTo limit start dur).1 < dur))
      ∧ ∀ l, limit = some l → start ≤ l → start + (limitedTo limit start dur).1 ≤ l := by
  cases limit with
  | none => simp [limitedTo_none]
  | some l =>
    rcases lt_or_ge l (start + dur) with cut | fits
    · rw [limitedTo_cut cut]
      refine ⟨by dsimp only; omega, fun some => by simp at some ⊢; omega, fun l' same le => ?_⟩
      cases same
      dsimp only
      omega
    · rw [limitedTo_fits fits]
      refine ⟨le_rfl, by simp, fun l' same le => ?_⟩
      cases same
      exact fits

/-! ## Resolution is the walk of R55 -/

theorem startsAt_getD (before : Nat) (e : Event) : startsAt before e (e.hardRel.getD before) :=
  ⟨fun h hard => by rw [hard]; rfl, fun follow => by rw [follow]; rfl⟩

theorem lastsFor_limitedTo (e : Event) (after : List Event) (start : Nat) :
    lastsFor e after start (limitedTo (firstHard after) start e.duration).1 (limitedTo (firstHard after) start e.duration).2 := by
  refine ⟨fun free => ?_, ?_⟩
  · rw [firstHard_eq_none.mpr free]
    exact ⟨rfl, rfl⟩
  · rintro pre x post limit rfl before here
    rw [firstHard_split before here]
    refine ⟨fun fits => ?_, fun cut => ?_⟩
    · rw [limitedTo_fits fits]
      exact ⟨rfl, rfl⟩
    · rw [limitedTo_cut cut]
      exact ⟨rfl, rfl⟩

theorem walk_resolveFrom (before : Nat) (es : List Event) : Walk before es (resolveFrom before es).1 (resolveFrom before es).2 := by
  induction es generalizing before with
  | nil => exact .done before
  | cons e es ih =>
    have lasts := lastsFor_limitedTo e es (e.hardRel.getD before)
    by_cases empty : (limitedTo (firstHard es) (e.hardRel.getD before) e.duration).1 = 0
    · rw [resolveFrom_removed empty]
      rw [empty] at lasts
      exact .remove before e es _ _ _ _ (startsAt_getD before e) lasts (ih _)
    · rw [resolveFrom_kept rfl empty]
      exact .keep before e es _ _ _ _ _ (startsAt_getD before e) lasts empty (ih _)

/-! ## What resolution keeps of a list whose HARD starts do not fall -/

theorem hardsInOrder_tail {e : Event} {es : List Event} (h : hardsInOrder (e :: es) = true) : hardsInOrder es = true := by
  rw [hardsInOrder, Bool.and_eq_true] at h
  exact h.2

theorem hardsInOrder_head {e : Event} {es : List Event} (h : hardsInOrder (e :: es) = true) {a b : Nat} (hard : e.hardRel = some a)
    (next : firstHard es = some b) : a ≤ b := by
  rw [hardsInOrder, Bool.and_eq_true, hard, next] at h
  simpa using h.1

/-- The walk stands at or before the next HARD start. -/
def reaches (before : Nat) (es : List Event) : Prop := ∀ l, firstHard es = some l → before ≤ l

/-- The effective start of the head of a list lies at or after the walk, and at or before the next HARD start behind it. -/
theorem reaches.start {before : Nat} {e : Event} {es : List Event} (ordered : hardsInOrder (e :: es) = true)
    (h : reaches before (e :: es)) : before ≤ e.hardRel.getD before ∧ reaches (e.hardRel.getD before) es := by
  cases hard : e.hardRel with
  | none => exact ⟨le_rfl, fun l next => h l ((firstHard_cons_follow hard es).trans next)⟩
  | some a => exact ⟨h a (firstHard_cons_hard hard es), fun l next => hardsInOrder_head ordered hard next⟩

theorem reaches.stop {start : Nat} {es : List Event} (h : reaches start es) (dur : Nat) :
    reaches (start + (limitedTo (firstHard es) start dur).1) es := by
  intro l next
  exact (limitedTo_spec (firstHard es) start dur).2.2 l next (h l next)

/-- What resolution says of an event that remains: it lies at or after the walk, at its own start where it is HARD, for at least one
frame and for no longer than its record says. -/
def resolvedAs (before : Nat) (e : Event) (x : Resolution) : Prop :=
  before ≤ x.start ∧ 1 ≤ x.dur ∧ x.dur ≤ e.duration ∧ (x.truncated = true ↔ x.dur < e.duration) ∧ ∀ h, e.hardRel = some h → x.start = h

theorem resolveFrom_events {before : Nat} {es : List Event} (ordered : hardsInOrder es = true) (h : reaches before es) :
    (∀ e ∈ (resolveFrom before es).1, ∃ x, e.res = some x ∧ resolvedAs before e x)
    ∧ (resolveFrom before es).1.Pairwise (fun e e' => ∀ x y, e.res = some x → e'.res = some y → x.start + x.dur ≤ y.start) := by
  induction es generalizing before with
  | nil => exact ⟨fun e held => absurd held (List.not_mem_nil), List.Pairwise.nil⟩
  | cons e es ih =>
    obtain ⟨later, next⟩ := h.start ordered
    have tail := hardsInOrder_tail ordered
    by_cases empty : (limitedTo (firstHard es) (e.hardRel.getD before) e.duration).1 = 0
    · rw [resolveFrom_removed empty]
      obtain ⟨each, apart⟩ := ih tail next
      refine ⟨fun e' held => ?_, apart⟩
      obtain ⟨x, res, after, rest⟩ := each e' held
      exact ⟨x, res, later.trans after, rest⟩
    · rw [resolveFrom_kept rfl empty]
      obtain ⟨each, apart⟩ := ih tail (next.stop e.duration)
      obtain ⟨long, cut, -⟩ := limitedTo_spec (firstHard es) (e.hardRel.getD before) e.duration
      refine ⟨fun e' held => ?_, List.pairwise_cons.mpr ⟨fun e' held x y res res' => ?_, apart⟩⟩
      · rcases List.mem_cons.mp held with rfl | held
        · exact ⟨_, rfl, later, Nat.one_le_iff_ne_zero.mpr empty, long, cut empty, fun h hard => congrArg (·.getD before) hard⟩
        · obtain ⟨x, res, after, rest⟩ := each e' held
          exact ⟨x, res, by omega, rest⟩
      · cases res
        obtain ⟨y', res'', after, -⟩ := each e' held
        cases res'.symm.trans res''
        exact after

theorem resolveFrom_count (before : Nat) (es : List Event) :
    (resolveFrom before es).1.length + (resolveFrom before es).2 = es.length := by
  induction es generalizing before with
  | nil => rfl
  | cons e es ih =>
    by_cases empty : (limitedTo (firstHard es) (e.hardRel.getD before) e.duration).1 = 0
    · rw [resolveFrom_removed empty]
      have := ih (e.hardRel.getD before)
      simp only [List.length_cons]
      omega
    · rw [resolveFrom_kept rfl empty]
      have := ih (e.hardRel.getD before + (limitedTo (firstHard es) (e.hardRel.getD before) e.duration).1)
      simp only [List.length_cons]
      omega

/-- An event without what was resolved for it. -/
def Event.unresolved (e : Event) : Event := { e with res := none }

/-- The events that remain are those of the list, in its order. -/
theorem resolveFrom_sublist (before : Nat) (es : List Event) :
    ((resolveFrom before es).1.map Event.unresolved).Sublist (es.map Event.unresolved) := by
  induction es generalizing before with
  | nil => exact List.Sublist.refl []
  | cons e es ih =>
    by_cases empty : (limitedTo (firstHard es) (e.hardRel.getD before) e.duration).1 = 0
    · rw [resolveFrom_removed empty]
      exact (ih _).cons _
    · rw [resolveFrom_kept rfl empty]
      exact (ih _).cons_cons _

theorem reaches_zero (es : List Event) : reaches 0 es := fun _ _ => Nat.zero_le _

/-- Settles O32: resolution is the walk by its own recursion, and the walk stands at or before the next HARD start throughout. -/
theorem resolutionKeepsEventsApart : Obligations.ResolutionKeepsEventsApart := by
  refine ⟨walk_resolveFrom, fun es ordered => ?_⟩
  obtain ⟨each, apart⟩ := resolveFrom_events ordered (reaches_zero es)
  refine ⟨resolveFrom_count 0 es, resolveFrom_sublist 0 es, fun e held => ?_, apart⟩
  obtain ⟨x, res, -, rest⟩ := each e held
  exact ⟨x, res, rest⟩

end Sys2Proof.Machine

namespace Sys2Proof.Machine

/-! # The commit engine (R53 to R56) -/

@[simp] theorem State.setEngine_engine (s : State) (e : Engine) : (s.setEngine e).sst.engine = e := rfl
@[simp] theorem State.setEngine_queue (s : State) (e : Engine) : (s.setEngine e).sst.queue = s.sst.queue := rfl
@[simp] theorem State.setEngine_pages (s : State) (e : Engine) (c : Channel) : (s.setEngine e).pages c = s.pages c := rfl
@[simp] theorem State.setEngine_channelFlag (s : State) (e : Engine) (k : ChannelFlag) (c : Channel) :
    (s.setEngine e).channelFlag k c = s.channelFlag k c := rfl

theorem State.raise_pages (s : State) (k : ChannelFlag) (c d : Channel) : (s.raise k c).pages d = s.pages d := rfl

theorem exec_commitStart {s : State} {c : Channel} {q : List Channel} (running : s.power = .running) (idle : s.sst.engine = .idle)
    (due : s.sst.startDue = true) (queue : s.sst.queue = c :: q) :
    exec .commitStart s = .next (State.setEngine { s with sst := { s.sst with queue := q, startDue := false } }
      (.committing c (framesFor (s.pages c).next.events.length))) := by
  show execCommitStart s = _
  refine whenRunning_next running ?_
  simp only [idle, queue, due, if_true]

theorem exec_commitEnd {s : State} {c : Channel} {g : LoadPage} (running : s.power = .running)
    (work : s.sst.engine = .committing c 0) (page : (s.pages c).next = .committing g) :
    exec .commitEnd s = .next ((s.finishCommit c g).setEngine .idle) := by
  show execCommitEnd s = _
  refine whenRunning_next running ?_
  simp only [work, page]

/-- R56: the span holds exactly where every effective start lies below 3·FPD. -/
theorem spanHolds_iff {f : Format} {es : List Event} :
    spanHolds f es = true ↔ ∀ e ∈ es, ∀ r, e.res = some r → r.start < 3 * fpd f := by
  rw [spanHolds, List.all_eq_true]
  refine forall₂_congr fun e _ => ?_
  cases e.res <;> simp [outOfSpan]

theorem State.finishCommit_ready {s : State} {c : Channel} {g : LoadPage}
    (span : ∀ e ∈ (resolveFrom 0 g.events).1, ∀ r, e.res = some r → r.start < 3 * fpd s.live.format) :
    s.finishCommit c g = s.putNext c
      (.ready ⟨g.baseDay, g.serial, (resolveFrom 0 g.events).1, min 65535 (resolveFrom 0 g.events).2, g.flip⟩) := by
  rw [State.finishCommit, if_pos (spanHolds_iff.mpr span), addDropped, Nat.zero_add]

theorem State.finishCommit_rejected {s : State} {c : Channel} {g : LoadPage}
    (beyond : ∃ e ∈ (resolveFrom 0 g.events).1, ∃ r, e.res = some r ∧ 3 * fpd s.live.format ≤ r.start) :
    s.finishCommit c g = (s.discardNext c).raise .listRejected c := by
  obtain ⟨e, held, r, res, le⟩ := beyond
  exact if_neg fun span => absurd (spanHolds_iff.mp span e held r res) (by omega)

/-- Settles O33: the commit's end is `finishCommit`, which resolves the page and then keeps or discards it. -/
theorem commitRunsAndResolves : Obligations.CommitRunsAndResolves := by
  intro s running
  refine ⟨fun c q idle due queue => ⟨_, exec_commitStart running idle due queue, rfl, rfl, fun d => rfl,
    exec_only (exec_commitStart running idle due queue)⟩, fun c g work page => ?_⟩
  refine ⟨_, exec_commitEnd running work page, rfl, ?active, fun span => ?ready, fun beyond => ?rejected, ?only⟩
  case active =>
    rw [State.setEngine_pages, State.finishCommit]
    split
    · rw [State.pages_putNext, if_pos rfl]
    · rw [State.raise_pages, State.pages_discardNext]
  case ready =>
    rw [State.finishCommit_ready span]
    exact ⟨State.next_putNext s c _, rfl,
      ((s.putNext_acts c _).only.mono (by simp)).trans ((State.setEngine_acts _ .idle).only.mono (by simp))⟩
  case rejected =>
    rw [State.finishCommit_rejected beyond]
    refine ⟨by rw [State.setEngine_pages, State.raise_pages, State.pages_discardNext], ?_, fun flip => ?_⟩
    · rw [State.setEngine_channelFlag, State.channelFlag_raise, if_pos ⟨rfl, rfl⟩]
    · rw [State.setEngine_channelFlag, State.channelFlag_raise, if_neg (by simp)]
      exact s.discardNext_flipMissed c (by rw [page]; exact flip)
  case only =>
    have list : listParts c ⊆ [.engine, .reports, .pages c] ++ flagParts c := by
      intro p hp
      simp only [listParts, List.mem_cons] at hp
      grind
    exact ((s.finishCommit_acts c g).only.mono list).trans ((State.setEngine_acts _ .idle).only.mono (by simp))

end Sys2Proof.Machine

namespace Sys2Proof.Machine

/-! # The STANDBY REPORT (R86 to R88) -/

theorem FeedPortState.placeReport_begins {k : FeedPortState} (on : k.enabled = true) (idle : k.tx.sending = none) (r : Report) :
    (k.placeReport r).tx = ⟨some r, k.tx.waiting⟩ := by
  simp only [FeedPortState.placeReport, on, if_true, FeedTx.place, idle]

theorem FeedPortState.placeReport_waits {k : FeedPortState} {x : Report} (on : k.enabled = true) (sending : k.tx.sending = some x)
    (r : Report) : (k.placeReport r).tx = ⟨some x, some r⟩ := by
  simp only [FeedPortState.placeReport, on, if_true, FeedTx.place, sending]

theorem FeedPortState.placeReport_disabled {k : FeedPortState} (off : k.enabled = false) (r : Report) : k.placeReport r = k :=
  if_neg (Bool.eq_false_iff.mp off)

theorem FeedTx.ended_sending {x : FeedTx} {r : Report} (sending : x.sending = some r) : x.ended = ⟨x.waiting, none⟩ := by
  simp only [FeedTx.ended, sending]

/-- Settles O37: a report is formed from the state as it stands and placed on each port as R88 says. -/
theorem reportsAreFormedAndSent : Obligations.ReportsAreFormedAndSent := by
  intro s running
  constructor
  · intro due
    have run : exec .reportTimerExpiry s = .next s.reloadReportTimer.reportDue := whenRunning_next running (if_pos due)
    have port (p : FeedPort) : s.reloadReportTimer.reportDue.feed p = (s.feed p).placeReport s.reloadReportTimer.formReport :=
      State.feed_reportDue _ p
    refine ⟨_, s.reloadReportTimer.formReport, run, rfl, by simp [State.formReport, State.engineRunning, State.reloadReportTimer],
      fun c => PerChannel.get_build _ c, fun p on idle => ?_, fun p x on sending => ?_, fun p off => ?_, exec_only run⟩
    · rw [port, FeedPortState.placeReport_begins on idle]
    · rw [port, FeedPortState.placeReport_waits on sending]
    · rw [port, FeedPortState.placeReport_disabled off]
  · intro p x sending
    have run : exec (.reportTransmitEnd p) s = .next (s.putFeed p { s.feed p with tx := (s.feed p).tx.ended }) := by
      show execReportTransmitEnd p s = _
      exact whenRunning_next running rfl
    refine ⟨_, run, ?_, ?_, exec_only run⟩
    · rw [State.feed_putFeed, if_pos rfl, FeedTx.ended_sending sending]
    · rw [State.feed_putFeed, if_neg (Side.other_ne p)]

/-! # A timer that runs out (R91, R93, R166) -/

/-! ## A feed port -/

theorem exec_feedWatchExpiry {s : State} {p : FeedPort} (running : s.power = .running) (due : s.sup.watch.get p = ⟨true, 0⟩) :
    exec (.feedWatchExpiry p) s = .next (s.feedSilent p) :=
  whenRunning_next running (if_pos (by rw [State.watchDue, due]; rfl))

/-- R91: the port is SILENT, with its flag. -/
def State.feedLost (s : State) (p : FeedPort) : State := (s.putWatch p ⟨false, 0⟩).raiseDevice (.feedSilent p)

theorem State.feedLost_watch (s : State) (p : FeedPort) : (s.feedLost p).sup.watch.get p = ⟨false, 0⟩ := State.watch_putWatch s p _

theorem State.feedLost_other (s : State) (p : FeedPort) : (s.feedLost p).sup.watch.get p.other = s.sup.watch.get p.other :=
  PerSide.get_put_ne _ _ _ _ (Side.other_ne p)

theorem State.feedLost_flag (s : State) (p : FeedPort) (k : DeviceFlag) :
    (s.feedLost p).deviceFlag k = if k = .feedSilent p then true else s.deviceFlag k :=
  State.deviceFlag_raiseDevice _ _ _

theorem State.feedLost_only (s : State) (p : FeedPort) : OnlyChanges (.watch :: deviceFlagParts) s (s.feedLost p) :=
  ((s.putWatch_acts p _).only.mono (by simp)).trans ((State.raiseDevice_acts _ _).only.mono (by simp))

/-- Link is UP after it exactly where the other port is LIVE. -/
theorem State.feedLost_linkUp (s : State) (p : FeedPort) : (s.feedLost p).linkUp = (s.sup.watch.get p.other).live := by
  rw [Bool.eq_iff_iff, State.linkUp_iff _ p, State.feedLost_watch, State.feedLost_other]
  simp

theorem State.feedSilent_linked {s : State} {p : FeedPort} (other : (s.sup.watch.get p.other).live = true) :
    s.feedSilent p = s.feedLost p := if_pos ((s.feedLost_linkUp p).trans other)

theorem State.feedSilent_down {s : State} {p : FeedPort} (other : (s.sup.watch.get p.other).live = false) :
    s.feedSilent p = (s.feedLost p).enterHoldover.clearReports.evaluateAll :=
  if_neg (Bool.eq_false_iff.mp ((s.feedLost_linkUp p).trans other))

theorem State.enterHoldover_stc (s : State) :
    s.enterHoldover.stc = if s.stc.state = .locked then { s.stc with state := .holdover } else s.stc := by
  unfold State.enterHoldover
  split <;> rfl

/-- What an item's clearing leaves of a channel (R93). -/
def SupChannel.withoutReports (k : SupChannel) : SupChannel := { k with latestAir := none, latestResume := none }

theorem State.clearReports_watched (s : State) (c : Channel) : s.clearReports.watched c = (s.watched c).withoutReports := by
  have others (d : Channel) (other : d ≠ c) (s : State) :
      SameFor c s (s.putWatched d (s.watched d).withoutReports) :=
    ((s.putWatched_acts d (s.watched d).withoutReports rfl).only.mono (by simp [turnPartsOf, healthParts])).sameFor (concerns_free other)
  obtain ⟨u, first, last⟩ := State.eachChannel_turn others s
  exact last.watched.trans ((State.watched_putWatched u c c _).trans ((if_pos rfl).trans (congrArg SupChannel.withoutReports first.watched)))

theorem not_mem_everyHealth {q : Part} (free : ∀ c, q ∉ healthParts c) : q ∉ everyChannel healthParts := not_mem_everyChannel free

/-- R93: where Link goes DOWN every channel is evaluated with no report. -/
theorem State.feedSilent_evaluated {s : State} {p : FeedPort} (other : (s.sup.watch.get p.other).live = false) (c : Channel) :
    ((s.feedSilent p).watched c).latestAir = none ∧ ((s.feedSilent p).watched c).latestResume = none
      ∧ evaluatedAt s (s.feedSilent p) c false none := by
  rw [State.feedSilent_down other]
  have reports := State.clearReports_watched (s.feedLost p).enterHoldover c
  have kept : (s.feedLost p).enterHoldover.watched c = s.watched c :=
    (s.feedLost_only p (.watched c) (by simp [deviceFlagParts])).trans ((s.feedLost p).enterHoldover_acts.only (.watched c) (by simp))
  rw [kept] at reports
  have cleared (q : Part) (hq : ∀ d, q ∉ healthParts d) := (s.feedLost p).enterHoldover.clearReports_acts.only q (not_mem_everyHealth hq)
  have settings : (s.feedLost p).enterHoldover.clearReports.live = s.live :=
    ((s.feedLost_only p .settings (by simp [deviceFlagParts])).trans ((s.feedLost p).enterHoldover_acts.only .settings (by simp))).trans
      (cleared .settings fun d => by simp [healthParts, authorityParts, cueParts, planParts, flagParts])
  have watch : (s.feedLost p).enterHoldover.clearReports.sup.watch = (s.feedLost p).sup.watch :=
    ((s.feedLost p).enterHoldover_acts.only .watch (by simp)).trans
      (cleared .watch fun d => by simp [healthParts, authorityParts, cueParts, planParts, flagParts])
  have down : (s.feedLost p).enterHoldover.clearReports.linkUp = false := by
    rw [← other, ← s.feedLost_linkUp p, State.linkUp, State.linkUp, watch]
  generalize (s.feedLost p).enterHoldover.clearReports = u at reports settings down
  obtain ⟨evaluated, air, resume⟩ := u.evaluateAll_evaluated c
  rw [down, reports] at evaluated
  rw [reports] at air resume
  refine ⟨air, resume, ?_⟩
  unfold evaluatedAt at evaluated ⊢
  rw [State.cfg_eq settings, reports] at evaluated
  exact evaluated

/-! ## A site port -/

theorem exec_siteSilenceExpiry {s : State} {p : SitePort} (running : s.power = .running) (live : (s.site p).live = true)
    (out : (s.site p).timer = 0) : exec (.siteSilenceExpiry p) s = .next (s.siteSilent p) :=
  whenRunning_next running (if_pos (by rw [State.silenceDue, live, out]; rfl))

theorem State.heldBy_iff {s : State} {p : SitePort} {c : Channel} : s.heldBy p c = true ↔ ∃ a, s.authority c = .held p a := by
  unfold State.heldBy
  cases s.authority c <;> simp

/-- R132: the turn of one channel where a port's holds lapse. -/
def State.lapseIf (p : SitePort) (s : State) (c : Channel) : State := if s.heldBy p c then s.lapse c else s

theorem State.lapseIf_only (p : SitePort) (s : State) (c : Channel) : OnlyChanges (authorityParts c) s (s.lapseIf p c) := by
  unfold State.lapseIf
  split
  · next held => exact (s.lapse_acts c (State.heldBy_off held)).only
  · exact OnlyChanges.refl _ s

theorem State.lapse_armed (s : State) (c : Channel) : ((s.lapse c).authority c).name = .armed := by
  have armed := (s.raise .holdLapsed c).armPlan_authority c c .lapse ((s.raise .holdLapsed c).armingPlayer c) 1
  rw [if_pos rfl] at armed
  show ((((s.raise .holdLapsed c).armPlan c .lapse _ 1).announce c).authority c).name = _
  rw [State.announce_authority, armed]
  rfl

theorem State.lapse_flag (s : State) (c : Channel) : (s.lapse c).channelFlag .holdLapsed c = true :=
  (State.arm_rise _ c .lapse).kept .holdLapsed c (by rw [State.channelFlag_raise, if_pos ⟨rfl, rfl⟩])

theorem State.lapseHolds_held {s : State} {p : SitePort} {c : Channel} {a : OnAir} (held : s.authority c = .held p a) :
    ((s.lapseHolds p).authority c).name = .armed ∧ (s.lapseHolds p).channelFlag .holdLapsed c = true := by
  have others (d : Channel) (other : d ≠ c) (s : State) : SameFor c s (s.lapseIf p d) :=
    ((s.lapseIf_only p d).mono (by simp [turnPartsOf, healthParts])).sameFor (concerns_free other)
  obtain ⟨u, first, last⟩ := State.eachChannel_turn others s
  have turn : u.lapseIf p c = u.lapse c := if_pos (State.heldBy_iff.mpr ⟨a, first.authority.trans held⟩)
  rw [turn] at last
  exact ⟨(congrArg Authority.name last.authority).trans (u.lapse_armed c), (last.flags _).trans (u.lapse_flag c)⟩

/-- What a channel's share of a pass of the channels reads and writes, and how the others' turns leave it. -/
def sameShare (c : Channel) (s t : State) : Prop := t.authority c = s.authority c ∧ t.sli.channel[c] = s.sli.channel[c]

theorem State.eachChannel_ind {P : State → Prop} {f : State → Channel → State} (turn : ∀ u d, P u → P (f u d)) {s : State} (h : P s) :
    P (s.eachChannel f) := by
  unfold State.eachChannel
  induction channels generalizing s with
  | nil => exact h
  | cons d ds ih => exact ih (turn s d h)

/-- A channel that the port does not hold is passed over, and the others' turns leave it alone. -/
theorem State.lapseHolds_other {s : State} {p : SitePort} {c : Channel} (free : ∀ a, s.authority c ≠ .held p a) :
    sameShare c s (s.lapseHolds p) := by
  refine State.eachChannel_ind (P := sameShare c s) (f := State.lapseIf p) (fun u d same => ?_) ⟨rfl, rfl⟩
  by_cases own : d = c
  · subst own
    rw [State.lapseIf, if_neg fun held => ?_]
    · exact same
    · obtain ⟨a, h⟩ := State.heldBy_iff.mp held
      exact free a (same.1.symm.trans h)
  · have only := u.lapseIf_only p d
    have out : ∀ q ∈ [Part.authority c, .channelFlags c], q ∉ authorityParts d := by
      simp [authorityParts, cueParts, planParts, flagParts, Ne.symm own]
    have authority : (u.lapseIf p d).authority c = u.authority c := only (.authority c) (out _ (by simp))
    have flags : (u.lapseIf p d).sli.channel[c] = u.sli.channel[c] := only (.channelFlags c) (out _ (by simp))
    exact ⟨authority.trans same.1, flags.trans same.2⟩

/-- R166: the port is SILENT, with its flag. -/
def State.siteLost (s : State) (p : SitePort) : State :=
  (s.putSite p { s.site p with live := false, timer := 0 }).raiseDevice (.siteSilent p)

theorem State.siteLost_port (s : State) (p : SitePort) :
    ((s.siteLost p).site p).withoutPairs = { (s.site p).withoutPairs with live := false, timer := 0 } := by
  have kept := State.site_withoutPairs
    (State.raiseDevice_acts (s.putSite p { s.site p with live := false, timer := 0 }) (.siteSilent p)).only (by simp [deviceFlagParts]) p
  rw [State.siteLost, kept, State.site_putSite, if_pos rfl]
  rfl

theorem State.siteSilent_eq (s : State) (p : SitePort) : s.siteSilent p = (s.siteLost p).lapseHolds p := rfl

theorem State.siteLost_flag (s : State) (p : SitePort) : (s.siteLost p).deviceFlag (.siteSilent p) = true := by
  rw [State.siteLost, State.deviceFlag_raiseDevice, if_pos rfl]

/-- Settles O38: a feed port's loss with its three consequences where Link goes DOWN, and a site port's with the lapse of its holds. -/
theorem expiredTimersSilenceAPort : Obligations.ExpiredTimersSilenceAPort := by
  intro s running
  refine ⟨fun p due other => ?linked, fun p due other => ?down, fun p live out => ?site⟩
  case linked =>
    refine ⟨_, exec_feedWatchExpiry running due, ?_⟩
    rw [State.feedSilent_linked other]
    refine ⟨s.feedLost_watch p, s.feedLost_other p, ?_, fun k apart => ?_, s.feedLost_only p⟩
    · rw [State.feedLost_flag, if_pos rfl]
    · rw [State.feedLost_flag, if_neg apart]
  case down =>
    have run := exec_feedWatchExpiry running due
    have evaluated : OnlyChanges (everyChannel healthParts) (s.feedLost p).enterHoldover (s.feedSilent p) := by
      rw [State.feedSilent_down other]
      exact (State.clearReports_acts _).only.trans (State.evaluateAll_acts _).only
    have kept (q : Part) (hq : ∀ d, q ∉ healthParts d) := evaluated q (not_mem_everyHealth hq)
    have watch : (s.feedSilent p).sup.watch = (s.feedLost p).sup.watch :=
      ((s.feedLost p).enterHoldover_acts.only .watch (by simp)).trans
        (kept .watch fun d => by simp [healthParts, authorityParts, cueParts, planParts, flagParts])
    have flags : (s.feedSilent p).sli.device = (s.feedLost p).sli.device :=
      ((s.feedLost p).enterHoldover_acts.only .deviceFlags (by simp)).trans
        (kept .deviceFlags fun d => by simp [healthParts, authorityParts, cueParts, planParts, flagParts])
    have clock : (s.feedSilent p).stc = (s.feedLost p).enterHoldover.stc :=
      kept .clock fun d => by simp [healthParts, authorityParts, cueParts, planParts, flagParts]
    refine ⟨_, run, ?_, ?_, clock.trans (State.enterHoldover_stc _), State.feedSilent_evaluated other, exec_only run⟩
    · rw [watch, State.feedLost_watch]
    · rw [State.deviceFlag, flags]
      exact (s.feedLost_flag p (.feedSilent p)).trans (if_pos rfl)
  case site =>
    have run := exec_siteSilenceExpiry running live out
    have lapses : OnlyChanges (everyChannel authorityParts) (s.siteLost p) (s.siteSilent p) := (State.lapseHolds_acts _ p).only
    refine ⟨_, run, ?_, ?_, fun c a held => ?_, fun c free => ?_, exec_only run⟩
    · rw [State.site_withoutPairs lapses (not_mem_everyChannel (by simp [authorityParts, cueParts, planParts, flagParts])),
        State.siteLost_port]
    · have kept := lapses .deviceFlags (not_mem_everyChannel (by simp [authorityParts, cueParts, planParts, flagParts]))
      rw [State.deviceFlag, kept]
      exact s.siteLost_flag p
    · exact State.lapseHolds_held (s := s.siteLost p) held
    · obtain ⟨authority, flags⟩ := State.lapseHolds_other (s := s.siteLost p) free
      have same : (s.siteLost p).sli.channel = s.sli.channel := rfl
      rw [same] at flags
      rw [State.siteSilent_eq]
      exact ⟨authority, flags⟩

end Sys2Proof.Machine

namespace Sys2Proof.Machine

/-! # The presence scanner (R95 to R102) -/

/-! ## Pulses -/

theorem FrameTiming.gates_iff {f : FrameTiming} {line : Nat} : f.gates line = true ↔ gateFirst f.lines ≤ line ∧ line ≤ f.lines := by
  simp [FrameTiming.gates]

theorem exec_presencePulse {s : State} (running : s.power = .running) (c : Channel) (line : Nat) :
    exec (.presencePulse c line) s
      = .next (if s.cdu.frame.gates line && s.windowHasRoom then s.putScan (s.sup.scan.pulse (s.masked c) c) else s) := by
  show execPresencePulse c line s = _
  exact whenRunning_next running rfl

theorem exec_presencePulse_counted {s : State} (running : s.power = .running) (c : Channel) {line : Nat}
    (gated : gateFirst s.cdu.frame.lines ≤ line ∧ line ≤ s.cdu.frame.lines) (room : s.windowHasRoom = true) :
    exec (.presencePulse c line) s = .next (s.putScan (s.sup.scan.pulse (s.masked c) c)) := by
  rw [exec_presencePulse running, FrameTiming.gates_iff.mpr gated, room]
  rfl

theorem exec_presencePulse_idle {s : State} (running : s.power = .running) {c : Channel} (line : Nat)
    (still : s.sup.scan.pulse (s.masked c) c = s.sup.scan) : exec (.presencePulse c line) s = .next s := by
  rw [exec_presencePulse running, still]
  split <;> rfl

theorem State.windowHasRoom_sequential {s : State} {c : Channel} {g n : Nat} (scan : s.sup.scan = .sequential c g n)
    (room : g < 2 ^ s.live.scanResolution) : s.windowHasRoom = true := by
  simp only [State.windowHasRoom, scan, room, decide_true]

theorem State.windowHasRoom_parallel {s : State} {g : Nat} {ns : PerChannel Nat} (scan : s.sup.scan = .parallel g ns)
    (room : g < 2 ^ s.live.scanResolution) : s.windowHasRoom = true := by
  simp only [State.windowHasRoom, scan, room, decide_true]

/-! ## The channels in ascending order -/

theorem channels_sorted : channels.Pairwise (· < ·) := by decide

/-- The first channel that meets a test is the lowest that does. -/
theorem find_channels {q : Channel → Bool} {c : Channel} (here : q c = true) (below : ∀ d, d < c → q d = false) :
    channels.find? q = some c := by
  cases found : channels.find? q with
  | none => exact absurd here (List.find?_eq_none.mp found c (mem_channels c))
  | some d =>
    obtain ⟨test, before, after, split, fail⟩ := List.find?_eq_some_iff_append.mp found
    rcases lt_trichotomy d c with lower | same | higher
    · rw [below d lower] at test
      cases test
    · rw [same]
    · have held := mem_channels c
      have sorted := channels_sorted
      rw [split] at held sorted
      rcases List.mem_append.mp held with early | late
      · have := fail c early
        rw [here] at this
        cases this
      · rcases List.mem_cons.mp late with rfl | late
        · exact absurd higher (lt_irrefl _)
        · have := (List.pairwise_cons.mp (List.pairwise_append.mp sorted).2.1).1 c late
          exact absurd (lt_trans this higher) (lt_irrefl _)

theorem State.maskedChannels_first {s : State} {c : Channel} (here : s.live.scanMask.getLsbD c.val = true)
    (below : ∀ d : Channel, d < c → s.live.scanMask.getLsbD d.val = false) : s.maskedChannels.head? = some c := by
  rw [State.maskedChannels, List.head?_filter]
  exact find_channels here below

theorem State.nextMasked_some {s : State} {c d : Channel} (later : c < d) (here : s.live.scanMask.getLsbD d.val = true)
    (between : ∀ e : Channel, c < e → e < d → s.live.scanMask.getLsbD e.val = false) : s.nextMasked c = some d := by
  rw [State.nextMasked, State.maskedChannels, List.find?_filter]
  refine find_channels (by simp [State.masked, here, later]) fun e lower => ?_
  by_cases above : c < e
  · rw [State.masked, between e above lower]
    simp
  · simp [above]

theorem State.nextMasked_none {s : State} {c : Channel} (last : ∀ d : Channel, c < d → s.live.scanMask.getLsbD d.val = false) :
    s.nextMasked c = none := by
  rw [State.nextMasked, State.maskedChannels, List.find?_filter, List.find?_eq_none]
  intro d _
  by_cases above : c < d
  · rw [State.masked, last d above]
    simp
  · simp [above]

theorem State.mem_maskedChannels {s : State} {c : Channel} : c ∈ s.maskedChannels ↔ s.live.scanMask.getLsbD c.val = true := by
  simp [State.maskedChannels, State.masked, mem_channels]

theorem State.maskedChannels_nodup (s : State) : s.maskedChannels.Nodup := channels_nodup.filter _

/-! ## Samples (R100, R101, R105) -/

/-- R100, R101: what SUP keeps of a channel with a sample formed and applied, before its evaluation. -/
def SupChannel.withSample (k : SupChannel) (x : Presence × Run) (n : Nat) : SupChannel :=
  { k with presence := x.1, run := x.2, lastCount := some n, heard := true }

theorem State.takeSample_eq {s : State} {c : Channel} {n : Nat} {x : Presence × Run}
    (formed : afterSample (s.cfg c).absenceCount (s.watched c).presence (s.watched c).run (decide ((s.cfg c).threshold ≤ n)) = x) :
    s.takeSample c n = if (s.watched c).heard = true ∧ x.1 = (s.watched c).presence then s.putWatched c ((s.watched c).withSample x n)
      else (s.putWatched c ((s.watched c).withSample x n)).evaluate c := by
  subst formed
  unfold State.takeSample
  simp only [Bool.and_eq_true, beq_iff_eq]
  rfl

theorem State.takeSample_sampled (s : State) (c : Channel) (n : Nat) : sampled s (s.takeSample c n) c n := by
  unfold sampled
  dsimp only
  generalize formed : afterSample (s.cfg c).absenceCount (s.watched c).presence (s.watched c).run (decide ((s.cfg c).threshold ≤ n)) = x
  rw [State.takeSample_eq formed]
  have kept : (s.putWatched c ((s.watched c).withSample x n)).watched c = (s.watched c).withSample x n := by
    rw [State.watched_putWatched, if_pos rfl]
  by_cases same : (s.watched c).heard = true ∧ x.1 = (s.watched c).presence
  · rw [if_pos same, kept, if_neg (by simp [same])]
    exact ⟨rfl, rfl, rfl, rfl, rfl⟩
  · have evaluated := State.setHealth_watched_eq (s.putWatched c ((s.watched c).withSample x n)) c
      ((s.putWatched c ((s.watched c).withSample x n)).evaluatedHealth c)
    rw [← State.evaluate_eq, kept] at evaluated
    rw [if_neg same, evaluated]
    refine ⟨rfl, rfl, rfl, rfl, ?_⟩
    dsimp only
    unfold State.evaluatedHealth
    rw [kept]
    have moved : (s.watched c).heard = false ∨ x.1 ≠ (s.watched c).presence := by
      rw [not_and_or, Bool.not_eq_true] at same
      exact same
    by_cases enabled : (s.cfg c).enabled = true
    · rw [if_pos ⟨rfl, enabled⟩, if_pos ⟨enabled, moved⟩, State.healthClass, kept]
      rfl
    · rw [if_neg fun h => enabled h.2, if_neg fun h => enabled h.1]
      rfl

/-- A sample depends on what SUP keeps of the channel, on its settings and on Link. -/
theorem sampled_of_same {s u v t : State} {c : Channel} {n : Nat} (h : sampled u v c n) (before : u.watched c = s.watched c)
    (settings : u.live = s.live) (link : u.linkUp = s.linkUp) (after : t.watched c = v.watched c) : sampled s t c n := by
  unfold sampled at h ⊢
  rw [after, ← before, ← State.cfg_eq settings, ← link]
  exact h

theorem State.takeSample_sameFor {c d : Channel} (other : d ≠ c) (s : State) (n : Nat) : SameFor c s (s.takeSample d n) :=
  ((s.takeSample_acts d n).only.mono (List.subset_cons_self _ _)).sameFor (concerns_free other)

/-- A channel's own turn comes once in a list without repeats. -/
theorem foldl_turn {c : Channel} {f : State → Channel → State} (others : ∀ d, d ≠ c → ∀ s, SameFor c s (f s d)) {xs : List Channel}
    (held : c ∈ xs) (once : xs.Nodup) (s : State) : ∃ u, SameFor c s u ∧ SameFor c (f u c) (xs.foldl f s) := by
  obtain ⟨before, after, rfl⟩ := List.append_of_mem held
  rw [List.nodup_middle, List.nodup_cons, List.mem_append, not_or] at once
  refine ⟨before.foldl f s, SameFor.foldl others once.1.1 s, ?_⟩
  rw [List.foldl_append, List.foldl_cons]
  exact SameFor.foldl others once.1.2 _

/-! ## The end of a window and of a sweep -/

theorem State.takeSample_scan (s : State) (c : Channel) (n : Nat) : (s.takeSample c n).sup.scan = s.sup.scan :=
  (s.takeSample_acts c n).only .scan (by simp [healthParts, authorityParts, cueParts, planParts, flagParts])

theorem State.takeSample_live (s : State) (c : Channel) (n : Nat) : (s.takeSample c n).live = s.live :=
  (s.takeSample_acts c n).only .settings (by simp [healthParts, authorityParts, cueParts, planParts, flagParts])

theorem State.sweepEnd_flag (s : State) : s.sweepEnd.deviceFlag .scanDone = true := by
  rw [State.sweepEnd, State.deviceFlag_raiseDevice, if_pos rfl]

theorem State.sweepEnd_scan (s : State) : s.sweepEnd.sup.scan = if s.live.scanRepeat then .starting false else .idle := rfl

theorem State.sweepEnd_watched (s : State) (c : Channel) : s.sweepEnd.watched c = s.watched c := rfl

/-- R99: every masked channel's sample, in ascending order. -/
def State.takeSamples (s : State) (ns : PerChannel Nat) : State := s.maskedChannels.foldl (fun s c => s.takeSample c ns[c]) s

theorem State.takeSamples_live (s : State) (ns : PerChannel Nat) : (s.takeSamples ns).live = s.live := by
  have each (xs : List Channel) (u : State) : (xs.foldl (fun s c => s.takeSample c ns[c]) u).live = u.live := by
    induction xs generalizing u with
    | nil => rfl
    | cons x xs ih => exact (ih _).trans (u.takeSample_live x _)
  exact each _ s

theorem State.takeSamples_masked {s : State} {c : Channel} (held : s.live.scanMask.getLsbD c.val = true) (ns : PerChannel Nat) :
    sampled s (s.takeSamples ns) c ns[c] := by
  obtain ⟨u, first, last⟩ := foldl_turn (c := c) (f := fun s c => s.takeSample c ns[c])
    (fun d other s => s.takeSample_sameFor other _) (State.mem_maskedChannels.mpr held) s.maskedChannels_nodup s
  exact sampled_of_same (u.takeSample_sampled c ns[c]) first.watched first.live first.link last.watched

theorem State.takeSamples_unmasked {s : State} {c : Channel} (out : s.live.scanMask.getLsbD c.val = false) (ns : PerChannel Nat) :
    (s.takeSamples ns).watched c = s.watched c :=
  (SameFor.foldl (f := fun s c => s.takeSample c ns[c]) (fun d other s => s.takeSample_sameFor other _)
    (fun held => by rw [State.mem_maskedChannels, out] at held; cases held) s).watched

theorem State.endWindow_next {s : State} {c d : Channel} {g n : Nat} (scan : s.sup.scan = .sequential c g n)
    (next : s.nextMasked c = some d) : s.endWindow = (s.putScan (.sequential d 0 0)).takeSample c n := by
  simp only [State.endWindow, scan, next]

theorem State.endWindow_last {s : State} {c : Channel} {g n : Nat} (scan : s.sup.scan = .sequential c g n)
    (next : s.nextMasked c = none) : s.endWindow = (s.takeSample c n).sweepEnd := by
  simp only [State.endWindow, scan, next]

theorem State.endWindow_parallel {s : State} {g : Nat} {ns : PerChannel Nat} (scan : s.sup.scan = .parallel g ns) :
    s.endWindow = (s.takeSamples ns).sweepEnd := by
  simp only [State.endWindow, scan]
  rfl

theorem exec_windowEnd {s : State} (running : s.power = .running) : exec .windowEnd s = .next s.endWindow := by
  show execWindowEnd s = _
  exact whenRunning_next running rfl

/-- The end of a sequential window, whatever comes after it: its sample alone moves what SUP keeps of the channels. -/
theorem State.endWindow_sequential {s : State} {c : Channel} {g n : Nat} (scan : s.sup.scan = .sequential c g n) :
    sampled s s.endWindow c n ∧ ∀ d, d ≠ c → s.endWindow.watched d = s.watched d := by
  cases next : s.nextMasked c with
  | some d =>
    rw [State.endWindow_next scan next]
    exact ⟨sampled_of_same (State.takeSample_sampled (s.putScan (.sequential d 0 0)) c n) rfl rfl rfl rfl,
      fun e other => (State.takeSample_sameFor (Ne.symm other) (s.putScan (.sequential d 0 0)) n).watched⟩
  | none =>
    rw [State.endWindow_last scan next]
    exact ⟨sampled_of_same (s.takeSample_sampled c n) rfl rfl rfl rfl,
      fun e other => (s.takeSample_sameFor (Ne.symm other) n).watched⟩

theorem exec_sweepStart {s : State} (running : s.power = .running) (due : s.sup.scan = .starting true) :
    exec .sweepStart s = .next (s.putScan s.firstWindow) := by
  show execSweepStart s = _
  refine whenRunning_next running ?_
  simp only [due]

/-- Settles O39: a pulse by the kind of window that is open, a window's end by what comes after it. -/
theorem scannerCountsAndSweeps : Obligations.ScannerCountsAndSweeps := by
  intro s running
  refine ⟨fun c line g n scan room first last => ?_, fun c line g ns scan room masked first last => ?_, fun c d line g n scan other => ?_,
    fun c line out => ?_, fun due mode => ?_, fun c due mode here below => ?_, fun c g n scan => ?_, fun g ns scan => ?_⟩
  · rw [exec_presencePulse_counted running c ⟨first, last⟩ (State.windowHasRoom_sequential scan room), scan]
    simp only [Scan.pulse, if_true]
    rfl
  · rw [exec_presencePulse_counted running c ⟨first, last⟩ (State.windowHasRoom_parallel scan room), scan]
    simp only [Scan.pulse, State.masked, masked, if_true]
    rfl
  · exact exec_presencePulse_idle running line (by rw [scan]; exact if_neg other)
  · rw [exec_presencePulse running, if_neg]
    rw [Bool.and_eq_true, FrameTiming.gates_iff]
    omega
  · rw [exec_sweepStart running due, State.firstWindow, mode]
    rfl
  · have lowest := State.maskedChannels_first here below
    rw [exec_sweepStart running due, State.firstWindow, mode]
    cases masked : s.maskedChannels with
    | nil => rw [masked] at lowest; cases lowest
    | cons d ds =>
      rw [masked] at lowest
      cases lowest
      rfl
  · obtain ⟨sample, others⟩ := State.endWindow_sequential scan
    refine ⟨_, exec_windowEnd running, sample, fun d later here between => ?_, fun last => ?_, others, exec_only (exec_windowEnd running)⟩
    · rw [State.endWindow_next scan (State.nextMasked_some later here between), State.takeSample_scan]
      rfl
    · rw [State.endWindow_last scan (State.nextMasked_none last)]
      exact ⟨State.sweepEnd_flag _, by rw [State.sweepEnd_scan, State.takeSample_live]⟩
  · refine ⟨_, exec_windowEnd running, ?_, ?_, fun c held => ?_, fun c out => ?_, exec_only (exec_windowEnd running)⟩
    all_goals rw [State.endWindow_parallel scan]
    · exact State.sweepEnd_flag _
    · rw [State.sweepEnd_scan, State.takeSamples_live]
    · exact sampled_of_same (State.takeSamples_masked held ns) rfl rfl rfl rfl
    · exact State.takeSamples_unmasked out ns

end Sys2Proof.Machine

namespace Sys2Proof.Machine

/-! # Placing crosspoints (R157) -/

/-- The Cadence Unit and the crosspoints are as they were: what `placed` and `sentOrPending` ask of a state. -/
structure SameRouting (s t : State) : Prop where
  cadence : t.cdu = s.cdu
  pending : t.xps.pending = s.xps.pending
  awaiting : t.xps.awaiting = s.xps.awaiting
  taken : t.xps.eventTaken = s.xps.eventTaken

theorem SameRouting.refl (s : State) : SameRouting s s := ⟨rfl, rfl, rfl, rfl⟩

theorem SameRouting.trans {s t u : State} (h : SameRouting s t) (k : SameRouting t u) : SameRouting s u :=
  ⟨k.cadence.trans h.cadence, k.pending.trans h.pending, k.awaiting.trans h.awaiting, k.taken.trans h.taken⟩

theorem OnlyChanges.routing {ps : List Part} {s t : State} (h : OnlyChanges ps s t) (cadence : Part.cadence ∉ ps)
    (crosspoints : Part.crosspoints ∉ ps) : SameRouting s t := by
  obtain ⟨pending, rest⟩ := Prod.mk.inj (h .crosspoints crosspoints)
  obtain ⟨awaiting, taken⟩ := Prod.mk.inj rest
  exact ⟨h .cadence cadence, pending, awaiting, taken⟩

theorem State.issuesAtOnce_iff {s : State} {due : LocalFrame} :
    s.issuesAtOnce due = true ↔ due = s.cdu.now ∧ s.windowOpen = true ∧ s.xps.eventTaken = true := by
  simp [State.issuesAtOnce, and_assoc, State.now]

theorem State.issuesAtOnce_not_iff {s : State} {due : LocalFrame} :
    s.issuesAtOnce due = false ↔ due ≠ s.cdu.now ∨ s.windowOpen = false ∨ s.xps.eventTaken = false := by
  rw [← Bool.not_eq_true, State.issuesAtOnce_iff, not_and_or, not_and_or, Bool.not_eq_true, Bool.not_eq_true]

theorem State.issuesAtOnce_same {s t : State} (cadence : t.cdu = s.cdu) (taken : t.xps.eventTaken = s.xps.eventTaken)
    (due : LocalFrame) : t.issuesAtOnce due = s.issuesAtOnce due := by
  unfold State.issuesAtOnce State.now State.windowOpen
  rw [cadence, taken]

theorem placed_iff {s t : State} {x : Crosspoint} : placed s t x ↔
    (s.issuesAtOnce x.due = true → t.xps.pending = othersThan x.destination x.due s.xps.pending
      ∧ t.xps.awaiting = s.xps.awaiting ++ [⟨x.destination, x.source, x.channel, 2⟩])
    ∧ (s.issuesAtOnce x.due = false → t.xps.pending = othersThan x.destination x.due s.xps.pending ++ [x]
      ∧ t.xps.awaiting = s.xps.awaiting) := by
  rw [State.issuesAtOnce_iff, State.issuesAtOnce_not_iff]
  exact Iff.rfl

theorem sentOrPending_iff {s t : State} {x : Crosspoint} : sentOrPending s t x ↔
    (s.issuesAtOnce x.due = true → ⟨x.destination, x.source, x.channel, 2⟩ ∈ t.xps.awaiting)
    ∧ (s.issuesAtOnce x.due = false → x ∈ t.xps.pending) := by
  rw [State.issuesAtOnce_iff, State.issuesAtOnce_not_iff]
  exact Iff.rfl

theorem State.placeXp_issued {s : State} {x : Crosspoint} (now : s.issuesAtOnce x.due = true) :
    s.placeXp x = (s.putPendingXp (othersThan x.destination x.due s.xps.pending)).sendXp x := if_pos now

theorem State.placeXp_pending {s : State} {x : Crosspoint} (later : s.issuesAtOnce x.due = false) :
    s.placeXp x = s.putPendingXp (othersThan x.destination x.due s.xps.pending ++ [x]) := if_neg (Bool.eq_false_iff.mp later)

theorem State.placeXp_placed (s : State) (x : Crosspoint) : placed s (s.placeXp x) x := by
  rw [placed_iff]
  refine ⟨fun now => ?_, fun later => ?_⟩
  · rw [State.placeXp_issued now]
    exact ⟨rfl, rfl⟩
  · rw [State.placeXp_pending later]
    exact ⟨rfl, rfl⟩

theorem State.placeXp_taken (s : State) (x : Crosspoint) : (s.placeXp x).xps.eventTaken = s.xps.eventTaken := by
  unfold State.placeXp
  split <;> rfl

theorem State.placeXp_cdu (s : State) (x : Crosspoint) : (s.placeXp x).cdu = s.cdu := (s.placeXp_acts x).only .cadence (by simp)

theorem sentOrPending_of_placed {s t : State} {x : Crosspoint} (h : placed s t x) : sentOrPending s t x := by
  rw [placed_iff] at h
  rw [sentOrPending_iff]
  refine ⟨fun now => ?_, fun later => ?_⟩
  · rw [(h.1 now).2]
    exact List.mem_append_right _ (List.mem_singleton_self _)
  · rw [(h.2 later).1]
    exact List.mem_append_right _ (List.mem_singleton_self _)

/-- A crosspoint is placed between two states where the routing is as in these. -/
theorem placed_of_same {s u v t : State} {x : Crosspoint} (h : placed u v x) (first : SameRouting s u) (pending : t.xps.pending = v.xps.pending)
    (awaiting : t.xps.awaiting = v.xps.awaiting) : placed s t x := by
  rw [placed_iff] at h ⊢
  rw [← State.issuesAtOnce_same first.cadence first.taken, pending, awaiting, ← first.pending, ← first.awaiting]
  exact h

/-- A crosspoint that is sent or pending stays so where nothing displaces it. -/
theorem sentOrPending_of_mem {s u v t : State} {x : Crosspoint} (h : sentOrPending u v x) (cadence : u.cdu = s.cdu)
    (taken : u.xps.eventTaken = s.xps.eventTaken) (pending : x ∈ v.xps.pending → x ∈ t.xps.pending)
    (awaiting : v.xps.awaiting ⊆ t.xps.awaiting) : sentOrPending s t x := by
  rw [sentOrPending_iff] at h ⊢
  rw [← State.issuesAtOnce_same cadence taken]
  exact ⟨fun now => awaiting (h.1 now), fun later => pending (h.2 later)⟩

theorem mem_othersThan {dest : Nat} {due : LocalFrame} {xs : List Crosspoint} {x : Crosspoint} :
    x ∈ othersThan dest due xs ↔ x ∈ xs ∧ ¬(x.destination = dest ∧ x.due = due) := by
  simp [othersThan, imp_iff_not_or]

/-- Placing a crosspoint keeps every pending one of another destination or due frame. -/
theorem State.mem_placeXp {s : State} {x y : Crosspoint} (held : y ∈ s.xps.pending)
    (other : ¬(y.destination = x.destination ∧ y.due = x.due)) : y ∈ (s.placeXp x).xps.pending := by
  have kept := mem_othersThan.mpr ⟨held, other⟩
  cases at_once : s.issuesAtOnce x.due with
  | true => rw [State.placeXp_issued at_once]; exact kept
  | false => rw [State.placeXp_pending at_once]; exact List.mem_append_left _ kept

theorem State.of_mem_placeXp {s : State} {x y : Crosspoint} (held : y ∈ (s.placeXp x).xps.pending) :
    y = x ∨ y ∈ s.xps.pending := by
  cases at_once : s.issuesAtOnce x.due with
  | true =>
    rw [State.placeXp_issued at_once] at held
    exact Or.inr (mem_othersThan.mp held).1
  | false =>
    rw [State.placeXp_pending at_once] at held
    exact (List.mem_append.mp held).elim (fun h => Or.inr (mem_othersThan.mp h).1) fun h => Or.inl (List.mem_singleton.mp h)

theorem State.placeXp_awaiting (s : State) (x : Crosspoint) : s.xps.awaiting ⊆ (s.placeXp x).xps.awaiting := by
  cases at_once : s.issuesAtOnce x.due with
  | true => rw [State.placeXp_issued at_once]; exact List.subset_append_left _ _
  | false => rw [State.placeXp_pending at_once]; exact fun _ h => h

theorem State.mem_withdrawXp {s : State} {c : Channel} {due : LocalFrame} {x : Crosspoint} :
    x ∈ (s.withdrawXp c due).xps.pending
      ↔ x ∈ s.xps.pending ∧ ¬(x.channel = c ∧ x.destination = (s.cfg c).destination ∧ x.due = due) := by
  show x ∈ List.filter _ _ ↔ _
  rw [List.mem_filter, Bool.not_eq_true', ← Bool.not_eq_true, Bool.and_eq_true, Bool.and_eq_true, beq_iff_eq, beq_iff_eq, beq_iff_eq]
  tauto

/-! # The cue queue (R141, R142) -/

theorem mem_insertEntry {x y : CueEntry} {q : List CueEntry} : y ∈ insertEntry x q ↔ y = x ∨ y ∈ q := by
  induction q with
  | nil => simp [insertEntry]
  | cons z zs ih =>
    rw [insertEntry]
    split
    · rw [List.mem_cons]
    · rw [List.mem_cons, ih, List.mem_cons]
      tauto

theorem length_insertEntry (x : CueEntry) (q : List CueEntry) : (insertEntry x q).length = q.length + 1 := by
  induction q with
  | nil => rfl
  | cons z zs ih =>
    rw [insertEntry]
    split
    · rfl
    · rw [List.length_cons, ih, List.length_cons]

theorem State.mem_enqueue {s : State} {x y : CueEntry} : y ∈ (s.enqueue x).cus.queue ↔ y = x ∨ y ∈ s.cus.queue := mem_insertEntry

theorem State.mem_queuePlay {s : State} {c : Channel} {p : Player} {i : List Byte} {m : Nat} {e : LocalFrame} {n : Nat} {d : EventId}
    {y : CueEntry} : y ∈ (s.queuePlay c p i m e n d).cus.queue
      ↔ y = s.entryFor c p (e - BitVec.ofNat 32 (s.cfg c).cueLead) e (.play i m n d) ∨ y ∈ s.cus.queue := State.mem_enqueue

theorem State.mem_queueCancel {s : State} {c : Channel} {p : Player} {y : CueEntry} :
    y ∈ (s.queueCancel c p).cus.queue ↔ y = s.entryFor c p s.now s.now .cancel ∨ y ∈ s.cus.queue := State.mem_enqueue

/-- A PLAY that is held stays held in every queue with no entry less. -/
theorem playHeld_of_sub {s u v t : State} {c : Channel} {x : SegContent} {e : LocalFrame} {i : EventId} {q : Player} {n : Nat}
    (h : playHeld u v c x e i q n) (settings : u.live = s.live) (queue : v.cus.queue ⊆ t.cus.queue) : playHeld s t c x e i q n := by
  intro clipId media content
  obtain ⟨y, held, channel, player, start, deadline, action⟩ := h clipId media content
  rw [State.cfg_eq settings] at deadline
  exact ⟨y, queue held, channel, player, start, deadline, action⟩

theorem State.queuePlay_held (s : State) {c : Channel} {x : SegContent} {i : List Byte} {m : Nat} (content : x = .clip i m)
    (p : Player) (e : LocalFrame) (n : Nat) (d : EventId) : playHeld s (s.queuePlay c p i m e n d) c x e d p n := by
  intro clipId media same
  cases content.symm.trans same
  exact ⟨_, State.mem_queuePlay.mpr (Or.inl rfl), rfl, rfl, rfl, rfl, rfl⟩

/-! # Handing on a join plan's first segment (R117) -/

theorem State.handOn_clip {s : State} {c : Channel} {plan : JoinPlan} {i : List Byte} {m : Nat} {q : Player}
    (content : plan.content = .clip i m) (player : plan.player = some q) (n : Nat) :
    s.handOn c plan n = s.queuePlay c q i m plan.start n plan.id := by
  rw [State.handOn, content, player]

theorem State.handOn_routed {s : State} {c : Channel} {plan : JoinPlan} {x : Nat} (route : firstRoute s c plan.content = some x)
    (n : Nat) : s.handOn c plan n = s.placeOnAir c plan.start x := by
  unfold State.handOn
  cases content : plan.content with
  | clip i m => rw [content] at route; cases route
  | live y => rw [content] at route; cases route; rfl
  | filler =>
    rw [content] at route
    have filler : (s.cfg c).filler = some x := route
    simp only [filler]

theorem State.handOn_unrouted {s : State} {c : Channel} {plan : JoinPlan} (route : firstRoute s c plan.content = none) (n : Nat) :
    SameRouting s (s.handOn c plan n) := by
  unfold State.handOn
  cases content : plan.content with
  | clip i m =>
    cases plan.player with
    | none => exact SameRouting.refl s
    | some q => exact (State.putQueue_acts s _).only.routing (by simp) (by simp)
  | live y => rw [content] at route; cases route
  | filler =>
    rw [content] at route
    have filler : (s.cfg c).filler = none := route
    simp only [filler]
    exact SameRouting.refl s

theorem State.handOn_handedOn {s : State} {c : Channel} {plan : JoinPlan} (player : plan.content.isClip = true → plan.player.isSome = true)
    (n : Nat) : handedOn s (s.handOn c plan n) c plan n := by
  refine ⟨fun clipId media content => ?_, fun x route => ?_⟩
  · have some : plan.player.isSome = true := player (by rw [content]; rfl)
    obtain ⟨q, hq⟩ := Option.isSome_iff_exists.mp some
    refine ⟨q, hq, ?_⟩
    rw [State.handOn_clip content hq]
    exact s.queuePlay_held content q _ n _
  · rw [State.handOn_routed route]
    exact sentOrPending_of_placed (s.placeXp_placed _)

theorem firstRoute_same {s t : State} (settings : t.live = s.live) (c : Channel) (x : SegContent) :
    firstRoute t c x = firstRoute s c x := by
  cases x <;> simp only [firstRoute, State.cfg_eq settings]

/-- What is handed on between two states is so between any where the plays are held and nothing displaces the crosspoint. -/
theorem handedOn_of_sub {s u v t : State} {c : Channel} {plan : JoinPlan} {n : Nat} (h : handedOn u v c plan n)
    (settings : u.live = s.live) (cadence : u.cdu = s.cdu) (taken : u.xps.eventTaken = s.xps.eventTaken)
    (queue : v.cus.queue ⊆ t.cus.queue) (awaiting : v.xps.awaiting ⊆ t.xps.awaiting)
    (pending : ∀ x ∈ v.xps.pending, x.channel = c → x.destination = (s.cfg c).destination → x ∈ t.xps.pending) :
    handedOn s t c plan n := by
  refine ⟨fun clipId media content => ?_, fun x route => ?_⟩
  · obtain ⟨q, player, held⟩ := h.1 clipId media content
    exact ⟨q, player, playHeld_of_sub held settings queue⟩
  · rw [← firstRoute_same settings] at route
    have sent := h.2 x route
    rw [State.cfg_eq settings] at sent
    exact sentOrPending_of_mem sent cadence taken (fun held => pending _ held rfl rfl) awaiting

/-! # Arming (R117) -/

/-- The join plan that a join becomes on a player (R117, R122). -/
def Join.planOn (j : Join) (p : Player) : JoinPlan := { j.plan with player := if j.plan.content.isClip then some p else none }

theorem Join.planOn_player {j : Join} {p : Player} (clip : (j.planOn p).content.isClip = true) : (j.planOn p).player = some p :=
  if_pos clip

theorem State.armPlan_eq (s : State) (c : Channel) (o : Origin) (p : Player) (n : Nat) :
    s.armPlan c o p n = State.handOn ((s.putAuthority c (.armed o ((s.join c).planOn p))).noteJoin c (s.join c)) c ((s.join c).planOn p) n := rfl

theorem State.noteJoin_routing (s : State) (c : Channel) (j : Join) : SameRouting s (s.noteJoin c j) :=
  ⟨(s.noteJoin_acts c j).only .cadence (by simp [cueParts, planParts, flagParts]),
    by unfold State.noteJoin State.noteExhausted State.raiseIf; split <;> rfl,
    by unfold State.noteJoin State.noteExhausted State.raiseIf; split <;> rfl,
    by unfold State.noteJoin State.noteExhausted State.raiseIf; split <;> rfl⟩

theorem State.noteJoin_queue (s : State) (c : Channel) (j : Join) : (s.noteJoin c j).cus.queue = s.cus.queue := by
  unfold State.noteJoin State.noteExhausted State.raiseIf
  split <;> rfl

theorem State.noteJoin_live (s : State) (c : Channel) (j : Join) : (s.noteJoin c j).live = s.live :=
  (s.noteJoin_acts c j).only .settings (by simp [cueParts, planParts, flagParts])

/-- What a join plan is handed on from: the record and the join noted. -/
def State.noted (s : State) (c : Channel) (o : Origin) (p : Player) : State :=
  (s.putAuthority c (.armed o ((s.join c).planOn p))).noteJoin c (s.join c)

theorem State.noted_routing (s : State) (c : Channel) (o : Origin) (p : Player) : SameRouting s (s.noted c o p) :=
  SameRouting.trans (t := s.putAuthority c (.armed o ((s.join c).planOn p))) ⟨rfl, rfl, rfl, rfl⟩ (State.noteJoin_routing _ c _)

theorem State.noted_live (s : State) (c : Channel) (o : Origin) (p : Player) : (s.noted c o p).live = s.live :=
  State.noteJoin_live (s.putAuthority c (.armed o ((s.join c).planOn p))) c _

theorem State.noted_queue (s : State) (c : Channel) (o : Origin) (p : Player) : (s.noted c o p).cus.queue = s.cus.queue :=
  State.noteJoin_queue (s.putAuthority c (.armed o ((s.join c).planOn p))) c _

theorem State.armPlan_handedOn (s : State) (c : Channel) (o : Origin) (p : Player) (n : Nat) :
    handedOn s (s.armPlan c o p n) c ((s.join c).planOn p) n := by
  have routing := s.noted_routing c o p
  exact handedOn_of_sub (State.handOn_handedOn (s := s.noted c o p) (fun clip => by rw [Join.planOn_player clip]; rfl) n)
    (s.noted_live c o p) routing.cadence routing.taken (fun _ h => h) (fun _ h => h) fun _ h _ _ => h

theorem State.armPlan_placed {s : State} {c : Channel} {o : Origin} {p : Player} {n x : Nat}
    (route : firstRoute s c ((s.join c).planOn p).content = some x) :
    placed s (s.armPlan c o p n) ⟨(s.cfg c).destination, ((s.join c).planOn p).start, x, c⟩ := by
  rw [← firstRoute_same (s.noted_live c o p)] at route
  rw [State.armPlan_eq]
  refine placed_of_same (u := s.noted c o p) (v := s.armPlan c o p n) ?_ (s.noted_routing c o p) rfl rfl
  rw [← State.cfg_eq (s.noted_live c o p)]
  have hand : s.armPlan c o p n = (s.noted c o p).placeOnAir c ((s.join c).planOn p).start x := State.handOn_routed route n
  rw [hand]
  exact State.placeXp_placed _ _

theorem State.armPlan_unrouted {s : State} {c : Channel} {o : Origin} {p : Player} {n : Nat}
    (route : firstRoute s c ((s.join c).planOn p).content = none) : SameRouting s (s.armPlan c o p n) := by
  rw [← firstRoute_same (s.noted_live c o p)] at route
  exact (s.noted_routing c o p).trans (State.handOn_unrouted route n)

/-! ## What follows a change of authority -/

theorem State.announce_routing (s : State) (c : Channel) : SameRouting s (s.announce c) := ⟨rfl, rfl, rfl, rfl⟩

theorem State.announce_cus (s : State) (c : Channel) : (s.announce c).cus = s.cus := rfl

theorem State.announce_cue (s : State) (c d : Channel) : (s.announce c).cue d = s.cue d := rfl

theorem State.announce_flag (s : State) (c : Channel) : (s.announce c).channelFlag .authorityChange c = true :=
  (State.channelFlag_raise (s.evalTally c) .authorityChange .authorityChange c c).trans (if_pos ⟨rfl, rfl⟩)

theorem FeedPortState.placeReport_sends {k : FeedPortState} (on : k.enabled = true) (r : Report) :
    (k.placeReport r).tx.sending.isSome = true := by
  cases sending : k.tx.sending with
  | none => rw [FeedPortState.placeReport_begins on sending]; rfl
  | some x => rw [FeedPortState.placeReport_waits on sending]; rfl

theorem State.announce_reports {s : State} (c : Channel) {p : FeedPort} (on : (s.feed p).enabled = true) :
    ((s.announce c).feed p).tx.sending.isSome = true := by
  have placed : (s.announce c).feed p = (s.feed p).placeReport ((s.evalTally c).raise .authorityChange c).formReport :=
    State.feed_reportDue _ p
  rw [placed]
  exact FeedPortState.placeReport_sends on _

/-- A port's enable setting is part of what is taken in. -/
theorem OnlyChanges.feedEnabled {ps : List Part} {s t : State} (h : OnlyChanges ps s t) (free : Part.intake ∉ ps) (p : FeedPort) :
    (t.feed p).enabled = (s.feed p).enabled := by
  obtain ⟨a, rest⟩ := Prod.mk.inj (h .intake free)
  obtain ⟨b, _⟩ := Prod.mk.inj rest
  cases p
  · exact (Prod.mk.inj a).2
  · exact (Prod.mk.inj b).2

theorem State.armingPlayer_free {s : State} {c : Channel} (free : (s.cue c).players.a ≠ .onAir) : s.armingPlayer c = .A :=
  if_pos (bne_iff_ne.mpr free)

theorem State.arm_authority (s : State) (c : Channel) (o : Origin) :
    (s.arm c o).authority c = .armed o ((s.join c).planOn (s.armingPlayer c)) := by
  rw [State.arm, State.announce_authority, State.armPlan_authority, if_pos rfl]
  rfl

theorem State.arm_only (s : State) (c : Channel) (o : Origin) : OnlyChanges (authorityParts c) s (s.arm c o) :=
  ((s.armPlan_only c o _ 1).mono (cue_sub_authority c)).trans (State.announce_only _ c)

theorem handedOn_announce {s v : State} {c : Channel} {plan : JoinPlan} {n : Nat} (h : handedOn s v c plan n) (d : Channel) :
    handedOn s (v.announce d) c plan n :=
  handedOn_of_sub h rfl rfl rfl (fun _ m => m) (fun _ m => m) fun _ m _ _ => m

/-- R117: arming records the join plan and hands on its first segment. -/
theorem State.arm_armedNow (s : State) (c : Channel) (o : Origin) : armedNow s (s.arm c o) c o := by
  have enabled := (s.armPlan_only c o (s.armingPlayer c) 1).feedEnabled (by simp [cueParts, planParts, flagParts])
  have hand := handedOn_announce (s.armPlan_handedOn c o (s.armingPlayer c) 1) c
  refine ⟨(s.join c).planOn (s.armingPlayer c), s.arm_authority c o, rfl, rfl, rfl, rfl, fun clip free => ?_, hand, fun x route => ?_,
    fun route => ?_, State.announce_flag _ c, fun p on => State.announce_reports c ((enabled p).trans on)⟩
  · rw [Join.planOn_player clip, State.armingPlayer_free free]
  · exact placed_of_same (State.armPlan_placed (o := o) (n := 1) route) (SameRouting.refl s) rfl rfl
  · have same := State.armPlan_unrouted (o := o) (n := 1) route
    exact ⟨same.pending, same.awaiting⟩

/-! ## Arming seen from a state that differs in nothing it reads -/

/-- R34, R35: what a join depends on. -/
theorem State.join_of_same {s t : State} {c : Channel} (settings : t.live = s.live) (cadence : t.cdu = s.cdu) (clock : t.stc = s.stc)
    (pages : t.pages c = s.pages c) (queue : t.cus.queue = s.cus.queue) (txn : t.cus.txn = s.cus.txn) : t.join c = s.join c := by
  have now : t.now = s.now := congrArg (fun k : Cdu => k.now) cadence
  have format : t.format = s.format := congrArg (fun k : Cdu => k.frame.format) cadence
  have frame : t.joinFrame c = s.joinFrame c := by
    simp only [State.joinFrame, State.sendEstimate, State.cueEntries, State.cfg_eq settings, now, settings, queue, txn]
  have station : t.joinStation c = s.joinStation c := by
    simp only [State.joinStation, frame, clock, format, now]
  simp only [State.join, frame, station, pages, format, State.cfg_eq settings]

/-- What the join of a channel reads (R34 to R41). -/
def joinParts (c : Channel) : List Part := [.settings, .cadence, .clock, .pages c, .cueQueue]

theorem OnlyChanges.join {ps : List Part} {s t : State} {c : Channel} (h : OnlyChanges ps s t) (free : ∀ q ∈ joinParts c, q ∉ ps) :
    t.join c = s.join c := by
  obtain ⟨queue, txn⟩ := Prod.mk.inj (h .cueQueue (free _ (by simp [joinParts])))
  exact State.join_of_same (h .settings (free _ (by simp [joinParts]))) (h .cadence (free _ (by simp [joinParts])))
    (h .clock (free _ (by simp [joinParts]))) (h (.pages c) (free _ (by simp [joinParts]))) queue txn

/-- What arming reads of a state, and what `armedNow` asks of the state after. -/
def armingReads (c : Channel) : List Part := .plan c :: .crosspoints :: .intake :: joinParts c

def armingShows (c : Channel) : List Part := [.authority c, .cueQueue, .cadence, .crosspoints, .channelFlags c, .reports]

theorem State.channelFlag_eq {s t : State} {c : Channel} (h : t.sli.channel[c] = s.sli.channel[c]) (k : ChannelFlag) :
    t.channelFlag k c = s.channelFlag k c := by
  unfold State.channelFlag
  rw [h]

theorem OnlyChanges.feedTx {ps : List Part} {s t : State} (h : OnlyChanges ps s t) (free : Part.reports ∉ ps) (p : FeedPort) :
    (t.feed p).tx = (s.feed p).tx := by
  obtain ⟨a, b⟩ := Prod.mk.inj (h .reports free)
  cases p
  · exact a
  · exact b

theorem armedNow_of_only {ps qs : List Part} {s u v t : State} {c : Channel} {o : Origin} (h : armedNow u v c o)
    (first : OnlyChanges ps s u) (reads : ∀ q ∈ armingReads c, q ∉ ps) (last : OnlyChanges qs v t) (shows : ∀ q ∈ armingShows c, q ∉ qs) :
    armedNow s t c o := by
  obtain ⟨plan, record, start, content, stop, id, player, hand, routed, unrouted, change, reports⟩ := h
  have joins := first.join (c := c) fun q hq => reads q (by simp [armingReads, hq])
  have settings : u.live = s.live := first .settings (reads _ (by simp [armingReads, joinParts]))
  have cue : u.cue c = s.cue c := first (.plan c) (reads _ (by simp [armingReads]))
  have before := first.routing (reads _ (by simp [armingReads, joinParts])) (reads _ (by simp [armingReads]))
  have after := last.routing (shows _ (by simp [armingShows])) (shows _ (by simp [armingShows]))
  have queue : t.cus.queue = v.cus.queue := (Prod.mk.inj (last .cueQueue (shows _ (by simp [armingShows])))).1
  have authority : t.authority c = v.authority c := last (.authority c) (shows _ (by simp [armingShows]))
  rw [joins] at start content stop id
  refine ⟨plan, authority.trans record, start, content, stop, id,
    fun clip free => player clip (by rw [cue]; exact free),
    handedOn_of_sub hand settings before.cadence before.taken (by rw [queue]; exact fun _ h => h)
      (by rw [after.awaiting]; exact fun _ h => h) (fun x h _ _ => by rw [after.pending]; exact h),
    fun x route => ?_, fun route => ?_, ?_, fun p on => ?_⟩
  · have here := routed x ((firstRoute_same settings c _).trans route)
    rw [State.cfg_eq settings] at here
    exact placed_of_same here before after.pending after.awaiting
  · obtain ⟨pending, awaiting⟩ := unrouted ((firstRoute_same settings c _).trans route)
    exact ⟨(after.pending.trans pending).trans before.pending, (after.awaiting.trans awaiting).trans before.awaiting⟩
  · rw [State.channelFlag_eq (last (.channelFlags c) (shows _ (by simp [armingShows])))]
    exact change
  · rw [last.feedTx (shows _ (by simp [armingShows]))]
    exact reports p ((first.feedEnabled (reads _ (by simp [armingReads])) p).trans on)

end Sys2Proof.Machine

namespace Sys2Proof.Machine

/-! # Health (R101, R105 to R109, R118) -/

/-! ## Samples and classes -/

theorem Presence.agrees_iff {p : Presence} {v : Bool} : p.agrees v = true ↔ p = presenceOf v := by
  cases p <;> cases v <;> decide

theorem afterSample_agrees {a : Nat} {p : Presence} {r : Run} {v : Bool} (agrees : p = presenceOf v) : afterSample a p r v = (p, none) :=
  if_pos (Presence.agrees_iff.mpr agrees)

theorem afterSample_differs {p : Presence} {v : Bool} (differs : p ≠ presenceOf v) (a : Nat) (r : Run) :
    afterSample a p r v = if a ≤ runAfter r v then (presenceOf v, none) else (p, some (v, runAfter r v)) :=
  if_neg fun h => differs (Presence.agrees_iff.mp h)

theorem runAfter_goes_on (v : Bool) (n : Nat) : runAfter (some (v, n)) v = n + 1 := if_pos rfl

theorem runAfter_begins {r : Run} {v : Bool} (other : r = none ∨ ∃ n, r = some (!v, n)) : runAfter r v = 1 := by
  rcases other with rfl | ⟨n, rfl⟩
  · rfl
  · exact if_neg (by simp)

theorem classOf_eq (link : Bool) (air : Option AirReport) (p : Presence) :
    classOf link air p =
      if link = true ∧ air = some .off then .off
      else if link = true ∧ air = some .ok then (if p = .absent then .suspect else .good)
      else if link = true ∧ air = some .fault then (if p = .present then .suspect else .failing)
      else if p = .absent then .failing else .isolated := by
  cases link with
  | false => cases p <;> simp [classOf]
  | true =>
    cases air with
    | none => cases p <;> simp [classOf]
    | some x => cases x <;> cases p <;> simp [classOf]

/-! ## What an evaluation changes -/

theorem HealthClass.health_failing (old : Health) :
    HealthClass.health .failing old = if old = .failing ∨ old = .failed then old else .failing := rfl

theorem State.setHealth_changes {s : State} {c : Channel} {h : Health} {n : Nat} (change : (s.watched c).health ≠ h)
    (confirm : confirmAfter (s.cfg c).confirm h = n) :
    (s.setHealth c h).watched c = { s.watched c with health := h, confirm := n }
      ∧ (s.setHealth c h).channelFlag .healthChange c = true ∧ OnlyChanges (healthParts c) s (s.setHealth c h) := by
  have written := s.setHealth_watched_eq c h
  rw [if_neg (Ne.symm change), confirm] at written
  exact ⟨written, State.setHealth_flag change, (s.setHealth_acts c h).only⟩

theorem State.evaluate_unjudged {s : State} {c : Channel} (out : (s.watched c).heard = false ∨ (s.cfg c).enabled = false) :
    s.evaluate c = s := by
  refine if_neg ?_
  rw [State.judged, Bool.and_eq_true, not_and_or, Bool.not_eq_true, Bool.not_eq_true]
  exact out

theorem State.evaluate_judged {s : State} {c : Channel} {k : HealthClass} (heard : (s.watched c).heard = true)
    (enabled : (s.cfg c).enabled = true) (found : classOf s.linkUp (s.watched c).latestAir (s.watched c).presence = k) :
    s.evaluate c = s.setHealth c (k.health (s.watched c).health) := by
  subst found
  exact if_pos (by rw [State.judged, heard, enabled]; rfl)

/-- An evaluation into a class that is not the failing one makes its health, and stops the confirm timer. -/
theorem State.evaluate_other {s : State} {c : Channel} {k : HealthClass} {h : Health} (heard : (s.watched c).heard = true)
    (enabled : (s.cfg c).enabled = true) (found : classOf s.linkUp (s.watched c).latestAir (s.watched c).presence = k)
    (makes : ∀ old, k.health old = h) (other : h ≠ .failing) :
    ((s.watched c).health = h → s.evaluate c = s)
    ∧ ((s.watched c).health ≠ h → (s.evaluate c).watched c = { s.watched c with health := h, confirm := 0 }
      ∧ (s.evaluate c).channelFlag .healthChange c = true ∧ OnlyChanges (healthParts c) s (s.evaluate c)) := by
  rw [State.evaluate_judged heard enabled found, makes]
  exact ⟨fun same => State.setHealth_same same, fun change => State.setHealth_changes change (if_neg other)⟩

/-! ## CONFIRM_EXPIRY (R108, R118) -/

/-- A channel's health is made, with its flag and ALM, as AUT then sees it (R107, R109, R161). -/
def State.withHealth (s : State) (c : Channel) (h : Health) : State := ((s.storeHealth c h).raiseHealth c h).evalAlarm

theorem State.setHealth_reacts {s : State} {c : Channel} {h : Health} (change : (s.watched c).health ≠ h) :
    s.setHealth c h = (s.withHealth c h).healthReaction c h := State.setHealth_change change

theorem State.withHealth_only (s : State) (c : Channel) (h : Health) : OnlyChanges (.watched c :: flagParts c) s (s.withHealth c h) := by
  refine OnlyChanges.trans (t := s.storeHealth c h) (fun q hq => ?_)
    (((State.raiseHealth_acts _ c h).only.mono (by simp)).trans ((State.evalAlarm_acts _).only.mono (by simp [flagParts])))
  cases q with
  | watched d => exact PerChannel.get_put_ne _ _ _ _ (by simpa [flagParts] using hq)
  | _ => rfl

theorem State.withHealth_watched (s : State) (c : Channel) (h : Health) :
    (s.withHealth c h).watched c = { s.watched c with health := h, confirm := confirmAfter (s.cfg c).confirm h } :=
  (s.watched_putWatched c c _).trans (if_pos rfl)

theorem State.withHealth_authority (s : State) (c d : Channel) (h : Health) : (s.withHealth c h).authority d = s.authority d := rfl

theorem State.withHealth_readiness (s : State) (c : Channel) (h : Health) : (s.withHealth c h).readiness c = s.readiness c := rfl

theorem State.withHealth_alarm (s : State) (c : Channel) (h : Health) : (s.withHealth c h).AlarmLaw :=
  State.evalAlarm_alarmLaw ((s.storeHealth c h).raiseHealth c h)

theorem State.withHealth_routing (s : State) (c : Channel) (h : Health) : SameRouting s (s.withHealth c h) :=
  (s.withHealth_only c h).routing (by simp [flagParts]) (by simp [flagParts])

/-- A channel that is FAILED holds ALM (R161). -/
theorem State.alarm_of_failed {s : State} {c : Channel} (law : s.AlarmLaw) (failed : (s.watched c).health = .failed) :
    s.xps.alarm = true := by
  rw [law, State.alarmValue, Bool.or_eq_true]
  refine Or.inl (List.any_eq_true.mpr ⟨c, mem_channels c, ?_⟩)
  rw [failed]
  rfl

theorem State.setHealth_alarm {s : State} {c : Channel} (change : (s.watched c).health ≠ .failed) :
    (s.setHealth c .failed).xps.alarm = true := by
  have law : (s.setHealth c .failed).AlarmLaw := by
    rw [State.setHealth_reacts change]
    exact (State.healthReaction_acts _ c _).lawful.alarm (s.withHealth_alarm c _)
  exact State.alarm_of_failed (c := c) law (by rw [State.setHealth_watched_eq])

/-- R118: what AUT does where a channel in MAIN becomes FAILED. -/
theorem State.setHealth_failed {s : State} {c : Channel} (change : (s.watched c).health ≠ .failed) (main : s.isMain c = true) :
    s.setHealth c .failed = if (s.cfg c).policy = .auto then (s.withHealth c .failed).armOrBlock c .auto else s.withHealth c .failed := by
  have record : (s.withHealth c .failed).authority c = .main := State.isMain_iff.mp main
  have settings : (s.withHealth c .failed).cfg c = s.cfg c := rfl
  rw [State.setHealth_reacts change, State.healthReaction, record]
  simp only [true_and, settings]

theorem State.arm_withHealth (s : State) (c : Channel) (h : Health) (o : Origin) : armedNow s ((s.withHealth c h).arm c o) c o :=
  armedNow_of_only (State.arm_armedNow (s.withHealth c h) c o) (s.withHealth_only c h) (by simp [armingReads, joinParts, flagParts])
    (OnlyChanges.refl [] _) (by simp)

theorem State.raise_set (s : State) (k : ChannelFlag) (c : Channel) : (s.raise k c).channelFlag k c = true :=
  (s.channelFlag_raise k k c c).trans (if_pos ⟨rfl, rfl⟩)

theorem State.armOrBlock_blocked {s : State} {c : Channel} (main : s.isMain c = true) (unready : s.readiness c ≠ .ready) (o : Origin) :
    (s.armOrBlock c o).authority c = .main ∧ (s.armOrBlock c o).channelFlag .takeoverBlocked c = true := by
  rw [State.armOrBlock, if_neg unready]
  exact ⟨State.isMain_iff.mp main, s.raise_set _ c⟩

theorem exec_confirmExpiry {s : State} {c : Channel} (running : s.power = .running) (failing : (s.watched c).health = .failing)
    (out : (s.watched c).confirm = 0) : exec (.confirmExpiry c) s = .next (s.setHealth c .failed) :=
  whenRunning_next running (if_pos (by rw [State.confirmDue, failing, out]; rfl))

/-- Settles O40: samples and classes case by case, an evaluation by its class, CONFIRM_EXPIRY by what AUT does at it. -/
theorem healthFollowsItsInputs : Obligations.HealthFollowsItsInputs := by
  refine ⟨fun a p r v => ⟨afterSample_agrees, fun differs => ⟨fun n run => ?_, fun begins => ?_⟩⟩, classOf_eq, fun s c => ?_,
    fun s c running failing out => ?_⟩
  · rw [afterSample_differs differs, run, runAfter_goes_on]
  · rw [afterSample_differs differs, runAfter_begins begins]
  · refine ⟨State.evaluate_unjudged, fun heard enabled => ⟨fun found => ⟨fun down => ?_, fun notFailing notFailed => ?_⟩, fun h found => ?_⟩⟩
    · rw [State.evaluate_judged heard enabled found, HealthClass.health_failing, if_pos down]
      exact State.setHealth_same rfl
    · rw [State.evaluate_judged heard enabled found, HealthClass.health_failing, if_neg (by simp [notFailing, notFailed])]
      exact State.setHealth_changes notFailing (if_pos rfl)
    · rcases found with ⟨rfl, found⟩ | ⟨rfl, found⟩ | ⟨rfl, found⟩ | ⟨rfl, found⟩
      all_goals exact State.evaluate_other heard enabled found (fun _ => rfl) (by decide)
  · have change : (s.watched c).health ≠ .failed := by rw [failing]; decide
    obtain ⟨written, flag, only⟩ := State.setHealth_changes (n := 0) change rfl
    refine ⟨_, exec_confirmExpiry running failing out, written, flag, State.setHealth_alarm change, fun main auto ready => ?_,
      fun main auto unready => ?_, fun main other => ?_, only⟩
    all_goals rw [State.setHealth_failed change main]
    · rw [if_pos auto, State.armOrBlock, s.withHealth_readiness, if_pos ready]
      exact s.arm_withHealth c .failed .auto
    · rw [if_pos auto]
      exact State.armOrBlock_blocked (s := s.withHealth c .failed) main unready .auto
    · rw [if_neg other]
      exact s.withHealth_only c .failed

end Sys2Proof.Machine

namespace Sys2Proof.Machine

/-! # A pass over every channel (R115, R116, R120, R121) -/

/-! ## What readiness reads -/

theorem State.readyAlone_eq {s t : State} {c : Channel} (settings : t.live = s.live) (clock : t.stc = s.stc)
    (pages : t.pages c = s.pages c) : t.readyAlone c = s.readyAlone c := by
  unfold State.readyAlone
  rw [State.cfg_eq settings, clock, pages]

theorem State.destinationTaken_iff {s : State} {c : Channel} :
    s.destinationTaken c = true ↔ ∃ d, d ≠ c ∧ (s.cfg d).destination = (s.cfg c).destination ∧ s.isMain d = false := by
  simp [State.destinationTaken, mem_channels, and_assoc]

theorem State.readiness_ready_iff {s : State} {c : Channel} :
    s.readiness c = .ready ↔ s.readyAlone c = true ∧ s.destinationTaken c = false := by
  unfold State.readiness
  cases s.readyAlone c <;> cases s.destinationTaken c <;> simp

theorem State.readiness_eq {s t : State} {c : Channel} (settings : t.live = s.live) (clock : t.stc = s.stc)
    (pages : t.pages c = s.pages c) (authority : ∀ d, t.authority d = s.authority d) : t.readiness c = s.readiness c := by
  have taken : t.destinationTaken c = s.destinationTaken c := by
    unfold State.destinationTaken
    simp only [State.isMain_eq (authority _), State.cfg_eq settings]
  unfold State.readiness
  rw [State.readyAlone_eq settings clock pages, taken]

/-! ## One turn of a pass -/

theorem State.passOver_armed {s : State} {c : Channel} (main : s.isMain c = true) (ready : s.readiness c = .ready) (o : Origin) :
    s.passOver o c = s.arm c o := by
  rw [State.passOver, if_pos main, State.armOrBlock, if_pos ready]

theorem State.passOver_blocked {s : State} {c : Channel} (main : s.isMain c = true) (unready : s.readiness c ≠ .ready) (o : Origin) :
    s.passOver o c = s.raise .takeoverBlocked c := by
  rw [State.passOver, if_pos main, State.armOrBlock, if_neg unready]

theorem State.passOver_off {s : State} {c : Channel} (off : s.isMain c = false) (o : Origin) : s.passOver o c = s :=
  if_neg (Bool.eq_false_iff.mp off)

theorem State.arm_isMain (s : State) (c : Channel) (o : Origin) : (s.arm c o).isMain c = false := by
  rw [State.isMain, State.arm_authority]
  rfl

/-- A turn takes a channel off MAIN exactly where it is in MAIN and ready. -/
theorem State.passOver_isMain {s : State} {c : Channel} (main : s.isMain c = true) (o : Origin) :
    (s.passOver o c).isMain c = true ↔ s.readiness c ≠ .ready := by
  by_cases ready : s.readiness c = .ready
  · rw [State.passOver_armed main ready, State.arm_isMain]
    simp [ready]
  · rw [State.passOver_blocked main ready]
    exact ⟨fun _ => ready, fun _ => main⟩

/-! ## What arming a channel leaves of the others' cues and crosspoints -/

/-- The queue and the crosspoints keep what they hold for the channels of every other destination. -/
structure GrowsOn (dest : Nat) (s t : State) : Prop where
  queue : s.cus.queue ⊆ t.cus.queue
  awaiting : s.xps.awaiting ⊆ t.xps.awaiting
  taken : t.xps.eventTaken = s.xps.eventTaken
  pending : ∀ x ∈ s.xps.pending, x.destination ≠ dest → x ∈ t.xps.pending

theorem GrowsOn.of_same {s t : State} (routing : SameRouting s t) (queue : s.cus.queue ⊆ t.cus.queue) (dest : Nat) : GrowsOn dest s t :=
  ⟨queue, by rw [routing.awaiting]; exact fun _ h => h, routing.taken, fun x h _ => by rw [routing.pending]; exact h⟩

theorem State.handOn_grows (s : State) (c : Channel) (plan : JoinPlan) (n : Nat) :
    GrowsOn (s.cfg c).destination s (s.handOn c plan n) := by
  cases route : firstRoute s c plan.content with
  | some x =>
    rw [State.handOn_routed route]
    refine ⟨fun y h => ?_, s.placeXp_awaiting _, s.placeXp_taken _, fun y h other => State.mem_placeXp h fun same => other same.1⟩
    have queue : (s.placeOnAir c plan.start x).cus.queue = s.cus.queue :=
      (Prod.mk.inj ((s.placeOnAir_acts c plan.start x).only .cueQueue (by simp))).1
    rw [queue]
    exact h
  | none =>
    refine GrowsOn.of_same (State.handOn_unrouted route n) ?_ _
    unfold State.handOn
    cases content : plan.content with
    | clip i m =>
      cases plan.player with
      | none => exact fun _ h => h
      | some q => exact fun _ h => State.mem_queuePlay.mpr (Or.inr h)
    | live y => rw [content] at route; cases route
    | filler =>
      rw [content] at route
      have filler : (s.cfg c).filler = none := route
      simp only [filler]
      exact fun _ h => h

theorem State.arm_grows (s : State) (c : Channel) (o : Origin) : GrowsOn (s.cfg c).destination s (s.arm c o) := by
  have hand := (s.noted c o (s.armingPlayer c)).handOn_grows c ((s.join c).planOn (s.armingPlayer c)) 1
  rw [State.cfg_eq (s.noted_live c o _)] at hand
  have routing := s.noted_routing c o (s.armingPlayer c)
  have queue := s.noted_queue c o (s.armingPlayer c)
  refine ⟨fun y h => hand.queue (by rw [queue]; exact h), fun y h => hand.awaiting (by rw [routing.awaiting]; exact h),
    hand.taken.trans routing.taken, fun x h other => hand.pending x (by rw [routing.pending]; exact h) other⟩

/-! ## A turn seen from another channel -/

/-- What the turns of the other channels leave as it is for a channel, and what of its cue and crosspoint they keep. -/
structure Aside (c : Channel) (s t : State) : Prop where
  settings : t.live = s.live
  cadence : t.cdu = s.cdu
  clock : t.stc = s.stc
  pages : ∀ d, t.pages d = s.pages d
  taken : t.xps.eventTaken = s.xps.eventTaken
  authority : t.authority c = s.authority c
  flags : t.sli.channel[c] = s.sli.channel[c]
  queue : s.cus.queue ⊆ t.cus.queue
  awaiting : s.xps.awaiting ⊆ t.xps.awaiting
  pending : s.isMain c = false → ∀ x ∈ s.xps.pending, x.destination = (s.cfg c).destination → x ∈ t.xps.pending

theorem Aside.refl (c : Channel) (s : State) : Aside c s s :=
  ⟨rfl, rfl, rfl, fun _ => rfl, rfl, rfl, rfl, fun _ h => h, fun _ h => h, fun _ _ h _ => h⟩

theorem Aside.trans {c : Channel} {s t u : State} (h : Aside c s t) (k : Aside c t u) : Aside c s u where
  settings := k.settings.trans h.settings
  cadence := k.cadence.trans h.cadence
  clock := k.clock.trans h.clock
  pages d := (k.pages d).trans (h.pages d)
  taken := k.taken.trans h.taken
  authority := k.authority.trans h.authority
  flags := k.flags.trans h.flags
  queue _ m := k.queue (h.queue m)
  awaiting _ m := k.awaiting (h.awaiting m)
  pending off x m dest := k.pending ((State.isMain_eq h.authority).trans off) x (h.pending off x m dest)
    (by rw [State.cfg_eq h.settings]; exact dest)

/-- The parts that a turn of another channel can change, where it grows the queue and the crosspoints only. -/
theorem Aside.of_only {c d : Channel} (other : d ≠ c) {s t : State} (only : OnlyChanges (authorityParts d) s t)
    (grows : GrowsOn (s.cfg d).destination s t) (apart : s.isMain c = false → (s.cfg d).destination ≠ (s.cfg c).destination) :
    Aside c s t where
  settings := only .settings (by simp [authorityParts, cueParts, planParts, flagParts])
  cadence := only .cadence (by simp [authorityParts, cueParts, planParts, flagParts])
  clock := only .clock (by simp [authorityParts, cueParts, planParts, flagParts])
  pages e := only (.pages e) (by simp [authorityParts, cueParts, planParts, flagParts])
  taken := grows.taken
  authority := only (.authority c) (by simp [authorityParts, cueParts, planParts, flagParts, Ne.symm other])
  flags := only (.channelFlags c) (by simp [authorityParts, cueParts, planParts, flagParts, Ne.symm other])
  queue := grows.queue
  awaiting := grows.awaiting
  pending off x held dest := grows.pending x held fun same => apart off (same.symm.trans dest)

theorem State.raise_grows (s : State) (k : ChannelFlag) (c : Channel) (dest : Nat) : GrowsOn dest s (s.raise k c) :=
  GrowsOn.of_same ((s.raise_acts k c).only.routing (by simp [flagParts]) (by simp [flagParts])) (fun _ h => h) dest

theorem State.passOver_aside {c d : Channel} (other : d ≠ c) (s : State) (o : Origin) : Aside c s (s.passOver o d) := by
  cases main : s.isMain d with
  | false => rw [State.passOver_off main]; exact Aside.refl c s
  | true =>
    by_cases ready : s.readiness d = .ready
    · rw [State.passOver_armed main ready]
      refine Aside.of_only other (s.arm_only d o) (s.arm_grows d o) fun off same => ?_
      have taken := State.destinationTaken_iff.mpr ⟨c, Ne.symm other, same.symm, off⟩
      rw [(State.readiness_ready_iff.mp ready).2] at taken
      cases taken
    · rw [State.passOver_blocked main ready]
      refine ⟨rfl, rfl, rfl, fun _ => rfl, rfl, rfl, ?_, fun _ h => h, fun _ h => h, fun _ _ h _ => h⟩
      exact (s.raise_acts .takeoverBlocked d).only (.channelFlags c) (by simp [flagParts, Ne.symm other])

/-- The turns of a list of channels. -/
def State.passThrough (s : State) (o : Origin) (cs : List Channel) : State := cs.foldl (fun s c => s.passOver o c) s

theorem State.passThrough_cons (s : State) (o : Origin) (c : Channel) (cs : List Channel) :
    s.passThrough o (c :: cs) = (s.passOver o c).passThrough o cs := rfl

theorem State.passThrough_append (s : State) (o : Origin) (xs ys : List Channel) :
    s.passThrough o (xs ++ ys) = (s.passThrough o xs).passThrough o ys := List.foldl_append

theorem State.passThrough_aside {c : Channel} {cs : List Channel} (out : c ∉ cs) (s : State) (o : Origin) :
    Aside c s (s.passThrough o cs) := by
  induction cs generalizing s with
  | nil => exact Aside.refl c s
  | cons d ds ih =>
    rw [List.mem_cons, not_or] at out
    exact (s.passOver_aside (Ne.symm out.1) o).trans (ih out.2 _)

theorem State.passThrough_only (s : State) (o : Origin) (cs : List Channel) :
    OnlyChanges (everyChannel authorityParts) s (s.passThrough o cs) :=
  (Acts.foldl (ps := everyChannel authorityParts) (fun s c => s.passOver o c) (fun s c => (s.passOver_acts o c).onEvery) cs s).only

/-! ## The turn of a channel within the pass -/

/-- The channels split at one of them: those below it and those above. -/
theorem channels_split (c : Channel) : ∃ below above, channels = below ++ c :: above ∧ c ∉ below ∧ c ∉ above
    ∧ (∀ d, d < c ↔ d ∈ below) ∧ (∀ d, c < d ↔ d ∈ above) := by
  obtain ⟨below, above, split⟩ := List.append_of_mem (mem_channels c)
  have sorted := channels_sorted
  rw [split, List.pairwise_append, List.pairwise_cons] at sorted
  obtain ⟨_, ⟨later, _⟩, earlier⟩ := sorted
  have lower (d : Channel) (h : d ∈ below) : d < c := earlier d h c (List.mem_cons_self ..)
  have place (d : Channel) : d ∈ below ∨ d = c ∨ d ∈ above := by
    have held := mem_channels d
    rw [split, List.mem_append, List.mem_cons] at held
    exact held
  refine ⟨below, above, split, fun h => lt_irrefl _ (lower c h), fun h => lt_irrefl _ (later c h), fun d => ⟨fun h => ?_, lower d⟩,
    fun d => ⟨fun h => ?_, later d⟩⟩
  · rcases place d with here | rfl | there
    · exact here
    · exact absurd h (lt_irrefl _)
    · exact absurd (lt_trans h (later d there)) (lt_irrefl _)
  · rcases place d with here | rfl | there
    · exact absurd (lt_trans h (lower d here)) (lt_irrefl _)
    · exact absurd h (lt_irrefl _)
    · exact there

/-- R120, R121: the state in which a channel's turn comes, and what the turns before and after it leave. -/
structure Turn (s : State) (o : Origin) (c : Channel) (u t : State) : Prop where
  before : Aside c s u
  after : Aside c (u.passOver o c) t
  lower : ∀ d, d < c → t.authority d = u.authority d
  higher : ∀ d, c < d → u.authority d = s.authority d

theorem State.passThrough_turn (s : State) (o : Origin) (c : Channel) : ∃ u, Turn s o c u (s.passThrough o channels) := by
  obtain ⟨below, above, split, notBelow, notAbove, isBelow, isAbove⟩ := channels_split c
  refine ⟨s.passThrough o below, ?_⟩
  rw [split, State.passThrough_append, State.passThrough_cons]
  refine ⟨State.passThrough_aside notBelow s o, State.passThrough_aside notAbove _ o, fun d low => ?_, fun d high => ?_⟩
  · have out : d ∉ above := fun h => lt_asymm low ((isAbove d).mpr h)
    exact (State.passThrough_aside out _ o).authority.trans (State.passOver_aside (ne_of_gt low) _ o).authority
  · exact (State.passThrough_aside (fun h => lt_asymm high ((isBelow d).mpr h)) s o).authority

section
variable {s u t : State} {o : Origin} {c : Channel} (turn : Turn s o c u t)
include turn

theorem Turn.isMain : u.isMain c = s.isMain c := State.isMain_eq turn.before.authority

theorem Turn.stays (unready : u.readiness c ≠ .ready) (main : s.isMain c = true) :
    t.authority c = .main ∧ t.channelFlag .takeoverBlocked c = true := by
  have here := turn.isMain.trans main
  have after := turn.after
  rw [State.passOver_blocked here unready] at after
  refine ⟨after.authority.trans (State.isMain_iff.mp here), ?_⟩
  rw [State.channelFlag_eq after.flags]
  exact u.raise_set _ c

theorem Turn.arms (ready : u.readiness c = .ready) (main : s.isMain c = true) :
    ∃ plan, t.authority c = .armed o plan ∧ handedOn s t c plan 1 := by
  have after := turn.after
  rw [State.passOver_armed (turn.isMain.trans main) ready] at after
  obtain ⟨plan, record, _, _, _, _, _, hand, _⟩ := u.arm_armedNow c o
  have settings : (u.arm c o).live = s.live :=
    Eq.trans ((u.arm_only c o) .settings (by simp [authorityParts, cueParts, planParts, flagParts])) turn.before.settings
  refine ⟨plan, after.authority.trans record, handedOn_of_sub hand turn.before.settings turn.before.cadence turn.before.taken
    after.queue after.awaiting fun x held _ dest => after.pending (u.arm_isMain c o) x held ?_⟩
  rw [State.cfg_eq settings]
  exact dest

theorem Turn.readyAlone : u.readyAlone c = s.readyAlone c :=
  State.readyAlone_eq turn.before.settings turn.before.clock (turn.before.pages c)

/-- A channel that is off MAIN at the end of the pass and below this one, or off MAIN before it, has its destination at this turn. -/
theorem Turn.taken_iff (offStays : ∀ d, s.isMain d = false → u.isMain d = false) : u.destinationTaken c = true ↔
    s.destinationTaken c = true
      ∨ ∃ d, d < c ∧ s.isMain d = true ∧ t.isMain d = false ∧ (s.cfg d).destination = (s.cfg c).destination := by
  have settings := State.cfg_eq turn.before.settings
  rw [State.destinationTaken_iff, State.destinationTaken_iff]
  simp only [settings]
  constructor
  · rintro ⟨d, other, dest, off⟩
    cases before : s.isMain d with
    | false => exact Or.inl ⟨d, other, dest, before⟩
    | true =>
      rcases lt_or_gt_of_ne other with low | high
      · exact Or.inr ⟨d, low, before, (State.isMain_eq (turn.lower d low)).trans off, dest⟩
      · rw [State.isMain_eq (turn.higher d high), before] at off
        cases off
  · rintro (⟨d, other, dest, off⟩ | ⟨d, low, _, off, dest⟩)
    · exact ⟨d, other, dest, offStays d off⟩
    · exact ⟨d, ne_of_lt low, dest, (State.isMain_eq (turn.lower d low)).symm.trans off⟩

end

theorem State.passOver_offStays {s : State} {d : Channel} (off : s.isMain d = false) (o : Origin) (c : Channel) :
    (s.passOver o c).isMain d = false := by
  by_cases same : c = d
  · rw [same, State.passOver_off off]
    exact off
  · exact (State.isMain_eq (s.passOver_aside same o).authority).trans off

theorem State.passThrough_offStays {s : State} {d : Channel} (off : s.isMain d = false) (o : Origin) (cs : List Channel) :
    (s.passThrough o cs).isMain d = false := by
  induction cs generalizing s with
  | nil => exact off
  | cons c cs ih => exact ih (State.passOver_offStays off o c)

/-- A channel off MAIN is passed over, and no turn touches it. -/
theorem State.passThrough_passes {s : State} {c : Channel} (off : s.isMain c = false) (o : Origin) (cs : List Channel) :
    (s.passThrough o cs).authority c = s.authority c ∧ (s.passThrough o cs).sli.channel[c] = s.sli.channel[c] := by
  induction cs generalizing s with
  | nil => exact ⟨rfl, rfl⟩
  | cons d ds ih =>
    obtain ⟨authority, flags⟩ := ih (State.passOver_offStays off o d)
    by_cases same : d = c
    · subst same
      rw [State.passThrough_cons, State.passOver_off off] at *
      exact ⟨authority, flags⟩
    · have aside := s.passOver_aside same o
      exact ⟨authority.trans aside.authority, flags.trans aside.flags⟩

theorem State.passThrough_turnOff (s : State) (o : Origin) (c : Channel) :
    ∃ u, Turn s o c u (s.passThrough o channels) ∧ ∀ d, s.isMain d = false → u.isMain d = false := by
  obtain ⟨u, turn⟩ := s.passThrough_turn o c
  refine ⟨u, turn, fun d off => ?_⟩
  rcases lt_trichotomy d c with low | same | high
  · exact (State.isMain_eq (turn.lower d low)).symm.trans (State.passThrough_offStays off o channels)
  · rw [same] at off ⊢
    exact turn.isMain.trans off
  · exact (State.isMain_eq (turn.higher d high)).trans off

/-- R120, R121: a pass over every channel comes to what the statement of the pass says. -/
theorem State.passThrough_passedOver (s : State) (o : Origin) : passedOver s (s.passThrough o channels) o := by
  refine ⟨fun c off => State.passThrough_passes off o channels, fun c main => ?_⟩
  obtain ⟨u, turn, offStays⟩ := s.passThrough_turnOff o c
  have taken := turn.taken_iff offStays
  refine ⟨?_, fun ready free => ?_, fun unready => ?_, fun d low before off dest => ?_⟩
  · by_cases ready : u.readiness c = .ready
    · exact Or.inl (turn.arms ready main)
    · exact Or.inr (turn.stays ready main)
  · obtain ⟨alone, notTaken⟩ := State.readiness_ready_iff.mp ready
    have still : u.destinationTaken c = false := by
      rw [← Bool.not_eq_true, taken, notTaken]
      rintro (h | ⟨d, low, before, off, dest⟩)
      · cases h
      · exact free d low before off dest
    obtain ⟨plan, record, _⟩ := turn.arms (State.readiness_ready_iff.mpr ⟨turn.readyAlone.trans alone, still⟩) main
    exact ⟨plan, record⟩
  · refine (turn.stays (fun ready => unready ?_) main).1
    obtain ⟨alone, notTaken⟩ := State.readiness_ready_iff.mp ready
    refine State.readiness_ready_iff.mpr ⟨turn.readyAlone.symm.trans alone, ?_⟩
    rw [← Bool.not_eq_true] at notTaken ⊢
    exact fun h => notTaken (taken.mpr (Or.inl h))
  · refine (turn.stays (fun ready => ?_) main).1
    have notTaken := (State.readiness_ready_iff.mp ready).2
    rw [taken.mpr (Or.inr ⟨d, low, before, off, dest⟩)] at notTaken
    cases notTaken

/-! ## TAKE ALL (R120) -/

theorem takeNext_eq (p : SitePort) (x : State × List Channel) (c : Channel) :
    takeNext p x c = (x.1.passOver (.site p) c, if x.1.isMain c = true ∧ (x.1.passOver (.site p) c).isMain c = false then x.2 ++ [c] else x.2) := by
  unfold takeNext
  cases main : x.1.isMain c with
  | false => simp
  | true =>
    by_cases ready : x.1.readiness c = .ready
    · rw [State.passOver_armed main ready, State.arm_isMain]
      simp [ready]
    · have still := (State.passOver_isMain main (.site p)).mpr ready
      rw [still]
      simp [ready]

/-- The pass with the channels that it armed. -/
theorem foldl_takeNext {cs : List Channel} (once : cs.Nodup) (p : SitePort) (x : State × List Channel) :
    cs.foldl (takeNext p) x = (x.1.passThrough (.site p) cs,
      x.2 ++ cs.filter fun c => x.1.isMain c && !(x.1.passThrough (.site p) cs).isMain c) := by
  induction cs generalizing x with
  | nil => simp [State.passThrough]
  | cons c cs ih =>
    obtain ⟨out, once⟩ := List.nodup_cons.mp once
    have here : ((x.1.passOver (.site p) c).passThrough (.site p) cs).isMain c = (x.1.passOver (.site p) c).isMain c :=
      State.isMain_eq (State.passThrough_aside out _ _).authority
    have others (d : Channel) (held : d ∈ cs) : (x.1.passOver (.site p) c).isMain d = x.1.isMain d :=
      State.isMain_eq (x.1.passOver_aside (fun same : c = d => out (same ▸ held)) (.site p)).authority
    rw [List.foldl_cons, ih once, takeNext_eq, State.passThrough_cons, List.filter_cons, here]
    have rest : (cs.filter fun d => (x.1.passOver (.site p) c).isMain d && !((x.1.passOver (.site p) c).passThrough (.site p) cs).isMain d)
        = cs.filter fun d => x.1.isMain d && !((x.1.passOver (.site p) c).passThrough (.site p) cs).isMain d :=
      List.filter_congr fun d held => by rw [others d held]
    rw [rest]
    by_cases armed : x.1.isMain c = true ∧ (x.1.passOver (.site p) c).isMain c = false
    · simp [armed]
    · rw [if_neg armed, if_neg]
      rw [Bool.and_eq_true, Bool.not_eq_true']
      exact armed

/-- The channels that a pass arms, in ascending order. -/
def State.armedBy (s : State) (p : SitePort) : List Channel :=
  channels.filter fun c => s.isMain c && !(s.passThrough (.site p) channels).isMain c

theorem State.mem_armedBy {s : State} {p : SitePort} {c : Channel} :
    c ∈ s.armedBy p ↔ s.isMain c = true ∧ (s.passThrough (.site p) channels).isMain c = false := by
  simp [State.armedBy, mem_channels]

theorem State.takeEvery_eq (s : State) (p : SitePort) :
    s.takeEvery p = if s.armedBy p = [] then ⟨s.passThrough (.site p) channels, .notReady, []⟩
      else (s.passThrough (.site p) channels).done (nat16 (channelMask (s.armedBy p))) := by
  unfold State.takeEvery
  rw [foldl_takeNext channels_nodup]
  simp only [List.nil_append, List.isEmpty_iff]
  rfl

/-- A pass that finds a ready channel in MAIN arms one. -/
theorem State.armedBy_ne_nil {s : State} {c : Channel} (main : s.isMain c = true) (ready : s.readiness c = .ready) (p : SitePort) :
    s.armedBy p ≠ [] := by
  intro none
  have nobody (d : Channel) : ¬(s.isMain d = true ∧ (s.passThrough (.site p) channels).isMain d = false) := by
    rw [← State.mem_armedBy, none]
    exact List.not_mem_nil
  obtain ⟨_, arms, _⟩ := (s.passThrough_passedOver (.site p)).2 c main
  obtain ⟨plan, record⟩ := arms ready fun d _ before off => absurd ⟨before, off⟩ (nobody d)
  exact nobody c ⟨main, State.offMain (by rw [record]; exact AuthorityName.noConfusion)⟩

/-- A pass that finds no ready channel in MAIN sets flags only. -/
theorem State.passThrough_idle {s : State} (none : ∀ c, s.isMain c = true → s.readiness c ≠ .ready) (o : Origin) (cs : List Channel) :
    OnlyChanges (everyChannel flagParts) s (s.passThrough o cs) := by
  induction cs generalizing s with
  | nil => exact OnlyChanges.refl _ s
  | cons c cs ih =>
    rw [State.passThrough_cons]
    cases main : s.isMain c with
    | false => rw [State.passOver_off main]; exact ih none
    | true =>
      rw [State.passOver_blocked main (none c main)]
      exact ((s.raise_acts _ c).only.mono (mem_everyChannel c)).trans
        (ih fun d h ready => none d h ((State.readiness_eq (s := s) rfl rfl rfl fun _ => rfl).symm.trans ready))

theorem State.armedBy_nil {s : State} (none : ∀ c, s.isMain c = true → s.readiness c ≠ .ready) (p : SitePort) : s.armedBy p = [] := by
  refine List.filter_eq_nil_iff.mpr fun c _ => ?_
  have same := State.isMain_eq ((State.passThrough_idle none (.site p) channels) (.authority c) (not_mem_everyChannel fun d => by simp [flagParts]))
  rw [same]
  cases s.isMain c <;> simp


/-! ## A pass seen from the states about it -/

/-- What a pass reads. -/
def passReads : List Part := [.settings, .cadence, .clock, .crosspoints] ++ everyChannel fun c => [.authority c, .channelFlags c, .pages c]

theorem channel_passReads (c : Channel) : ∀ q ∈ [Part.authority c, Part.channelFlags c, Part.pages c], q ∈ passReads := fun _ hq =>
  List.mem_append_right _ (mem_everyChannel (f := fun c => [.authority c, .channelFlags c, .pages c]) c hq)

/-- What is said of the state after a pass. -/
def passShows : List Part := [.cueQueue, .cadence, .crosspoints] ++ everyChannel fun c => [.authority c, .channelFlags c]

theorem channel_passShows (c : Channel) : ∀ q ∈ [Part.authority c, Part.channelFlags c], q ∈ passShows := fun _ hq =>
  List.mem_append_right _ (mem_everyChannel (f := fun c => [.authority c, .channelFlags c]) c hq)

theorem passedOver_of_only {ps qs : List Part} {s u v t : State} {o : Origin} (h : passedOver u v o) (first : OnlyChanges ps s u)
    (reads : ∀ q ∈ passReads, q ∉ ps) (last : OnlyChanges qs v t) (shows : ∀ q ∈ passShows, q ∉ qs) : passedOver s t o := by
  have settings : u.live = s.live := first .settings (reads _ (by simp [passReads]))
  have cfg := State.cfg_eq settings
  have clock : u.stc = s.stc := first .clock (reads _ (by simp [passReads]))
  have pages (c : Channel) : u.pages c = s.pages c := first (.pages c) (reads _ (channel_passReads c _ (by simp)))
  have record (c : Channel) : u.authority c = s.authority c := first (.authority c) (reads _ (channel_passReads c _ (by simp)))
  have flags (c : Channel) : u.sli.channel[c] = s.sli.channel[c] := first (.channelFlags c) (reads _ (channel_passReads c _ (by simp)))
  have before := first.routing (reads _ (by simp [passReads])) (reads _ (by simp [passReads]))
  have after := last.routing (shows _ (by simp [passShows])) (shows _ (by simp [passShows]))
  have queue : t.cus.queue = v.cus.queue := (Prod.mk.inj (last .cueQueue (shows _ (by simp [passShows])))).1
  have shown (c : Channel) : t.authority c = v.authority c := last (.authority c) (shows _ (channel_passShows c _ (by simp)))
  have raised (c : Channel) : t.sli.channel[c] = v.sli.channel[c] := last (.channelFlags c) (shows _ (channel_passShows c _ (by simp)))
  have ready (c : Channel) : u.readiness c = s.readiness c := State.readiness_eq settings clock (pages c) record
  have main (c : Channel) : u.isMain c = s.isMain c := State.isMain_eq (record c)
  have ended (c : Channel) : v.isMain c = t.isMain c := (State.isMain_eq (shown c)).symm
  have hand (c : Channel) (plan : JoinPlan) (k : handedOn u v c plan 1) : handedOn s t c plan 1 :=
    handedOn_of_sub k settings before.cadence before.taken (by rw [queue]; exact fun _ m => m) (by rw [after.awaiting]; exact fun _ m => m)
      fun x m _ _ => by rw [after.pending]; exact m
  obtain ⟨off, on⟩ := h
  refine ⟨fun c here => ?_, fun c here => ?_⟩
  · obtain ⟨a, b⟩ := off c ((main c).trans here)
    exact ⟨((shown c).trans a).trans (record c), ((raised c).trans b).trans (flags c)⟩
  · have turn := on c ((main c).trans here)
    simp only [main, ended, cfg, ready] at turn
    rw [← shown c, ← State.channelFlag_eq (raised c)] at turn
    obtain ⟨done, rest⟩ := turn
    exact ⟨done.imp (fun ⟨plan, a, b⟩ => ⟨plan, a, hand c plan b⟩) id, rest⟩

theorem takingParts_passReads : ∀ q ∈ passReads, q ∉ takingParts := by
  intro q hq
  simp only [passReads, everyChannel, List.mem_append, List.mem_flatMap] at hq
  rcases hq with h | ⟨c, _, h⟩
  all_goals
    simp only [List.mem_cons, List.not_mem_nil, or_false] at h
    rcases h with rfl | rfl | rfl | rfl
  all_goals simp [takingParts]

end Sys2Proof.Machine

namespace Sys2Proof.Machine

/-! # A taken request by what its owner makes of it -/

theorem asked_next {i : Instr} {p : SitePort} {code : Byte} {tag : Tag} {ps : List Part} {owner : State → Verdict} {s u : State}
    {k : AnswerCode} {result : List Byte} (ask : askingOf i = some ⟨p, code, tag, ps, owner⟩) (take : canTake s p)
    (decided : owner (s.validFrame p) = ⟨u, k, result⟩) : exec i s = .next (u.queueAnswer p ⟨tag, code, k, result⟩) :=
  exec_asked ask take decided

/-! # Key arming and TAKE ALL (R111, R120, R121) -/

theorem exec_keyLevelAccepted {s : State} (running : s.power = .running) (eight : s.sup.key.count = 8) :
    exec .keyLevelAccepted s = .next (if s.sup.key.asserted then s.putKey ⟨false, 0⟩
      else ((s.putKey ⟨true, 0⟩).raiseDevice .keyTakeover).keyArming) := by
  show execKeyLevelAccepted s = _
  refine whenRunning_next running ?_
  rw [if_pos (by omega)]
  cases s.sup.key.asserted <;> rfl

/-- R111: an assertion accepted, with its flag, before key arming. -/
def State.keyAsserted (s : State) : State := (s.putKey ⟨true, 0⟩).raiseDevice .keyTakeover

theorem State.keyAsserted_only (s : State) : OnlyChanges (.key :: deviceFlagParts) s s.keyAsserted :=
  ((s.putKey_acts _).only.mono (by simp)).trans ((State.raiseDevice_acts _ _).only.mono (by simp))

theorem State.keyAsserted_flag (s : State) : s.keyAsserted.deviceFlag .keyTakeover = true := by
  rw [State.keyAsserted, State.deviceFlag_raiseDevice, if_pos rfl]

theorem not_mem_everyAuthority {q : Part} (free : ∀ c, q ∉ authorityParts c) : q ∉ everyChannel authorityParts := not_mem_everyChannel free

theorem passReads_free {ps : List Part} (shared : ∀ q ∈ [Part.settings, .cadence, .clock, .crosspoints], q ∉ ps)
    (own : ∀ c, ∀ q ∈ [Part.authority c, Part.channelFlags c, Part.pages c], q ∉ ps) : ∀ q ∈ passReads, q ∉ ps := by
  intro q hq
  rcases List.mem_append.mp hq with h | h
  · exact shared q h
  · obtain ⟨c, _, held⟩ := List.mem_flatMap.mp h
    exact own c q held

theorem passShows_free {ps : List Part} (shared : ∀ q ∈ [Part.cueQueue, .cadence, .crosspoints], q ∉ ps)
    (own : ∀ c, ∀ q ∈ [Part.authority c, Part.channelFlags c], q ∉ ps) : ∀ q ∈ passShows, q ∉ ps := by
  intro q hq
  rcases List.mem_append.mp hq with h | h
  · exact shared q h
  · obtain ⟨c, _, held⟩ := List.mem_flatMap.mp h
    exact own c q held

/-- A taken TAKE ALL: the pass is made between the port's two acts. -/
theorem takeAll_passedOver {s : State} {p : SitePort} (a : Answer) :
    passedOver s (((s.validFrame p).passThrough (.site p) channels).queueAnswer p a) (.site p) :=
  passedOver_of_only ((s.validFrame p).passThrough_passedOver (.site p)) (s.validFrame_acts p).only
    (passReads_free (by simp [takingParts]) fun c => by simp [takingParts])
    (State.queueAnswer_acts _ p a).only (passShows_free (by simp) fun c => by simp)

/-- Settles O41: both passes are the one pass over the channels, in ascending order. -/
theorem keyAndTakeAllArmEveryReadyChannel : Obligations.KeyAndTakeAllArmEveryReadyChannel := by
  refine ⟨fun s running eight released => ?_, fun s running eight asserted => ?_, fun s p tag take => ⟨fun some => ?_, fun none => ?_⟩⟩
  · have run := exec_keyLevelAccepted running eight
    rw [released] at run
    have pass := s.keyAsserted.passThrough_only .key channels
    have shared (q : Part) (free : ∀ c, q ∉ authorityParts c) := pass q (not_mem_everyAuthority free)
    have flags : (s.keyAsserted.passThrough .key channels).sli.device = s.keyAsserted.sli.device :=
      shared .deviceFlags fun c => by simp [authorityParts, cueParts, planParts, flagParts]
    refine ⟨s.keyAsserted.passThrough .key channels, run, shared .key fun c => by simp [authorityParts, cueParts, planParts, flagParts],
      ?_, ?_, exec_only run⟩
    · rw [State.deviceFlag, flags]
      exact s.keyAsserted_flag
    · exact passedOver_of_only (s.keyAsserted.passThrough_passedOver .key) s.keyAsserted_only
        (passReads_free (by simp [deviceFlagParts]) fun c => by simp [deviceFlagParts]) (OnlyChanges.refl [] _) (by simp)
  · rw [exec_keyLevelAccepted running eight, asserted]
    rfl
  · obtain ⟨c, main, ready⟩ := some
    have armed := State.armedBy_ne_nil (s := s.validFrame p) main ready p
    have decided := (s.validFrame p).takeEvery_eq p
    rw [if_neg armed] at decided
    have run : exec (.takeAll p tag) s = _ := asked_next (owner := fun s => s.takeEvery p) (tag := tag) rfl take decided
    have only := (s.validFrame p).passThrough_only (.site p) channels
    refine ⟨_, (s.validFrame p).armedBy p, run, ?_, armed, channels_sorted.filter _, fun c => ?_, takeAll_passedOver _, exec_only run⟩
    rotate_left
    · rw [State.mem_armedBy, State.queueAnswer, State.putSite_isMain]
      exact Iff.rfl
    exact answered_of_only only (not_mem_everyAuthority fun c => by simp [authorityParts, cueParts, planParts, flagParts])
      (not_mem_everyAuthority fun c => by simp [authorityParts, cueParts, planParts, flagParts]) _ _ _ _
  · have nobody := State.armedBy_nil (s := s.validFrame p) none p
    have decided := (s.validFrame p).takeEvery_eq p
    rw [if_pos nobody] at decided
    have run : exec (.takeAll p tag) s = _ := asked_next (owner := fun s => s.takeEvery p) (tag := tag) rfl take decided
    have only := State.passThrough_idle (s := s.validFrame p) none (.site p) channels
    refine ⟨_, run, ?_, takeAll_passedOver _, (request_only only _).mono (by simp)⟩
    exact answered_of_only only (not_mem_everyChannel fun c => by simp [flagParts]) (not_mem_everyChannel fun c => by simp [flagParts]) _ _ _ _

/-! # TAKE and RELEASE (R119, R131) -/

theorem State.readyAlone_iff {s : State} {c : Channel} : s.readyAlone c = true ↔
    (s.cfg c).enabled = true ∧ (s.cfg c).policy ≠ .never ∧ s.stc.state ≠ .unset
      ∧ ((s.pages c).active.isSome ∨ (s.cfg c).filler.isSome) := by
  simp [State.readyAlone, and_assoc]

theorem State.readiness_notReady {s : State} {c : Channel} (unready : s.readyAlone c = false) : s.readiness c = .notReady := by
  rw [State.readiness, unready]
  rfl

theorem State.readiness_conflict {s : State} {c : Channel} (alone : s.readyAlone c = true) (taken : s.destinationTaken c = true) :
    s.readiness c = .conflict := by
  rw [State.readiness, alone, taken]
  rfl

theorem channelByte_ne_all {ch : Byte} {c : Channel} (names : ch.toNat = c.val) : ch ≠ 0xFF := by
  rintro rfl
  have := c.isLt
  exact absurd names (by simp; omega)

/-- The owner of a request that names a channel. -/
theorem owned_channel {tag : Tag} {ch : Byte} {c : Channel} (names : ch.toNat = c.val) (owner : State → Channel → Verdict) (s : State) :
    owned (.formed tag ch) (fun ch s => s.onChannel ch fun c => owner s c) s = owner s c := State.onChannel_of names _

/-- TAKE of a channel. -/
theorem owned_take {tag : Tag} {ch : Byte} {c : Channel} (names : ch.toNat = c.val) (s : State) (p : SitePort) :
    owned (.formed tag ch) (fun ch s => if ch = 0xFF then s.takeEvery p else s.onChannel ch fun c => s.takeOne p c) s = s.takeOne p c :=
  (if_neg (channelByte_ne_all names)).trans (State.onChannel_of names _)

theorem State.takeOne_off {s : State} {c : Channel} (off : s.isMain c = false) (p : SitePort) : s.takeOne p c = s.refuse .wrongState :=
  if_neg (Bool.eq_false_iff.mp off)

theorem State.takeOne_notReady {s : State} {c : Channel} (main : s.isMain c = true) (test : s.readiness c = .notReady) (p : SitePort) :
    s.takeOne p c = s.refuse .notReady := by
  rw [State.takeOne, if_pos main, test]

theorem State.takeOne_conflict {s : State} {c : Channel} (main : s.isMain c = true) (test : s.readiness c = .conflict) (p : SitePort) :
    s.takeOne p c = s.refuse .conflict := by
  rw [State.takeOne, if_pos main, test]

theorem State.takeOne_ready {s : State} {c : Channel} (main : s.isMain c = true) (test : s.readiness c = .ready) (p : SitePort) :
    s.takeOne p c = (s.arm c (.site p)).done (takeBytesOf s.format ((s.join c).planOn (s.armingPlayer c))) := by
  have format : (s.arm c (.site p)).format = s.format :=
    congrArg (fun k : Cdu => k.frame.format) ((s.arm_only c (.site p)) .cadence (by simp [authorityParts, cueParts, planParts, flagParts]))
  rw [State.takeOne, if_pos main, test]
  dsimp only
  rw [State.arm_authority, format]
  rfl

theorem asHolder_own {s : State} {p : SitePort} {c : Channel} (own : (s.authority c).holder = none ∨ (s.authority c).holder = some p)
    (owner : Verdict) : s.asHolder p c owner = owner := by
  unfold State.asHolder
  rcases own with none | same
  · rw [none]
  · rw [same]
    exact if_pos rfl

theorem asHolder_other {s : State} {p q : SitePort} {c : Channel} (held : (s.authority c).holder = some q) (other : q ≠ p)
    (owner : Verdict) : s.asHolder p c owner = s.refuse .heldElsewhere := by
  unfold State.asHolder
  rw [held]
  exact if_neg other

theorem holder_of_unheld {s : State} {c : Channel} {p : SitePort}
    (state : s.isMain c = true ∨ (∃ o plan, s.authority c = .armed o plan) ∨ (∃ a, s.authority c = .standby a) ∨ returningOwn s c p) :
    (s.authority c).holder = none ∨ (s.authority c).holder = some p := by
  rcases state with main | ⟨o, plan, record⟩ | ⟨a, record⟩ | ⟨pr, m, point, a, record, rfl | rfl⟩
  · rw [State.isMain_iff.mp main]
    exact Or.inl rfl
  · rw [record]; exact Or.inl rfl
  · rw [record]; exact Or.inl rfl
  · rw [record]; exact Or.inl rfl
  · rw [record]; exact Or.inr rfl

theorem State.releaseRequest_held {s : State} {c : Channel} {p : SitePort} {a : OnAir} (record : s.authority c = .held p a) :
    s.releaseRequest c = (s.arm c .lapse).done [] := by
  rw [State.releaseRequest, record]
  rfl

theorem State.releaseRequest_wrong {s : State} {c : Channel} (other : ∀ p a, s.authority c ≠ .held p a) :
    s.releaseRequest c = s.refuse .wrongState := by
  rw [State.releaseRequest]
  split
  · next h a record => exact absurd record (other h a)
  all_goals rfl

/-- A channel armed at a request, between the port's two acts. -/
theorem asked_armedNow (s : State) (p : SitePort) (c : Channel) (o : Origin) (a : Answer) :
    armedNow s (((s.validFrame p).arm c o).queueAnswer p a) c o :=
  armedNow_of_only ((s.validFrame p).arm_armedNow c o) (s.validFrame_acts p).only (by simp [armingReads, joinParts, takingParts])
    (State.queueAnswer_acts _ p a).only (by simp [armingShows])

theorem authority_answered {s u : State} {p : SitePort} {c : Channel} (only : OnlyChanges (authorityParts c) (s.validFrame p) u)
    (tag : Tag) (code : Byte) (k : AnswerCode) (result : List Byte) :
    answered s (u.queueAnswer p ⟨tag, code, k, result⟩) p tag code k result
      ∧ OnlyChanges (requestParts ++ authorityParts c) s (u.queueAnswer p ⟨tag, code, k, result⟩) :=
  ⟨answered_of_only only (by simp [authorityParts, cueParts, planParts, flagParts]) (by simp [authorityParts, cueParts, planParts, flagParts]) _ _ _ _,
    (request_only only _).mono (List.append_subset.mpr ⟨List.subset_append_right _ _, List.subset_append_left _ _⟩)⟩

theorem takeBytesOf_eq (f : Format) (plan : JoinPlan) : takeBytesOf f plan
    = bytes32 plan.start ++ labelBytes (stageB f plan.station)
      ++ (match plan.content with | .clip _ _ => ([0] : List Byte) | .live _ => [1] | .filler => [2]) ++ bytes32 plan.id := by
  unfold takeBytesOf
  cases plan.content <;> rfl

/-- Settles O42: TAKE by the readiness test, RELEASE by the state of the channel. -/
theorem takeAndReleaseArm : Obligations.TakeAndReleaseArm := by
  intro s p tag ch c take names
  dsimp only
  rw [← State.readyAlone_iff, ← State.destinationTaken_iff]
  have owner := owned_take (tag := tag) names (s.validFrame p) p
  refine ⟨fun main alone free => ?_, fun main unready => ?_, fun main alone conflict => ?_, fun off => ?_, fun a held => ?_, fun state => ?_⟩
  · have ready := State.readiness_ready_iff.mpr ⟨alone, Bool.not_eq_true _ ▸ free⟩
    have run : exec (.take p (.formed tag ch)) s = _ :=
      asked_next (tag := tag) rfl take (owner.trans (State.takeOne_ready (s := s.validFrame p) main ready p))
    obtain ⟨answer, only⟩ := authority_answered ((s.validFrame p).arm_only c (.site p)) tag 0x25 .done
      (takeBytesOf s.format ((s.join c).planOn (s.armingPlayer c)))
    refine ⟨_, (s.join c).planOn (s.armingPlayer c), run, asked_armedNow s p c (.site p) _, (s.validFrame p).arm_authority c (.site p), ?_, only⟩
    exact (congrArg (answered s _ p tag 0x25 .done) (takeBytesOf_eq s.format _)).mp answer
  · exact asked_refused rfl take (owner.trans (State.takeOne_notReady (s := s.validFrame p) main
      (State.readiness_notReady (Bool.not_eq_true _ ▸ unready)) p))
  · exact asked_refused rfl take (owner.trans (State.takeOne_conflict (s := s.validFrame p) main (State.readiness_conflict alone conflict) p))
  · exact asked_refused rfl take (owner.trans (State.takeOne_off (s := s.validFrame p) off p))
  · have decided := (owned_channel (tag := tag) names (fun s c => s.asHolder p c (s.releaseRequest c)) (s.validFrame p)).trans
      ((asHolder_own (s := s.validFrame p) (Or.inr (congrArg Authority.holder held)) _).trans
        (State.releaseRequest_held (s := s.validFrame p) held))
    have run : exec (.release p (.formed tag ch)) s = _ := asked_next (tag := tag) rfl take decided
    obtain ⟨answer, only⟩ := authority_answered ((s.validFrame p).arm_only c .lapse) tag 0x28 .done []
    exact ⟨_, run, answer, asked_armedNow s p c .lapse _, only⟩
  · refine asked_refused rfl take ((owned_channel (tag := tag) names (fun s c => s.asHolder p c (s.releaseRequest c)) (s.validFrame p)).trans
      ((asHolder_own (s := s.validFrame p) (holder_of_unheld state) _).trans (State.releaseRequest_wrong (s := s.validFrame p) fun q a held => ?_)))
    have held : s.authority c = .held q a := held
    rcases state with main | ⟨o, plan, record⟩ | ⟨b, record⟩ | ⟨pr, m, point, b, record, _⟩
    · rw [State.isMain_iff.mp main] at held; cases held
    all_goals rw [record] at held; cases held

end Sys2Proof.Machine

namespace Sys2Proof.Machine

/-! # Withdrawing segments (R143) -/

/-! ## What every withdrawal keeps -/

/-- What withdrawals of a channel's segments do to its cues: players become IDLE, entries leave the queue but for CANCELs, which are
added and stay, and the transaction is at most marked. -/
structure Withdraws (c : Channel) (s t : State) : Prop where
  settings : t.live = s.live
  cadence : t.cdu = s.cdu
  players : ∀ q, t.playerState c q = s.playerState c q ∨ t.playerState c q = .idle
  queue : ∀ x ∈ t.cus.queue, x ∈ s.cus.queue ∨ x.action = .cancel
  cancels : ∀ x ∈ s.cus.queue, x.action = .cancel → x ∈ t.cus.queue
  txn : t.cus.txn = s.cus.txn ∨ t.cus.txn = s.cus.txn.map fun k => { k with withdrawn := true }

theorem Withdraws.refl (c : Channel) (s : State) : Withdraws c s s :=
  ⟨rfl, rfl, fun _ => Or.inl rfl, fun _ h => Or.inl h, fun _ h _ => h, Or.inl rfl⟩

theorem map_withdrawn_twice (x : Option Txn) : (x.map fun k => { k with withdrawn := true }).map (fun k => { k with withdrawn := true })
    = x.map fun k => { k with withdrawn := true } := by
  cases x <;> rfl

theorem Withdraws.trans {c : Channel} {s t u : State} (h : Withdraws c s t) (k : Withdraws c t u) : Withdraws c s u where
  settings := k.settings.trans h.settings
  cadence := k.cadence.trans h.cadence
  players q := (k.players q).elim (fun e => by rw [e]; exact h.players q) Or.inr
  queue x m := (k.queue x m).elim (h.queue x) Or.inr
  cancels x m e := k.cancels x (h.cancels x m e) e
  txn := by
    rcases h.txn with a | a <;> rcases k.txn with b | b
    · exact Or.inl (b.trans a)
    · exact Or.inr (by rw [b, a])
    · exact Or.inr (b.trans a)
    · exact Or.inr (by rw [b, a, map_withdrawn_twice])

/-- What a withdrawal does not touch. -/
theorem Withdraws.of_only {ps : List Part} {c : Channel} {s t : State} (only : OnlyChanges ps s t)
    (free : ∀ q ∈ [Part.settings, .cadence, .plan c, .cueQueue], q ∉ ps) : Withdraws c s t := by
  have cue : t.cue c = s.cue c := only (.plan c) (free _ (by simp))
  obtain ⟨queue, txn⟩ := Prod.mk.inj (only .cueQueue (free _ (by simp)))
  refine ⟨only .settings (free _ (by simp)), only .cadence (free _ (by simp)), fun q => Or.inl ?_, fun x h => Or.inl ?_, fun x h _ => ?_,
    Or.inl txn⟩
  · unfold State.playerState
    rw [cue]
  · rw [← queue]
    exact h
  · rw [queue]
    exact h

theorem Withdraws.of_players {c : Channel} {s : State} {k : CueChannel} (players : ∀ q, k.players.get q = (s.cue c).players.get q ∨ k.players.get q = .idle) :
    Withdraws c s (s.putCue c k) := by
  refine ⟨rfl, rfl, fun q => ?_, fun _ h => Or.inl h, fun _ h _ => h, Or.inl rfl⟩
  rw [State.playerState, State.cue_putCue, if_pos rfl]
  exact players q

theorem State.setIdle_withdraws (s : State) (c : Channel) (p : Player) : Withdraws c s (s.setPlayer c p .idle) :=
  Withdraws.of_players fun q => by
    rw [CueChannel.withPlayer, PerSide.get_put]
    split
    · exact Or.inr rfl
    · exact Or.inl rfl

theorem State.uncue_withdraws (s : State) (c : Channel) (p : Player) : Withdraws c s (s.uncue c p) := by
  unfold State.uncue
  split
  · exact s.setIdle_withdraws c p
  · exact Withdraws.refl c s

theorem State.queueCancel_withdraws (s : State) (c : Channel) (p : Player) : Withdraws c s (s.queueCancel c p) := by
  refine ⟨rfl, rfl, fun _ => Or.inl rfl, fun x h => ?_, fun x h _ => State.mem_queueCancel.mpr (Or.inr h), Or.inl rfl⟩
  rcases State.mem_queueCancel.mp h with rfl | held
  · exact Or.inr rfl
  · exact Or.inl held

theorem isPlayOf_of_cancel {x : CueEntry} (cancel : x.action = .cancel) (c : Channel) (e : LocalFrame) : x.isPlayOf c e = false := by
  rw [CueEntry.isPlayOf, cancel]
  rfl

theorem State.dequeuePlay_withdraws (s : State) (c : Channel) (e : LocalFrame) :
    Withdraws c s (s.putQueue (s.cus.queue.filter fun x => !x.isPlayOf c e)) := by
  refine ⟨rfl, rfl, fun _ => Or.inl rfl, fun x h => Or.inl (List.mem_filter.mp h).1, fun x h cancel => ?_, Or.inl rfl⟩
  exact List.mem_filter.mpr ⟨h, by rw [isPlayOf_of_cancel cancel]; rfl⟩

theorem State.markWithdrawn_withdraws (s : State) (c : Channel) : Withdraws c s s.markWithdrawn :=
  ⟨rfl, rfl, fun _ => Or.inl rfl, fun _ h => Or.inl h, fun _ h _ => h, Or.inr rfl⟩

theorem State.withdrawPlay_withdraws (s : State) (c : Channel) (p : Player) (e : LocalFrame) : Withdraws c s (s.withdrawPlay c p e) := by
  unfold State.withdrawPlay
  split
  · exact s.dequeuePlay_withdraws c e
  · split
    · exact (s.markWithdrawn_withdraws c).trans (State.uncue_withdraws _ c p)
    · split
      · exact (s.queueCancel_withdraws c p).trans (State.setIdle_withdraws _ c p)
      · exact Withdraws.refl c s

theorem State.withdrawXp_withdraws (s : State) (c : Channel) (e : LocalFrame) : Withdraws c s (s.withdrawXp c e) :=
  Withdraws.of_only (s.withdrawXp_acts c e).only (by simp)

theorem State.withdrawSegment_withdraws (s : State) (c : Channel) (p : Option Player) (e : LocalFrame) :
    Withdraws c s (s.withdrawSegment c p e) := by
  cases p with
  | none => exact s.withdrawXp_withdraws c e
  | some p => exact (s.withdrawPlay_withdraws c p e).trans (State.withdrawXp_withdraws _ c e)

theorem Withdraws.of_cus {s t : State} (c : Channel) (settings : t.live = s.live) (cadence : t.cdu = s.cdu) (cus : t.cus = s.cus) :
    Withdraws c s t := by
  refine ⟨settings, cadence, fun q => Or.inl ?_, fun x h => Or.inl ?_, fun x h _ => ?_, Or.inl (by rw [cus])⟩
  · unfold State.playerState State.cue
    rw [cus]
  · rw [← cus]
    exact h
  · rw [cus]
    exact h

theorem State.announce_withdraws (s : State) (c d : Channel) : Withdraws c s (s.announce d) :=
  Withdraws.of_cus c (s.announce_live d) ((s.announce_only d) .cadence (by simp [authorityParts, cueParts, planParts, flagParts]))
    (s.announce_cus d)

/-! ## The pending crosspoints -/

theorem State.withdrawPlay_pending (s : State) (c : Channel) (p : Player) (e : LocalFrame) :
    (s.withdrawPlay c p e).xps = s.xps := by
  unfold State.withdrawPlay State.uncue
  repeat' split
  all_goals rfl

theorem State.withdrawXp_sub (s : State) (c : Channel) (e : LocalFrame) : (s.withdrawXp c e).xps.pending ⊆ s.xps.pending :=
  fun _ h => (State.mem_withdrawXp.mp h).1

theorem State.withdrawSegment_sub (s : State) (c : Channel) (p : Option Player) (e : LocalFrame) :
    (s.withdrawSegment c p e).xps.pending ⊆ s.xps.pending := by
  cases p with
  | none => exact s.withdrawXp_sub c e
  | some p =>
    have sub := (s.withdrawPlay c p e).withdrawXp_sub c e
    rw [State.withdrawPlay_pending] at sub
    exact sub

theorem State.withdrawXp_routeWithdrawn (s : State) (c : Channel) (e : LocalFrame) : routeWithdrawn s (s.withdrawXp c e) c e :=
  fun _ h => (State.mem_withdrawXp.mp h).2

theorem State.withdrawSegment_routeWithdrawn (s : State) (c : Channel) (p : Option Player) (e : LocalFrame) :
    routeWithdrawn s (s.withdrawSegment c p e) c e := by
  cases p with
  | none => exact s.withdrawXp_routeWithdrawn c e
  | some p =>
    have gone := (s.withdrawPlay c p e).withdrawXp_routeWithdrawn c e
    rw [routeWithdrawn, State.cfg_eq (s.withdrawPlay_withdraws c p e).settings] at gone
    exact gone

theorem routeWithdrawn_after {s t u : State} {c : Channel} {e : LocalFrame} (h : routeWithdrawn s t c e)
    (sub : u.xps.pending ⊆ t.xps.pending) : routeWithdrawn s u c e := fun x m => h x (sub m)

theorem routeWithdrawn_of_settings {s u t : State} {c : Channel} {e : LocalFrame} (h : routeWithdrawn u t c e) (settings : u.live = s.live) :
    routeWithdrawn s t c e := by
  rw [routeWithdrawn, State.cfg_eq settings] at h
  exact h

/-! ## A segment's cue -/

theorem State.playQueued_iff {s : State} {c : Channel} {e : LocalFrame} :
    s.playQueued c e = true ↔ ∃ x ∈ s.cus.queue, x.isPlayOf c e = true := List.any_eq_true

theorem State.playQueued_false {s : State} {c : Channel} {e : LocalFrame} :
    s.playQueued c e = false ↔ ∀ x ∈ s.cus.queue, x.isPlayOf c e = false := by
  simp [State.playQueued]

theorem Withdraws.playQueued {c d : Channel} {s t : State} (h : Withdraws c s t) {e : LocalFrame} (none : s.playQueued d e = false) :
    t.playQueued d e = false := by
  rw [State.playQueued_false] at none ⊢
  exact fun x m => (h.queue x m).elim (none x) fun cancel => isPlayOf_of_cancel cancel d e

theorem State.playInTxn_iff {s : State} {c : Channel} {e : LocalFrame} :
    s.playInTxn c e = true ↔ ∃ k, s.cus.txn = some k ∧ k.isPlayOf c e = true := by
  unfold State.playInTxn
  cases s.cus.txn <;> simp

theorem State.playInTxn_false {s : State} {c : Channel} {e : LocalFrame} :
    s.playInTxn c e = false ↔ ∀ k, s.cus.txn = some k → k.isPlayOf c e = false := by
  unfold State.playInTxn
  cases s.cus.txn <;> simp

theorem isPlayOf_of_withdrawn {k : Txn} (withdrawn : k.withdrawn = true) (c : Channel) (e : LocalFrame) : k.isPlayOf c e = false := by
  rw [Txn.isPlayOf, withdrawn]
  rfl

theorem Withdraws.playInTxn {c d : Channel} {s t : State} (h : Withdraws c s t) {e : LocalFrame} (none : s.playInTxn d e = false) :
    t.playInTxn d e = false := by
  rw [State.playInTxn_false] at none ⊢
  intro k txn
  rcases h.txn with same | marked
  · exact none k (same.symm.trans txn)
  · rw [marked] at txn
    obtain ⟨k', _, rfl⟩ := Option.map_eq_some_iff.mp txn
    exact isPlayOf_of_withdrawn rfl d e

theorem Withdraws.txn_withdrawn {c : Channel} {s t : State} (h : Withdraws c s t) {k : Txn} (txn : s.cus.txn = some k)
    (withdrawn : k.withdrawn = true) : t.cus.txn = some k := by
  rcases h.txn with same | marked
  · exact same.trans txn
  · rw [marked, txn]
    cases k
    cases withdrawn
    rfl

theorem Withdraws.not_cued {c : Channel} {s t : State} (h : Withdraws c s t) {q : Player} (out : s.playerState c q ≠ .cued) :
    t.playerState c q ≠ .cued := by
  rcases h.players q with same | idle
  · rw [same]; exact out
  · rw [idle]; decide

theorem State.uncue_not_cued (s : State) (c : Channel) (p : Player) : (s.uncue c p).playerState c p ≠ .cued := by
  unfold State.uncue
  split
  · rw [State.playerState, State.setPlayer, State.cue_putCue, if_pos rfl, CueChannel.withPlayer, PerSide.get_put_self]
    decide
  · next out => exact out

theorem State.setPlayer_state (s : State) (c : Channel) (p : Player) (x : PlayerState) : (s.setPlayer c p x).playerState c p = x := by
  rw [State.playerState, State.setPlayer, State.cue_putCue, if_pos rfl, CueChannel.withPlayer, PerSide.get_put_self]

/-- R143: by where its PLAY stands. -/
theorem State.withdrawPlay_cueWithdrawn (s : State) (c : Channel) (q : Player) (e : LocalFrame) :
    cueWithdrawn s (s.withdrawPlay c q e) c q e := by
  refine ⟨fun queued => ?_, fun k none txn play => ?_, fun none out cued => ?_⟩
  · rw [State.withdrawPlay, if_pos queued]
    intro x h
    simpa using (List.mem_filter.mp h).2
  · have inTxn : s.playInTxn c e = true := State.playInTxn_iff.mpr ⟨k, txn, play⟩
    rw [State.withdrawPlay, if_neg (Bool.eq_false_iff.mp none), if_pos inTxn]
    refine ⟨?_, State.uncue_not_cued _ c q⟩
    have kept : (s.markWithdrawn.uncue c q).cus.txn = s.markWithdrawn.cus.txn := by
      unfold State.uncue
      split <;> rfl
    rw [kept, State.markWithdrawn, txn]
    rfl
  · have notInTxn : s.playInTxn c e = false := State.playInTxn_false.mpr out
    rw [State.withdrawPlay, if_neg (Bool.eq_false_iff.mp none), if_neg (Bool.eq_false_iff.mp notInTxn), if_pos cued]
    exact ⟨State.setPlayer_state _ c q .idle, _, State.mem_queueCancel.mpr (Or.inl rfl), rfl, rfl, rfl, rfl, rfl, rfl⟩

/-- What comes after keeps a segment withdrawn. -/
theorem cueWithdrawn_after {s t u : State} {c : Channel} {q : Player} {e : LocalFrame} (h : cueWithdrawn s t c q e) (w : Withdraws c t u) :
    cueWithdrawn s u c q e := by
  obtain ⟨queued, inTxn, cued⟩ := h
  refine ⟨fun some x m => ?_, fun k none txn play => ?_, fun none out held => ?_⟩
  · exact (w.queue x m).elim (queued some x) fun cancel => isPlayOf_of_cancel cancel c e
  · obtain ⟨marked, player⟩ := inTxn k none txn play
    exact ⟨w.txn_withdrawn marked rfl, w.not_cued player⟩
  · obtain ⟨idle, x, m, cancel, rest⟩ := cued none out held
    refine ⟨(w.players q).elim (fun same => same.trans idle) id, x, w.cancels x m cancel, cancel, rest⟩

/-- What came before, another segment's player being another, leaves a segment to be withdrawn as it stood. -/
theorem cueWithdrawn_before {s u t : State} {c : Channel} {q : Player} {e : LocalFrame} (w : Withdraws c s u)
    (stays : u.playerState c q = s.playerState c q) (v : Withdraws c u t) (h : cueWithdrawn u t c q e) : cueWithdrawn s t c q e := by
  obtain ⟨queued, inTxn, cued⟩ := h
  refine ⟨fun _ => ?_, fun k none txn play => ?_, fun none out held => ?_⟩
  · cases still : u.playQueued c e with
    | true => exact queued still
    | false => exact State.playQueued_false.mp (v.playQueued still)
  · rcases w.txn with same | marked
    · exact inTxn k (w.playQueued none) (same.trans txn) play
    · rw [txn] at marked
      refine ⟨v.txn_withdrawn marked rfl, ?_⟩
      by_cases still : u.playerState c q = .cued
      · have notOurs (k' : Txn) (h : u.cus.txn = some k') : k'.isPlayOf c e = false := by
          cases marked.symm.trans h
          exact isPlayOf_of_withdrawn rfl c e
        rw [(cued (w.playQueued none) notOurs still).1]
        decide
      · exact v.not_cued still
  · obtain ⟨idle, x, m, cancel, channel, player, address, start, deadline⟩ :=
      cued (w.playQueued none) (State.playInTxn_false.mp (w.playInTxn (State.playInTxn_false.mpr out))) (stays.trans held)
    rw [State.cfg_eq w.settings] at address
    rw [w.cadence] at start deadline
    exact ⟨idle, x, m, cancel, channel, player, address, start, deadline⟩

theorem State.withdrawSegment_cueWithdrawn (s : State) (c : Channel) (q : Player) (e : LocalFrame) :
    cueWithdrawn s (s.withdrawSegment c (some q) e) c q e :=
  cueWithdrawn_after (s.withdrawPlay_cueWithdrawn c q e) (State.withdrawXp_withdraws _ c e)

/-- After a segment with a player is withdrawn no PLAY of it is queued. -/
theorem State.withdrawSegment_unqueued (s : State) (c : Channel) (q : Player) (e : LocalFrame) :
    (s.withdrawSegment c (some q) e).playQueued c e = false := by
  cases queued : s.playQueued c e with
  | true => exact State.playQueued_false.mpr ((s.withdrawSegment_cueWithdrawn c q e).1 queued)
  | false => exact (s.withdrawSegment_withdraws c (some q) e).playQueued queued

/-- A segment's withdrawal leaves the players that it does not use. -/
theorem State.withdrawSegment_player (s : State) (c : Channel) {p : Option Player} {q : Player} (other : p ≠ some q) (e : LocalFrame) :
    (s.withdrawSegment c p e).playerState c q = s.playerState c q := by
  cases p with
  | none => rfl
  | some p =>
    have differs : q ≠ p := fun same => other (by rw [same])
    have set (u : State) (x : PlayerState) : (u.setPlayer c p x).playerState c q = u.playerState c q := by
      rw [State.playerState, State.setPlayer, State.cue_putCue, if_pos rfl, CueChannel.withPlayer, PerSide.get_put_ne _ _ _ _ differs]
      rfl
    show ((s.withdrawPlay c p e).playerState c q) = _
    unfold State.withdrawPlay State.uncue
    split
    · rfl
    · split
      · split
        · exact set _ _
        · rfl
      · split
        · exact set _ _
        · rfl

/-- A segment's withdrawal touches nothing that CUS keeps of the channel but its players. -/
theorem State.withdrawSegment_cue (s : State) (c : Channel) (p : Option Player) (e : LocalFrame) :
    ∃ v, (s.withdrawSegment c p e).cue c = { s.cue c with players := v } := by
  have set (u : State) (p : Player) (x : PlayerState) : ∃ v, (u.setPlayer c p x).cue c = { u.cue c with players := v } :=
    ⟨_, (u.cue_putCue c c _).trans (if_pos rfl)⟩
  have same : ∃ v, s.cue c = { s.cue c with players := v } := ⟨_, rfl⟩
  cases p with
  | none => exact same
  | some p =>
    show ∃ v, (s.withdrawPlay c p e).cue c = _
    unfold State.withdrawPlay State.uncue
    split
    · exact same
    · split
      · split
        · exact set s.markWithdrawn p .idle
        · exact same
      · split
        · exact set (s.queueCancel c p) p .idle
        · exact same

/-! ## A list of segments -/

/-- The withdrawal of segments in turn. -/
def State.withdrawAll (s : State) (c : Channel) (gs : List Planned) : State :=
  gs.foldl (fun s g => s.withdrawSegment c g.content.player g.start) s

theorem State.withdrawPlanned_eq (s : State) (c : Channel) (p : Planned → Bool) :
    s.withdrawPlanned c p = (s.putPlanned c ((s.cue c).planned.filter fun x => !p x)).withdrawAll c ((s.cue c).planned.filter p) := rfl

theorem State.withdrawAll_cons (s : State) (c : Channel) (g : Planned) (gs : List Planned) :
    s.withdrawAll c (g :: gs) = (s.withdrawSegment c g.content.player g.start).withdrawAll c gs := rfl

theorem State.withdrawAll_withdraws (s : State) (c : Channel) (gs : List Planned) : Withdraws c s (s.withdrawAll c gs) := by
  induction gs generalizing s with
  | nil => exact Withdraws.refl c s
  | cons g gs ih => exact (s.withdrawSegment_withdraws c _ _).trans (ih _)

theorem State.withdrawAll_sub (s : State) (c : Channel) (gs : List Planned) : (s.withdrawAll c gs).xps.pending ⊆ s.xps.pending := by
  induction gs generalizing s with
  | nil => exact fun _ h => h
  | cons g gs ih => exact fun x h => s.withdrawSegment_sub c _ _ (ih _ h)

theorem State.withdrawAll_cue (s : State) (c : Channel) (gs : List Planned) : ∃ v, (s.withdrawAll c gs).cue c = { s.cue c with players := v } := by
  induction gs generalizing s with
  | nil => exact ⟨_, rfl⟩
  | cons g gs ih =>
    obtain ⟨v, first⟩ := s.withdrawSegment_cue c g.content.player g.start
    obtain ⟨w, rest⟩ := ih (s.withdrawSegment c g.content.player g.start)
    exact ⟨w, by rw [State.withdrawAll_cons, rest, first]⟩

theorem State.withdrawAll_routeWithdrawn (s : State) (c : Channel) {gs : List Planned} {g : Planned} (held : g ∈ gs) :
    routeWithdrawn s (s.withdrawAll c gs) c g.start := by
  induction gs generalizing s with
  | nil => cases held
  | cons y ys ih =>
    rw [State.withdrawAll_cons]
    rcases List.mem_cons.mp held with rfl | later
    · exact routeWithdrawn_after (s.withdrawSegment_routeWithdrawn c _ _) (State.withdrawAll_sub _ c ys)
    · exact routeWithdrawn_of_settings (ih _ later) (s.withdrawSegment_withdraws c _ _).settings

/-- A segment whose player no other segment of the list has is withdrawn by where its PLAY stood at first. -/
theorem State.withdrawAll_cueWithdrawn (s : State) (c : Channel) {gs : List Planned} {g : Planned} {q : Player} (held : g ∈ gs)
    (player : g.content.player = some q) (alone : ∀ y ∈ gs, y = g ∨ y.content.player ≠ some q) :
    cueWithdrawn s (s.withdrawAll c gs) c q g.start := by
  induction gs generalizing s with
  | nil => cases held
  | cons y ys ih =>
    rw [State.withdrawAll_cons]
    rcases alone y (List.mem_cons_self ..) with rfl | other
    · rw [player]
      exact cueWithdrawn_after (s.withdrawSegment_cueWithdrawn c q _) (State.withdrawAll_withdraws _ c ys)
    · have later : g ∈ ys := (List.mem_cons.mp held).resolve_left fun same => other (by rw [← same]; exact player)
      exact cueWithdrawn_before (s.withdrawSegment_withdraws c _ _) (s.withdrawSegment_player c other _) (State.withdrawAll_withdraws _ c ys)
        (ih _ later fun z m => alone z (List.mem_cons_of_mem _ m))

theorem State.putPlanned_withdraws (s : State) (c : Channel) (xs : List Planned) : Withdraws c s (s.putPlanned c xs) :=
  Withdraws.of_players fun _ => Or.inl rfl

theorem State.putPlanned_player (s : State) (c : Channel) (xs : List Planned) (q : Player) :
    (s.putPlanned c xs).playerState c q = s.playerState c q := by
  rw [State.playerState, State.putPlanned, State.cue_putCue, if_pos rfl]
  rfl

theorem State.withdrawPlanned_withdraws (s : State) (c : Channel) (p : Planned → Bool) : Withdraws c s (s.withdrawPlanned c p) :=
  (s.putPlanned_withdraws c _).trans (State.withdrawAll_withdraws _ c _)

theorem State.withdrawPlanned_sub (s : State) (c : Channel) (p : Planned → Bool) :
    (s.withdrawPlanned c p).xps.pending ⊆ s.xps.pending := State.withdrawAll_sub (s.putPlanned c _) c _

theorem State.withdrawPlanned_cue (s : State) (c : Channel) (p : Planned → Bool) :
    ∃ v, (s.withdrawPlanned c p).cue c = { s.cue c with players := v, planned := (s.cue c).planned.filter fun x => !p x } := by
  obtain ⟨v, cue⟩ := State.withdrawAll_cue (s.putPlanned c ((s.cue c).planned.filter fun x => !p x)) c ((s.cue c).planned.filter p)
  refine ⟨v, ?_⟩
  rw [State.withdrawPlanned_eq, cue, State.putPlanned, State.cue_putCue, if_pos rfl]

theorem State.withdrawPlanned_planned (s : State) (c : Channel) (p : Planned → Bool) :
    ((s.withdrawPlanned c p).cue c).planned = (s.cue c).planned.filter fun x => !p x := by
  obtain ⟨v, cue⟩ := s.withdrawPlanned_cue c p
  rw [cue]

theorem State.withdrawPlan_planned (s : State) (c : Channel) : ((s.withdrawPlan c).cue c).planned = [] := by
  rw [State.withdrawPlan, State.withdrawPlanned_planned]
  simp

theorem State.withdrawPlanned_routeWithdrawn (s : State) (c : Channel) {p : Planned → Bool} {g : Planned}
    (held : g ∈ (s.cue c).planned) (meets : p g = true) : routeWithdrawn s (s.withdrawPlanned c p) c g.start :=
  routeWithdrawn_of_settings (State.withdrawAll_routeWithdrawn _ c (List.mem_filter.mpr ⟨held, meets⟩)) rfl

theorem State.withdrawPlanned_planWithdrawn (s : State) (c : Channel) (p : Planned → Bool) :
    planWithdrawn s (s.withdrawPlanned c p) c (fun g => p g = true) := by
  intro g held meets q player alone
  refine cueWithdrawn_before (s.putPlanned_withdraws c _) (s.putPlanned_player c _ q) (State.withdrawAll_withdraws _ c _) ?_
  exact State.withdrawAll_cueWithdrawn _ c (List.mem_filter.mpr ⟨held, meets⟩) player fun y m => alone y (List.mem_filter.mp m).1

theorem planWithdrawn_after {s t u : State} {c : Channel} {p : Planned → Prop} (h : planWithdrawn s t c p) (w : Withdraws c t u) :
    planWithdrawn s u c p := fun g held meets q player alone => cueWithdrawn_after (h g held meets q player alone) w

theorem planWithdrawn_mono {s t : State} {c : Channel} {p r : Planned → Prop} (h : planWithdrawn s t c p) (sub : ∀ g, r g → p g) :
    planWithdrawn s t c r := fun g held meets => h g held (sub g meets)

end Sys2Proof.Machine

namespace Sys2Proof.Machine

/-! # R30 on local frames -/

theorem atOrAfter_iff {a b : LocalFrame} : atOrAfter a b = true ↔ (a - b).toNat ≤ 2147483648 := decide_eq_true_iff

theorem atOrAfter_false {a b : LocalFrame} : atOrAfter a b = false ↔ 2147483648 < (a - b).toNat :=
  decide_eq_false_iff_not.trans Nat.not_le

theorem before_iff {a b : LocalFrame} : before a b = true ↔ 2147483648 < (a - b).toNat := by
  simp [before, atOrAfter_false]

theorem before_false {a b : LocalFrame} : before a b = false ↔ (a - b).toNat ≤ 2147483648 := by
  simp [before, atOrAfter_iff]

/-! # Issuing crosspoints (R157) -/

/-! ## The latest of the crosspoints that have come due -/

/-- The later of two crosspoints, by the one that has waited less. -/
theorem laterDue_of_recent {now : LocalFrame} {x y : Crosspoint} (recent : (now - x.due).toNat < (now - y.due).toNat)
    (near : (now - y.due).toNat < 2147483648) : laterDue y (some x) = some x ∧ laterDue x (some y) = some x := by
  have ahead : before x.due y.due = false := by
    rw [before_false]
    bv_omega
  have behind : before y.due x.due = true := by
    rw [before_iff]
    bv_omega
  exact ⟨by simp [laterDue, ahead], by simp [laterDue, behind]⟩

/-- The latest of a list of crosspoints. -/
def latestDue (xs : List Crosspoint) : Option Crosspoint := xs.foldl (fun a x => laterDue x a) none

theorem laterDue_some (x : Crosspoint) (a : Option Crosspoint) : laterDue x a = some x ∨ (laterDue x a = a ∧ a.isSome = true) := by
  cases a with
  | none => exact Or.inl rfl
  | some y =>
    unfold laterDue
    dsimp only
    split
    · exact Or.inl rfl
    · exact Or.inr ⟨rfl, rfl⟩

theorem foldl_laterDue_mem {xs : List Crosspoint} {a : Option Crosspoint} {x : Crosspoint}
    (h : xs.foldl (fun a x => laterDue x a) a = some x) : x ∈ xs ∨ a = some x := by
  induction xs generalizing a with
  | nil => exact Or.inr h
  | cons y ys ih =>
    rcases ih h with held | here
    · exact Or.inl (List.mem_cons_of_mem _ held)
    · rcases laterDue_some y a with new | ⟨old, _⟩
      · cases new.symm.trans here
        exact Or.inl (List.mem_cons_self ..)
      · exact Or.inr (old.symm.trans here)

theorem latestDue_mem {xs : List Crosspoint} {x : Crosspoint} (h : latestDue xs = some x) : x ∈ xs :=
  (foldl_laterDue_mem h).resolve_right nofun

theorem latestDue_isSome {xs : List Crosspoint} (some : xs ≠ []) : (latestDue xs).isSome = true := by
  have kept (ys : List Crosspoint) {a : Option Crosspoint} (h : a.isSome = true) :
      (ys.foldl (fun a x => laterDue x a) a).isSome = true := by
    induction ys generalizing a with
    | nil => exact h
    | cons y ys ih =>
      have next : (laterDue y a).isSome = true := by
        rcases laterDue_some y a with new | ⟨old, _⟩
        · rw [new]; rfl
        · rw [old]; exact h
      exact ih next
  cases xs with
  | nil => exact absurd rfl some
  | cons y ys => exact kept ys rfl

/-- A crosspoint that has waited less than every other is the latest. -/
theorem latestDue_of_recent {now : LocalFrame} {xs : List Crosspoint} {x : Crosspoint} (held : x ∈ xs)
    (recent : ∀ y ∈ xs, y = x ∨ (now - x.due).toNat < (now - y.due).toNat ∧ (now - y.due).toNat < 2147483648) :
    latestDue xs = some x := by
  have stays (ys : List Crosspoint) (sub : ∀ y ∈ ys, y ∈ xs) : ys.foldl (fun a x => laterDue x a) (some x) = some x := by
    induction ys with
    | nil => rfl
    | cons y ys ih =>
      have same : laterDue y (some x) = some x := by
        rcases recent y (sub y (List.mem_cons_self ..)) with rfl | ⟨less, near⟩
        · unfold laterDue
          dsimp only
          split <;> rfl
        · exact (laterDue_of_recent less near).1
      rw [List.foldl_cons, same]
      exact ih fun z h => sub z (List.mem_cons_of_mem _ h)
  have comes (ys : List Crosspoint) (sub : ∀ y ∈ ys, y ∈ xs) (here : x ∈ ys) {a : Option Crosspoint} (old : ∀ y, a = some y → y ∈ xs) :
      ys.foldl (fun a x => laterDue x a) a = some x := by
    induction ys generalizing a with
    | nil => cases here
    | cons y ys ih =>
      have rest := fun z h => sub z (List.mem_cons_of_mem _ h)
      rw [List.foldl_cons]
      rcases List.mem_cons.mp here with rfl | later
      · have takes : laterDue x a = some x := by
          cases a with
          | none => rfl
          | some z =>
            rcases recent z (old z rfl) with rfl | ⟨less, near⟩
            · unfold laterDue
              dsimp only
              split <;> rfl
            · exact (laterDue_of_recent less near).2
        rw [takes]
        exact stays ys rest
      · have next : ∀ z, laterDue y a = some z → z ∈ xs := by
          intro z h
          rcases laterDue_some y a with new | ⟨same, _⟩
          · cases new.symm.trans h
            exact sub _ (List.mem_cons_self ..)
          · exact old _ (same.symm.trans h)
        exact ih rest later next
  exact comes xs (fun _ h => h) held nofun

/-! ## One destination after another -/

/-- The crosspoint is due by a frame. -/
def cameBy (now : LocalFrame) (x : Crosspoint) : Bool := atOrAfter now x.due

/-- The crosspoints that have come due for a destination. -/
def cameOn (now : LocalFrame) (pending : List Crosspoint) (dest : Nat) : List Crosspoint :=
  pending.filter fun x => x.destination == dest && cameBy now x

/-- What a destination is sent. -/
def sentOn (now : LocalFrame) (pending : List Crosspoint) (dest : Nat) : Option Awaiting :=
  (latestDue (cameOn now pending dest)).map fun x => ⟨x.destination, x.source, x.channel, 2⟩

theorem State.toIssue_eq (s : State) (dest : Nat) : s.toIssue dest = latestDue (cameOn s.now s.xps.pending dest) := rfl

theorem State.issueOn_pending (s : State) (dest : Nat) :
    (s.issueOn dest).xps.pending = s.xps.pending.filter fun y => !(y.destination == dest && cameBy s.now y) := by
  unfold State.issueOn
  split
  · next none =>
    have empty : cameOn s.now s.xps.pending dest = [] := by
      by_contra some
      have is := latestDue_isSome some
      rw [← State.toIssue_eq, none] at is
      cases is
    symm
    rw [List.filter_eq_self]
    intro y held
    have out := List.filter_eq_nil_iff.mp empty y held
    simpa [imp_iff_not_or] using out
  · rfl

theorem State.issueOn_awaiting (s : State) (dest : Nat) :
    (s.issueOn dest).xps.awaiting = s.xps.awaiting ++ (sentOn s.now s.xps.pending dest).toList := by
  unfold State.issueOn sentOn
  rw [State.toIssue_eq]
  cases latestDue (cameOn s.now s.xps.pending dest) with
  | none => simp
  | some x => rfl

theorem State.issueOn_now (s : State) (dest : Nat) : (s.issueOn dest).now = s.now :=
  congrArg Cdu.now ((s.issueOn_acts dest).only .cadence (by simp))

/-- What leaves one destination's share leaves the others' as they are. -/
theorem cameOn_filter {now : LocalFrame} {pending : List Crosspoint} {dest d : Nat} (other : d ≠ dest) :
    cameOn now (pending.filter fun y => !(y.destination == dest && cameBy now y)) d = cameOn now pending d := by
  unfold cameOn
  rw [List.filter_filter]
  refine List.filter_congr fun y _ => ?_
  by_cases same : y.destination = d
  · simp [same, other]
  · simp [same]

theorem State.issueAll (s : State) {ds : List Nat} (once : ds.Nodup) :
    (ds.foldl State.issueOn s).xps.pending = s.xps.pending.filter (fun y => !(decide (y.destination ∈ ds) && cameBy s.now y))
      ∧ (ds.foldl State.issueOn s).xps.awaiting = s.xps.awaiting ++ ds.filterMap (sentOn s.now s.xps.pending) := by
  induction ds generalizing s with
  | nil => simp
  | cons d ds ih =>
    obtain ⟨out, once⟩ := List.nodup_cons.mp once
    obtain ⟨pending, awaiting⟩ := ih (s.issueOn d) once
    rw [State.issueOn_pending, State.issueOn_now] at pending awaiting
    rw [State.issueOn_awaiting] at awaiting
    have others : ds.filterMap (sentOn s.now (s.xps.pending.filter fun y => !(y.destination == d && cameBy s.now y)))
        = ds.filterMap (sentOn s.now s.xps.pending) :=
      List.filterMap_congr fun e held => by
        unfold sentOn
        rw [cameOn_filter fun same : e = d => out (same ▸ held)]
    refine ⟨?_, ?_⟩
    · rw [List.foldl_cons, pending, List.filter_filter]
      refine List.filter_congr fun y _ => ?_
      by_cases same : y.destination = d
      · simp [same, out]
      · simp [same]
    · rw [List.foldl_cons, awaiting, others, List.filterMap_cons]
      cases sentOn s.now s.xps.pending d <;> simp

theorem mem_destinations {n : Nat} : n ∈ destinations ↔ n < 64 := List.mem_range

theorem destinations_sorted : destinations.Pairwise (· < ·) := List.pairwise_lt_range

theorem destinations_nodup : destinations.Nodup := List.nodup_range

theorem sentOn_some {now : LocalFrame} {pending : List Crosspoint} {dest : Nat} {w : Awaiting} (h : sentOn now pending dest = some w) :
    w.left = 2 ∧ w.destination = dest ∧ ∃ x ∈ pending, x.destination = w.destination ∧ x.source = w.source ∧ x.channel = w.channel
      ∧ (now - x.due).toNat ≤ 2147483648 := by
  obtain ⟨x, latest, rfl⟩ := Option.map_eq_some_iff.mp h
  obtain ⟨held, test⟩ := List.mem_filter.mp (latestDue_mem latest)
  obtain ⟨dest, came⟩ := Bool.and_eq_true_iff.mp test
  exact ⟨rfl, eq_of_beq dest, x, held, rfl, rfl, rfl, atOrAfter_iff.mp came⟩

theorem mem_cameOn {now : LocalFrame} {pending : List Crosspoint} {x : Crosspoint} (held : x ∈ pending)
    (came : (now - x.due).toNat ≤ 2147483648) : x ∈ cameOn now pending x.destination :=
  List.mem_filter.mpr ⟨held, by simp [cameBy, atOrAfter_iff.mpr came]⟩

theorem exec_crosspointIssue {s : State} (running : s.power = .running) (event : s.cdu.windowEvent = true)
    (notTaken : s.xps.eventTaken = false) : exec .crosspointIssue s = .next (destinations.foldl State.issueOn s).takeEvent := by
  show execCrosspointIssue s = _
  exact whenRunning_next running (if_pos (by rw [event, notTaken]; rfl))

/-! ## ROUTE places one for the next switch-window event (R130) -/

theorem State.nextWindowFrame_eq (s : State) : s.nextWindowFrame = if s.cdu.windowOpened then s.cdu.now + 1 else s.cdu.now := rfl

theorem State.route_placed (s : State) (c : Channel) (p : SitePort) (source : Nat) :
    placed s (s.route c p source) ⟨(s.cfg c).destination, s.nextWindowFrame, source, c⟩ :=
  placed_of_same (s.placeXp_placed _) (SameRouting.refl s) rfl rfl

theorem State.routeRequest_held {s : State} {c : Channel} {p : SitePort} {a : OnAir} (record : s.authority c = .held p a) {n : Nat}
    (source : n ≤ 255) : s.routeRequest c n = (s.route c p n).done [] := by
  rw [State.routeRequest, record]
  exact if_neg (by omega)

/-- The owner of a request of the holder that names a channel. -/
theorem owned_holder {α : Type} {s : State} {p : SitePort} {tag : Tag} {x : α} {ch : Byte} {c : Channel} (channel : α → Byte)
    (here : channel x = ch) (names : ch.toNat = c.val)
    (own : (s.authority c).holder = none ∨ (s.authority c).holder = some p) (owner : State → α → Channel → Verdict) :
    owned (.formed tag x) (fun x s => s.onChannel (channel x) fun c => s.asHolder p c (owner s x c)) s = owner s x c := by
  subst here
  exact (State.onChannel_of names _).trans (asHolder_own own _)

theorem exec_route {s : State} {p : SitePort} {tag : Tag} {ch : Byte} {c : Channel} {a : OnAir} {x : BitVec 16} (take : canTake s p)
    (names : ch.toNat = c.val) (record : s.authority c = .held p a) (source : x.toNat ≤ 255) :
    exec (.route p (.formed tag ⟨ch, x⟩)) s = .next (((s.validFrame p).route c p x.toNat).queueAnswer p ⟨tag, 0x2A, .done, []⟩) := by
  have decided := (owned_holder (s := s.validFrame p) (p := p) (tag := tag) (x := (⟨ch, x⟩ : RouteFields)) (fun x => x.channel) rfl names
    (Or.inr (congrArg Authority.holder record)) (fun s x c => s.routeRequest c x.source.toNat)).trans
    (State.routeRequest_held (s := s.validFrame p) record source)
  exact asked_next (tag := tag) rfl take decided

theorem State.route_only {s : State} {c : Channel} {p : SitePort} {a : OnAir} (record : s.authority c = .held p a) (source : Nat) :
    OnlyChanges [.authority c, .plan c, .crosspoints] s (s.route c p source) :=
  (s.route_acts c p source (by rw [record]; rfl)).only

theorem asked_routed {s : State} {p : SitePort} {c : Channel} {a : OnAir} (record : s.authority c = .held p a) (source : Nat)
    (tag : Tag) : OnlyChanges (requestParts ++ [.authority c, .plan c, .crosspoints]) s
      (((s.validFrame p).route c p source).queueAnswer p ⟨tag, 0x2A, .done, []⟩) :=
  (request_only (State.route_only (s := s.validFrame p) record source) _).mono
    (List.append_subset.mpr ⟨List.subset_append_right _ _, List.subset_append_left _ _⟩)

/-- Settles O48: the event destination by destination, a placed crosspoint by whether its window is open. -/
theorem crosspointsAreIssuedAtTheirFrame : Obligations.CrosspointsAreIssuedAtTheirFrame := by
  refine ⟨fun s running event notTaken small => ?_, fun s x => ⟨s.placeXp_placed x, (s.placeXp_acts x).only⟩,
    fun s p tag ch c a x take names record source => ?_⟩
  · have run := exec_crosspointIssue running event notTaken
    obtain ⟨pending, awaiting⟩ := s.issueAll destinations_nodup
    generalize destinations.foldl State.issueOn s = u at run pending awaiting
    refine ⟨_, destinations.filterMap (sentOn s.now s.xps.pending), run, rfl, ?_, awaiting, fun w held => ?_, ?_, fun x held came => ?_,
      fun x held came recent => ?_, exec_only run⟩
    · refine Eq.trans pending (List.filter_congr fun y held => ?_)
      rw [decide_eq_true (mem_destinations.mpr (small y held)), Bool.true_and, cameBy, Bool.eq_iff_iff, Bool.not_eq_true',
        atOrAfter_false, decide_eq_true_iff]
      rfl
    · obtain ⟨d, _, sent⟩ := List.mem_filterMap.mp held
      obtain ⟨left, _, rest⟩ := sentOn_some sent
      exact ⟨left, rest⟩
    · refine List.Pairwise.filterMap _ (fun d e less w hw v hv => ?_) destinations_sorted
      rw [(sentOn_some hw).2.1, (sentOn_some hv).2.1]
      exact less
    · have due := latestDue_isSome (List.ne_nil_of_mem (mem_cameOn (now := s.cdu.now) held came))
      obtain ⟨y, latest⟩ := Option.isSome_iff_exists.mp due
      have sent : sentOn s.now s.xps.pending x.destination = some ⟨y.destination, y.source, y.channel, 2⟩ := by
        unfold sentOn
        exact Option.map_eq_some_iff.mpr ⟨y, latest, rfl⟩
      exact ⟨_, List.mem_filterMap.mpr ⟨x.destination, mem_destinations.mpr (small x held), sent⟩, (sentOn_some sent).2.1⟩
    · have here := mem_cameOn (now := s.cdu.now) held (Nat.le_of_lt came)
      have latest : latestDue (cameOn s.cdu.now s.xps.pending x.destination) = some x := by
        refine latestDue_of_recent (now := s.cdu.now) here fun y other => ?_
        obtain ⟨isPending, test⟩ := List.mem_filter.mp other
        obtain ⟨dest, past⟩ := Bool.and_eq_true_iff.mp test
        exact recent y isPending (eq_of_beq dest) (atOrAfter_iff.mp past)
      have sent : sentOn s.now s.xps.pending x.destination = some ⟨x.destination, x.source, x.channel, 2⟩ := by
        unfold sentOn
        exact Option.map_eq_some_iff.mpr ⟨x, latest, rfl⟩
      exact ⟨_, List.mem_filterMap.mpr ⟨x.destination, mem_destinations.mpr (small x held), sent⟩, rfl, rfl, rfl⟩
  · refine ⟨_, exec_route take names record source, ?_, asked_routed record _ tag⟩
    have placed := (s.validFrame p).route_placed c p x.toNat
    exact placed_of_same placed ((s.validFrame_acts p).only.routing (by simp [takingParts]) (by simp [takingParts])) rfl rfl

/-! # Acknowledgements (R158, R160) -/

theorem takeOldest_found {p : Awaiting → Bool} {pre post : List Awaiting} {x : Awaiting} (here : p x = true) (older : ∀ y ∈ pre, p y = false) :
    takeOldest p (pre ++ x :: post) = some (x, pre ++ post) := by
  induction pre with
  | nil => exact if_pos here
  | cons y ys ih =>
    have no := older y (List.mem_cons_self ..)
    rw [List.cons_append, takeOldest, if_neg (Bool.eq_false_iff.mp no), ih fun z h => older z (List.mem_cons_of_mem _ h)]
    rfl

theorem takeOldest_none {p : Awaiting → Bool} {xs : List Awaiting} (nobody : ∀ y ∈ xs, p y = false) : takeOldest p xs = none := by
  induction xs with
  | nil => rfl
  | cons y ys ih =>
    rw [takeOldest, if_neg (Bool.eq_false_iff.mp (nobody y (List.mem_cons_self ..))), ih fun z h => nobody z (List.mem_cons_of_mem _ h)]

/-- The last acknowledged source of a destination replaced, before the tallies are re-evaluated. -/
def State.putLastAck (s : State) (dest source : Nat) : State :=
  { s with xps := { s.xps with lastAck := s.xps.lastAck.setIfInBounds dest (some source) } }

/-- R160: the tallies of a destination's channels re-evaluated. -/
def State.evalTalliesOn (s : State) (dest : Nat) : State :=
  channels.foldl (fun t c => if (t.cfg c).destination == dest then t.evalTally c else t) s

theorem State.acknowledge_eq (s : State) (dest source : Nat) : s.acknowledge dest source = (s.putLastAck dest source).evalTalliesOn dest := rfl

theorem State.evalTalliesOn_lastAck (s : State) (dest : Nat) : (s.evalTalliesOn dest).xps.lastAck = s.xps.lastAck := by
  unfold State.evalTalliesOn
  induction channels generalizing s with
  | nil => rfl
  | cons c cs ih =>
    rw [List.foldl_cons, ih]
    split <;> rfl

theorem State.acknowledge_lastAckOf {s : State} {dest source e : Nat} (small : dest < 64) :
    (s.acknowledge dest source).lastAckOf e = if e = dest then some source else s.lastAckOf e := by
  rw [State.acknowledge_eq, State.lastAckOf, State.evalTalliesOn_lastAck]
  show ((s.xps.lastAck.setIfInBounds dest (some source))[e]?).join = _
  rw [Vector.getElem?_setIfInBounds]
  by_cases same : e = dest
  · simp [same, small]
  · simp [same, Ne.symm same, State.lastAckOf]

theorem State.acknowledge_tally (s : State) (dest source : Nat) (c : Channel) :
    (s.acknowledge dest source).xps.tally[c]
      = if (s.cfg c).destination = dest then (s.putLastAck dest source).tallyValue c else s.xps.tally[c] := by
  have fold := (s.putLastAck dest source).evalTallies dest channels c
  rw [State.acknowledge_eq, State.evalTalliesOn, fold]
  simp only [mem_channels, true_and]
  rfl

theorem State.putLastAck_tallyValue {s : State} {c : Channel} {dest source : Nat} (small : dest < 64)
    (here : (s.cfg c).destination = dest) : (s.putLastAck dest source).tallyValue c
      = ((s.authority c).name.standbyOnAir && source != (s.cfg c).mainSource) := by
  have last : (s.putLastAck dest source).lastAckOf (s.cfg c).destination = some source := by
    show ((s.xps.lastAck.setIfInBounds dest (some source))[(s.cfg c).destination]?).join = _
    rw [here, Vector.getElem?_setIfInBounds]
    simp [small]
  unfold State.tallyValue
  rw [show (s.putLastAck dest source).cfg c = s.cfg c from rfl, last]
  rfl

theorem awaitingTest_iff {d n : Byte} {y : Awaiting} :
    (y.destination == d.toNat && y.source == n.toNat) = false ↔ ¬(y.destination = d.toNat ∧ y.source = n.toNat) := by
  rw [← Bool.not_eq_true, Bool.and_eq_true, beq_iff_eq, beq_iff_eq]

theorem exec_crosspointAck_found {s : State} {x : Awaiting} {pre post : List Awaiting} {d n : Byte} (running : s.power = .running)
    (awaiting : s.xps.awaiting = pre ++ x :: post) (dest : x.destination = d.toNat) (source : x.source = n.toNat)
    (older : ∀ y ∈ pre, ¬(y.destination = x.destination ∧ y.source = x.source)) (r : Byte) :
    exec (.crosspointAck d n r) s = .next (if r = 0 then (s.putAwaiting (pre ++ post)).acknowledge x.destination x.source
      else (s.putAwaiting (pre ++ post)).raise .routeUnconfirmed x.channel) := by
  have oldest : takeOldest (fun y => y.destination == d.toNat && y.source == n.toNat) s.xps.awaiting = some (x, pre ++ post) := by
    rw [awaiting]
    refine takeOldest_found (by simp [dest, source]) fun y held => ?_
    rw [awaitingTest_iff, ← dest, ← source]
    exact older y held
  show execCrosspointAck d n r s = _
  refine whenRunning_next running ?_
  simp only [oldest]

theorem exec_crosspointAck_none {s : State} {d n : Byte} (running : s.power = .running)
    (none : ∀ y ∈ s.xps.awaiting, ¬(y.destination = d.toNat ∧ y.source = n.toNat)) (r : Byte) :
    exec (.crosspointAck d n r) s = .next s := by
  have nobody : takeOldest (fun y => y.destination == d.toNat && y.source == n.toNat) s.xps.awaiting = Option.none :=
    takeOldest_none fun y held => awaitingTest_iff.mpr (none y held)
  show execCrosspointAck d n r s = _
  refine whenRunning_next running ?_
  simp only [nobody]

theorem exec_crosspointAckTimeout {s : State} {x : Awaiting} {pre post : List Awaiting} {d : Fin 64} (running : s.power = .running)
    (awaiting : s.xps.awaiting = pre ++ x :: post) (dest : x.destination = d.val) (out : x.left = 0)
    (older : ∀ y ∈ pre, ¬(y.destination = d.val ∧ y.left = 0)) :
    exec (.crosspointAckTimeout d) s = .next ((s.putAwaiting (pre ++ post)).raise .routeUnconfirmed x.channel) := by
  have oldest : takeOldest (fun y => y.destination == d.val && y.left == 0) s.xps.awaiting = some (x, pre ++ post) := by
    rw [awaiting]
    refine takeOldest_found (by simp [dest, out]) fun y held => ?_
    rw [← Bool.not_eq_true, Bool.and_eq_true, beq_iff_eq, beq_iff_eq]
    exact older y held
  show execCrosspointAckTimeout d s = _
  refine whenRunning_next running ?_
  simp only [oldest]

/-- An awaiting crosspoint that leaves unconfirmed. -/
theorem State.unconfirmed (s : State) (xs : List Awaiting) (c : Channel) :
    ((s.putAwaiting xs).raise .routeUnconfirmed c).xps.awaiting = xs
      ∧ ((s.putAwaiting xs).raise .routeUnconfirmed c).channelFlag .routeUnconfirmed c = true
      ∧ OnlyChanges (.crosspoints :: flagParts c) s ((s.putAwaiting xs).raise .routeUnconfirmed c) :=
  ⟨rfl, State.raise_set _ _ c, ((s.putAwaiting_acts xs).only.mono (by simp)).trans ((State.raise_acts _ _ c).only.mono (by simp))⟩

/-- Settles O49: the oldest match leaves, and what follows goes by the result. -/
theorem acknowledgementsAreMatched : Obligations.AcknowledgementsAreMatched := by
  intro s x pre post running awaiting
  refine ⟨fun d n dest small source older => ⟨?_, fun r negative => ?_⟩, fun d dest out older => ?_, fun d n r none => ?_⟩
  · have run := exec_crosspointAck_found running awaiting dest source older 0
    rw [if_pos rfl, dest, source] at run
    have only : OnlyChanges ([.crosspoints, .acknowledged] ++ everyChannel fun c => [.tally c]) s
        ((s.putAwaiting (pre ++ post)).acknowledge d.toNat n.toNat) :=
      ((s.putAwaiting_acts _).only.mono (by simp)).trans
        ((State.acknowledge_acts _ _ _).only.mono (List.subset_cons_self _ _))
    have left : ((s.putAwaiting (pre ++ post)).acknowledge d.toNat n.toNat).xps.awaiting = pre ++ post :=
      (((State.acknowledge_acts (s.putAwaiting (pre ++ post)) d.toNat n.toNat).only).routing (by simp [acknowledgeParts, everyChannel])
        (by simp [acknowledgeParts, everyChannel])).awaiting
    refine ⟨_, run, left, ?_, fun e other => ?_, fun c here => ?_, fun c other => ?_, only⟩
    · rw [State.acknowledge_lastAckOf small, if_pos rfl]
    · rw [State.acknowledge_lastAckOf small, if_neg other]
      rfl
    · have tally := (s.putAwaiting (pre ++ post)).acknowledge_tally d.toNat n.toNat c
      rw [if_pos (show ((s.putAwaiting (pre ++ post)).cfg c).destination = d.toNat from here), State.putLastAck_tallyValue (s := s.putAwaiting (pre ++ post)) small here] at tally
      rw [tally, Bool.and_eq_true, bne_iff_ne]
      exact Iff.rfl
    · exact ((s.putAwaiting (pre ++ post)).acknowledge_tally d.toNat n.toNat c).trans (if_neg other)
  · have run := exec_crosspointAck_found running awaiting dest source older r
    rw [if_neg negative] at run
    exact ⟨_, run, s.unconfirmed (pre ++ post) x.channel⟩
  · exact ⟨_, exec_crosspointAckTimeout running awaiting dest out older, s.unconfirmed (pre ++ post) x.channel⟩
  · exact exec_crosspointAck_none running none r

end Sys2Proof.Machine

namespace Sys2Proof.Machine

/-! # Back to MAIN, and abort (R126, R135, R143, R148) -/

/-- R139: a player once a segment is on air. -/
theorem playersOnAir_get (uses : Option Player) (v : PerSide PlayerState) (q : Player) :
    (playersOnAir uses v).get q = if uses = some q then .onAir else if v.get q = .onAir then .idle else v.get q := by
  cases q <;> rfl

theorem playersOnAir_none (v : PerSide PlayerState) (q : Player) :
    (playersOnAir none v).get q = v.get q ∨ (playersOnAir none v).get q = .idle := by
  rw [playersOnAir_get, if_neg nofun]
  split
  · exact Or.inr rfl
  · exact Or.inl rfl

theorem playersOnAir_off (v : PerSide PlayerState) (q : Player) : (playersOnAir none v).get q ≠ .onAir := by
  rw [playersOnAir_get, if_neg nofun]
  split
  · decide
  · next off => exact off

theorem State.cueToMain_withdraws (s : State) (c : Channel) : Withdraws c s (s.cueToMain c) :=
  Withdraws.of_players fun q => playersOnAir_none _ q

theorem State.cueToMain_cue (s : State) (c : Channel) :
    ((s.cueToMain c).cue c).planned = [] ∧ ((s.cueToMain c).cue c).anchor = none := by
  rw [State.cueToMain, State.cue_putCue, if_pos rfl]
  exact ⟨rfl, rfl⟩

theorem State.setAuthority_withdraws (s : State) (c d : Channel) (r : Authority) : Withdraws c s (s.setAuthority d r) :=
  (Withdraws.of_cus c rfl rfl rfl : Withdraws c s (s.putAuthority d r)).trans (State.announce_withdraws _ c d)

theorem State.setAuthority_cue (s : State) (c d : Channel) (r : Authority) : (s.setAuthority c r).cue d = s.cue d :=
  (s.putAuthority c r).announce_cue c d

theorem State.setAuthority_flag (s : State) (c : Channel) (r : Authority) : (s.setAuthority c r).channelFlag .authorityChange c = true :=
  (s.putAuthority c r).announce_flag c

theorem State.setAuthority_routing (s : State) (c : Channel) (r : Authority) : SameRouting s (s.setAuthority c r) :=
  SameRouting.trans (t := s.putAuthority c r) ⟨rfl, rfl, rfl, rfl⟩ (State.announce_routing _ c)

theorem State.setAuthority_record (s : State) (c : Channel) (r : Authority) : (s.setAuthority c r).authority c = r := by
  rw [State.setAuthority_authority, if_pos rfl]

/-- R160: a channel that becomes MAIN shows no standby material. -/
theorem State.setAuthority_main_tally (s : State) (c : Channel) : (s.setAuthority c .main).xps.tally[c] = false := by
  have tally := (s.putAuthority c .main).announce_tally c c
  rw [if_pos rfl] at tally
  rw [State.setAuthority, tally, State.tallyValue, State.authority_putAuthority, if_pos rfl]
  rfl

/-- What becomes of a channel that is MAIN again. -/
structure MainAgain (c : Channel) (t : State) : Prop where
  record : t.authority c = .main
  planned : (t.cue c).planned = []
  anchor : (t.cue c).anchor = none
  tally : t.xps.tally[c] = false
  flag : t.channelFlag .authorityChange c = true

theorem State.becomeMain_mainAgain (s : State) (c : Channel) : MainAgain c (s.becomeMain c) := by
  obtain ⟨planned, anchor⟩ := (s.withdrawPlan c).cueToMain_cue c
  refine ⟨State.setAuthority_record _ c .main, ?_, ?_, State.setAuthority_main_tally _ c, State.setAuthority_flag _ c .main⟩
  · rw [State.becomeMain, State.setAuthority_cue, planned]
  · rw [State.becomeMain, State.setAuthority_cue, anchor]

/-- From the withdrawal of the plan to MAIN nothing is cued or placed. -/
theorem State.mainFrom_withdraws (s : State) (c : Channel) : Withdraws c s ((s.cueToMain c).setAuthority c .main) :=
  (s.cueToMain_withdraws c).trans (State.setAuthority_withdraws _ c c .main)

theorem State.becomeMain_withdraws (s : State) (c : Channel) : Withdraws c s (s.becomeMain c) :=
  (s.withdrawPlanned_withdraws c _).trans (State.mainFrom_withdraws _ c)

theorem State.mainFrom_pending (s : State) (c : Channel) : ((s.cueToMain c).setAuthority c .main).xps.pending = s.xps.pending :=
  (State.setAuthority_routing (s.cueToMain c) c .main).pending

theorem State.becomeMain_sub (s : State) (c : Channel) : (s.becomeMain c).xps.pending ⊆ s.xps.pending := by
  intro x h
  rw [State.becomeMain, State.mainFrom_pending] at h
  exact s.withdrawPlanned_sub c _ h

theorem State.becomeMain_planWithdrawn (s : State) (c : Channel) : planWithdrawn s (s.becomeMain c) c fun _ => True :=
  planWithdrawn_after (planWithdrawn_mono (s.withdrawPlanned_planWithdrawn c fun _ => true) fun _ _ => rfl) (State.mainFrom_withdraws _ c)

theorem State.becomeMain_routeWithdrawn (s : State) (c : Channel) {g : Planned} (held : g ∈ (s.cue c).planned) :
    routeWithdrawn s (s.becomeMain c) c g.start := by
  refine routeWithdrawn_after (s.withdrawPlanned_routeWithdrawn c (p := fun _ => true) held rfl) ?_
  rw [State.becomeMain, State.mainFrom_pending]
  exact fun _ h => h

/-- R126: an abort withdraws the join plan's first segment and leaves the channel MAIN. -/
structure Aborted (s t : State) (c : Channel) (plan : JoinPlan) : Prop where
  main : MainAgain c t
  route : routeWithdrawn s t c plan.start
  cue : ∀ q, plan.player = some q → cueWithdrawn s t c q plan.start
  unqueued : plan.player.isSome → ∀ x ∈ t.cus.queue, x.isPlayOf c plan.start = false

theorem State.abort_aborted (s : State) (c : Channel) (plan : JoinPlan) : Aborted s (s.abort c plan) c plan := by
  have rest := (s.withdrawSegment c plan.player plan.start).becomeMain_withdraws c
  refine ⟨State.becomeMain_mainAgain _ c, routeWithdrawn_after (s.withdrawSegment_routeWithdrawn c _ _) (State.becomeMain_sub _ c),
    fun q player => ?_, fun player => ?_⟩
  · have cue := s.withdrawSegment_cueWithdrawn c q plan.start
    rw [← player] at cue
    exact cueWithdrawn_after cue rest
  · obtain ⟨q, player⟩ := Option.isSome_iff_exists.mp player
    have none := s.withdrawSegment_unqueued c q plan.start
    rw [← player] at none
    exact State.playQueued_false.mp (rest.playQueued none)

/-- A withdrawal is by the cues, the settings and the frame in progress. -/
theorem cueWithdrawn_of_same {s u t : State} {c : Channel} {q : Player} {e : LocalFrame} (h : cueWithdrawn u t c q e) (settings : u.live = s.live)
    (cadence : u.cdu = s.cdu) (cue : u.cue c = s.cue c) (queue : u.cus.queue = s.cus.queue) (txn : u.cus.txn = s.cus.txn) :
    cueWithdrawn s t c q e := by
  unfold cueWithdrawn State.playQueued State.playerState at h ⊢
  rw [queue, txn, cue, cadence, State.cfg_eq settings] at h
  exact h

theorem planWithdrawn_of_same {s u t : State} {c : Channel} {p : Planned → Prop} (h : planWithdrawn u t c p) (settings : u.live = s.live)
    (cadence : u.cdu = s.cdu) (cue : u.cue c = s.cue c) (queue : u.cus.queue = s.cus.queue) (txn : u.cus.txn = s.cus.txn) :
    planWithdrawn s t c p := by
  unfold planWithdrawn at h ⊢
  rw [cue] at h
  exact fun g held meets q player alone => cueWithdrawn_of_same (h g held meets q player alone) settings cadence cue queue txn

/-- An abort seen from a state that differs in nothing it reads, and in one that differs in nothing it writes. -/
theorem Aborted.of_only {ps : List Part} {s u v : State} {c : Channel} {plan : JoinPlan} (h : Aborted u v c plan) (first : OnlyChanges ps s u)
    (reads : ∀ q ∈ [Part.settings, .cadence, .plan c, .cueQueue], q ∉ ps) : Aborted s v c plan := by
  have settings : u.live = s.live := first .settings (reads _ (by simp))
  have cadence : u.cdu = s.cdu := first .cadence (reads _ (by simp))
  have cue : u.cue c = s.cue c := first (.plan c) (reads _ (by simp))
  obtain ⟨queue, txn⟩ := Prod.mk.inj (first .cueQueue (reads _ (by simp)))
  exact ⟨h.main, routeWithdrawn_of_settings h.route settings,
    fun q player => cueWithdrawn_of_same (h.cue q player) settings cadence cue queue txn, h.unqueued⟩

/-! # CANCEL, HOLD and ROUTE (R125, R128, R130) -/

theorem State.cancelArming_armed {s : State} {c : Channel} {o : Origin} {plan : JoinPlan} (record : s.authority c = .armed o plan) :
    s.cancelArming c = (s.abort c plan).done [] := by
  rw [State.cancelArming, record]

theorem State.cancelArming_other {s : State} {c : Channel} (other : ∀ o plan, s.authority c ≠ .armed o plan) :
    s.cancelArming c = s.refuse .wrongState := by
  rw [State.cancelArming]
  split
  · next record => exact absurd record (other _ _)
  all_goals rfl

/-- R128: HOLD by the state of the channel. -/
theorem State.holdRequest_eq (s : State) (p : SitePort) (c : Channel) : s.holdRequest p c =
    match s.authority c with
    | .main => s.refuse .wrongState
    | .armed _ _ => s.refuse .busy
    | .returning _ _ _ _ => s.refuse .busy
    | .held _ _ => s.done []
    | .standby a => (s.hold c p a).done [] := by
  unfold State.holdRequest
  cases s.authority c <;> rfl

/-- R130: ROUTE by the state of the channel. -/
theorem State.routeRequest_eq (s : State) (c : Channel) (n : Nat) : s.routeRequest c n =
    match s.authority c with
    | .main => s.refuse .wrongState
    | .standby _ => s.refuse .wrongState
    | .armed _ _ => s.refuse .busy
    | .returning _ _ _ _ => s.refuse .busy
    | .held h _ => if 255 < n then s.refuse .badValue else (s.route c h n).done [] := by
  unfold State.routeRequest
  cases s.authority c <;> rfl

/-- R128: a hold withdraws the plan and keeps the segment on air. -/
structure Held (s t : State) (c : Channel) (p : SitePort) (a : OnAir) : Prop where
  record : t.authority c = .held p a
  planned : (t.cue c).planned = []
  flag : t.channelFlag .authorityChange c = true
  cues : planWithdrawn s t c fun _ => True
  routes : ∀ g ∈ (s.cue c).planned, routeWithdrawn s t c g.start

theorem State.hold_held (s : State) (c : Channel) (p : SitePort) (a : OnAir) : Held s (s.hold c p a) c p a := by
  refine ⟨State.setAuthority_record _ c _, ?_, State.setAuthority_flag _ c _, ?_, fun g held => ?_⟩
  · rw [State.hold, State.setAuthority_cue, State.withdrawPlan_planned]
  · exact planWithdrawn_after (planWithdrawn_mono (s.withdrawPlanned_planWithdrawn c fun _ => true) fun _ _ => rfl)
      (State.setAuthority_withdraws _ c c _)
  · refine routeWithdrawn_after (s.withdrawPlanned_routeWithdrawn c (p := fun _ => true) held rfl) fun x h => ?_
    rw [State.hold, (State.setAuthority_routing (s.withdrawPlan c) c _).pending] at h
    exact h

theorem Held.of_only {ps : List Part} {s u v : State} {c : Channel} {p : SitePort} {a : OnAir} (h : Held u v c p a) (first : OnlyChanges ps s u)
    (reads : ∀ q ∈ [Part.settings, .cadence, .plan c, .cueQueue], q ∉ ps) : Held s v c p a := by
  have settings : u.live = s.live := first .settings (reads _ (by simp))
  have cue : u.cue c = s.cue c := first (.plan c) (reads _ (by simp))
  obtain ⟨queue, txn⟩ := Prod.mk.inj (first .cueQueue (reads _ (by simp)))
  refine ⟨h.record, h.planned, h.flag, planWithdrawn_of_same h.cues settings (first .cadence (reads _ (by simp))) cue queue txn,
    fun g held => routeWithdrawn_of_settings (h.routes g (by rw [cue]; exact held)) settings⟩

/-- A crosspoint for the next switch-window event waits for it. -/
theorem State.issuesAtOnce_next (s : State) : s.issuesAtOnce s.nextWindowFrame = false := by
  rw [State.issuesAtOnce_not_iff, State.nextWindowFrame_eq]
  cases opened : s.cdu.windowOpened with
  | true =>
    rw [if_pos rfl]
    refine Or.inl fun same => ?_
    have : (1 : BitVec 32) = 0 := by bv_omega
    exact absurd this (by decide)
  | false => exact Or.inr (Or.inl (by rw [State.windowOpen, opened]; rfl))

theorem State.placeOnAir_waits {s : State} {c : Channel} {due : LocalFrame} (waits : s.issuesAtOnce due = false) (x : Nat) :
    ⟨(s.cfg c).destination, due, x, c⟩ ∈ (s.placeOnAir c due x).xps.pending :=
  (sentOrPending_iff.mp (sentOrPending_of_placed (s.placeXp_placed ⟨(s.cfg c).destination, due, x, c⟩))).2 waits

theorem State.route_record (s : State) (c : Channel) (p : SitePort) (x : Nat) :
    (s.route c p x).authority c = .held p ⟨.routed, 0, some x, none, none, s.cdu.now⟩ := by
  rw [State.route, State.putCue_authority, State.authority_putAuthority, if_pos rfl]
  rfl

theorem State.route_players (s : State) (c : Channel) (p : SitePort) (x : Nat) (q : Player) :
    ((s.route c p x).cue c).players.get q ≠ .onAir := by
  rw [State.route, State.cue_putCue, if_pos rfl]
  exact playersOnAir_off _ q

/-- The states in which a channel is held by no other port. -/
theorem holder_own {s : State} {c : Channel} {p : SitePort}
    (state : s.authority c = .main ∨ (∃ o plan, s.authority c = .armed o plan) ∨ (∃ a, s.authority c = .standby a)
      ∨ (∃ a, s.authority c = .held p a) ∨ returningOwn s c p) :
    (s.authority c).holder = none ∨ (s.authority c).holder = some p := by
  rcases state with main | ⟨o, plan, record⟩ | ⟨a, record⟩ | ⟨a, record⟩ | own
  · rw [main]; exact Or.inl rfl
  · rw [record]; exact Or.inl rfl
  · rw [record]; exact Or.inl rfl
  · rw [record]; exact Or.inr rfl
  · exact holder_of_unheld (Or.inr (Or.inr (Or.inr own)))

section
variable {s : State} {p : SitePort} {tag : Tag} {ch : Byte} {c : Channel} (take : canTake s p) (names : ch.toNat = c.val)
include take names

theorem cancel_refused (other : ∀ o plan, s.authority c ≠ .armed o plan) :
    onlyAnswered (.cancel p (.formed tag ch)) s p tag 0x26 .wrongState :=
  asked_refused rfl take ((owned_channel (tag := tag) names (fun s c => s.cancelArming c) (s.validFrame p)).trans
    (State.cancelArming_other (s := s.validFrame p) other))

omit take in
theorem owned_hold (own : (s.authority c).holder = none ∨ (s.authority c).holder = some p) :
    owned (.formed tag ch) (fun ch s => s.onChannel ch fun c => s.asHolder p c (s.holdRequest p c)) (s.validFrame p)
      = (s.validFrame p).holdRequest p c :=
  owned_holder (s := s.validFrame p) (fun x => x) rfl names own fun s _ c => s.holdRequest p c

omit take in
theorem owned_route (own : (s.authority c).holder = none ∨ (s.authority c).holder = some p) (x : BitVec 16) :
    owned (.formed tag (⟨ch, x⟩ : RouteFields)) (fun x s => s.onChannel x.channel fun c => s.asHolder p c (s.routeRequest c x.source.toNat)) (s.validFrame p)
      = (s.validFrame p).routeRequest c x.toNat :=
  owned_holder (s := s.validFrame p) (x := (⟨ch, x⟩ : RouteFields)) (fun x => x.channel) rfl names own fun s x c => s.routeRequest c x.source.toNat

theorem hold_refused (own : (s.authority c).holder = none ∨ (s.authority c).holder = some p) {k : AnswerCode}
    (decided : (s.validFrame p).holdRequest p c = ⟨s.validFrame p, k, []⟩) : onlyAnswered (.hold p (.formed tag ch)) s p tag 0x27 k :=
  asked_refused rfl take ((owned_hold names own).trans decided)

theorem route_refused (own : (s.authority c).holder = none ∨ (s.authority c).holder = some p) {x : BitVec 16} {k : AnswerCode}
    (decided : (s.validFrame p).routeRequest c x.toNat = ⟨s.validFrame p, k, []⟩) :
    onlyAnswered (.route p (.formed tag ⟨ch, x⟩)) s p tag 0x2A k :=
  asked_refused rfl take ((owned_route names own x).trans decided)

/-- R127: a request of the port that does not hold the channel, whatever it carries. -/
theorem heldElsewhere {q : SitePort} (other : q ≠ p) (held : (s.authority c).holder = some q) (mode : Byte) (x : BitVec 16) :
    onlyAnswered (.hold p (.formed tag ch)) s p tag 0x27 .heldElsewhere
      ∧ onlyAnswered (.release p (.formed tag ch)) s p tag 0x28 .heldElsewhere
      ∧ onlyAnswered (.returnToMain p (.formed tag ⟨ch, mode⟩)) s p tag 0x29 .heldElsewhere
      ∧ onlyAnswered (.route p (.formed tag ⟨ch, x⟩)) s p tag 0x2A .heldElsewhere := by
  have elsewhere (owner : Channel → Verdict) :
      (s.validFrame p).onChannel ch (fun c => (s.validFrame p).asHolder p c (owner c)) = (s.validFrame p).refuse .heldElsewhere :=
    (State.onChannel_of names _).trans (asHolder_other (s := s.validFrame p) held other _)
  exact ⟨asked_refused rfl take (elsewhere _), asked_refused rfl take (elsewhere _), asked_refused rfl take (elsewhere _),
    asked_refused rfl take (elsewhere _)⟩

end

/-- R126: a health change into GOOD aborts an arming of origin AUTO. -/
theorem State.setHealth_armed {s : State} {c : Channel} {h : Health} {o : Origin} {plan : JoinPlan} (change : (s.watched c).health ≠ h)
    (record : s.authority c = .armed o plan) :
    s.setHealth c h = if h = .good ∧ o = .auto then (s.withHealth c h).abort c plan else s.withHealth c h := by
  rw [State.setHealth_reacts change, State.healthReaction, show (s.withHealth c h).authority c = .armed o plan from record]

/-- Settles O44: each request by the state of the channel, the abort by its origin. -/
theorem cancelHoldAndRoute : Obligations.CancelHoldAndRoute := by
  refine ⟨fun s p tag ch c take names => ⟨fun o plan record => ?_, fun a record => ?_, fun a x record source => ?_,
    cancel_refused take names, fun record => ?_, fun a record => ?_, fun state => ⟨?_, fun x => ?_⟩, fun state x => ?_,
    fun a x record source => ?_, fun q other state mode x => ?_⟩, fun s c h o plan change record => ⟨fun auto => ?_, fun other => ?_⟩⟩
  · have run : exec (.cancel p (.formed tag ch)) s = _ := asked_next (tag := tag) rfl take
      ((owned_channel (tag := tag) names (fun s c => s.cancelArming c) (s.validFrame p)).trans
        (State.cancelArming_armed (s := s.validFrame p) record))
    have aborted := ((s.validFrame p).abort_aborted c plan).of_only (s.validFrame_acts p).only (by simp [takingParts])
    obtain ⟨answer, only⟩ := authority_answered ((s.validFrame p).abort_acts c plan).only tag 0x26 .done []
    exact ⟨_, run, answer, aborted.main.record, aborted.main.planned, aborted.main.anchor, aborted.main.flag, aborted.cue, aborted.route,
      aborted.main.tally, only⟩
  · have run : exec (.hold p (.formed tag ch)) s = _ := asked_next (tag := tag) rfl take
      ((owned_hold names (Or.inl (congrArg Authority.holder record))).trans
        ((State.holdRequest_eq _ p c).trans (by rw [show (s.validFrame p).authority c = .standby a from record])))
    have held := ((s.validFrame p).hold_held c p a).of_only (s.validFrame_acts p).only (by simp [takingParts])
    obtain ⟨answer, only⟩ := authority_answered
      (((s.validFrame p).hold_acts c p a (Authority.standby_off (show (s.validFrame p).authority c = .standby a from record))).only) tag 0x27 .done []
    exact ⟨_, run, answer, held.record, held.planned, held.flag, held.cues, held.routes, only⟩
  · have only := State.route_only (s := s.validFrame p) record x.toNat
    refine ⟨_, exec_route take names record source, answered_of_only only (by simp) (by simp) _ _ _ _,
      (s.validFrame p).route_record c p x.toNat, ?_, (s.validFrame p).route_players c p x.toNat, asked_routed record _ tag⟩
    exact ⟨_, State.placeOnAir_waits (s := s.validFrame p) (State.issuesAtOnce_next _) x.toNat, rfl, rfl, rfl, rfl⟩
  · refine hold_refused take names (holder_own (Or.inl record)) ?_
    rw [State.holdRequest_eq, show (s.validFrame p).authority c = .main from record]
    rfl
  · refine hold_refused take names (Or.inr (congrArg Authority.holder record)) ?_
    rw [State.holdRequest_eq, show (s.validFrame p).authority c = .held p a from record]
    rfl
  · refine hold_refused take names (holder_own (state.elim (fun h => Or.inr (Or.inl h)) fun h => Or.inr (Or.inr (Or.inr (Or.inr h))))) ?_
    rw [State.holdRequest_eq]
    rcases state with ⟨o, plan, record⟩ | ⟨pr, m, point, a, record, _⟩
    · rw [show (s.validFrame p).authority c = .armed o plan from record]; rfl
    · rw [show (s.validFrame p).authority c = .returning pr m point a from record]; rfl
  · refine route_refused take names (holder_own (state.elim (fun h => Or.inr (Or.inl h)) fun h => Or.inr (Or.inr (Or.inr (Or.inr h))))) ?_
    rw [State.routeRequest_eq]
    rcases state with ⟨o, plan, record⟩ | ⟨pr, m, point, a, record, _⟩
    · rw [show (s.validFrame p).authority c = .armed o plan from record]; rfl
    · rw [show (s.validFrame p).authority c = .returning pr m point a from record]; rfl
  · refine route_refused take names (holder_own (state.elim Or.inl fun h => Or.inr (Or.inr (Or.inl h)))) ?_
    rw [State.routeRequest_eq]
    rcases state with record | ⟨a, record⟩
    · rw [show (s.validFrame p).authority c = .main from record]; rfl
    · rw [show (s.validFrame p).authority c = .standby a from record]; rfl
  · refine route_refused take names (Or.inr (congrArg Authority.holder record)) ?_
    rw [State.routeRequest_eq, show (s.validFrame p).authority c = .held p a from record]
    exact if_pos source
  · refine heldElsewhere take names other ?_ mode x
    rcases state with ⟨a, record⟩ | ⟨m, point, a, record⟩
    · rw [record]; rfl
    · rw [record]; rfl
  · have aborted := ((s.withHealth c h).abort_aborted c plan).of_only (s.withHealth_only c h) (by simp [flagParts])
    have only := (s.setHealth_acts c h).only
    rw [State.setHealth_armed change record, if_pos auto] at only ⊢
    exact ⟨aborted.main.record, aborted.main.planned, aborted.main.anchor, aborted.main.tally, aborted.main.flag, aborted.route, aborted.cue,
      aborted.unqueued, only⟩
  · have stays : ¬(h = .good ∧ o = .auto) := fun both => other.elim (fun e => e both.1) fun e => e both.2
    rw [State.setHealth_armed change record, if_neg stays]
    exact ⟨record, s.withHealth_only c h⟩

end Sys2Proof.Machine

namespace Sys2Proof.Machine

/-! # Planning segments (R144 to R146, R159) -/

/-! ## The segment that is appended -/

theorem State.airFrom_eq (s : State) (c : Channel) (g : Planned) : s.airFrom c g = airOfPlanned s c g := by
  obtain ⟨content, id, start, stop, placed⟩ := g
  cases content <;> rfl

theorem airOfPlanned_source (s : State) (c : Channel) (g : Planned) : (airOfPlanned s c g).source = s.routes c g.content := by
  rw [← State.airFrom_eq]
  rfl

theorem State.routes_eq {s t : State} (settings : t.live = s.live) (c : Channel) (x : PlannedContent) : t.routes c x = s.routes c x := by
  cases x <;> simp only [State.routes, State.playerSource, State.cfg_eq settings]

/-- R159: the source that a segment placed behind the plan routes, where it is another than that before it. -/
def State.newRoute (s : State) (c : Channel) (x : PlannedContent) : Option Nat :=
  if s.routes c x = s.sourceBefore c then none else s.routes c x

/-- The segment as it enters the plan. -/
def State.nextSegment (s : State) (c : Channel) (x : PlannedContent) (i : EventId) (e : LocalFrame) (stop : Option LocalFrame) : Planned :=
  ⟨x, i, e, stop, x.player.isNone && (s.newRoute c x).isSome⟩

theorem State.appendSegment_clip (s : State) (c : Channel) (q : Player) (clipId : List Byte) (m : Nat) (i : EventId) (e : LocalFrame)
    (stop : Option LocalFrame) (n : Nat) : s.appendSegment c (.clip q clipId m) i e stop n
      = State.queuePlay (s.putPlanned c ((s.cue c).planned ++ [s.nextSegment c (.clip q clipId m) i e stop])) c q clipId m e n i := rfl

theorem State.appendSegment_routed {s : State} {c : Channel} {x : PlannedContent} (other : x.player = none) {y : Nat}
    (route : s.newRoute c x = some y) (i : EventId) (e : LocalFrame) (stop : Option LocalFrame) (n : Nat) :
    s.appendSegment c x i e stop n = (s.putPlanned c ((s.cue c).planned ++ [s.nextSegment c x i e stop])).placeOnAir c e y := by
  unfold State.newRoute at route
  unfold State.appendSegment State.nextSegment State.newRoute
  rw [route]
  cases x with
  | clip q i m => cases other
  | _ => rfl

theorem State.appendSegment_unrouted {s : State} {c : Channel} {x : PlannedContent} (other : x.player = none)
    (route : s.newRoute c x = none) (i : EventId) (e : LocalFrame) (stop : Option LocalFrame) (n : Nat) :
    s.appendSegment c x i e stop n = s.putPlanned c ((s.cue c).planned ++ [s.nextSegment c x i e stop]) := by
  unfold State.newRoute at route
  unfold State.appendSegment State.nextSegment State.newRoute
  rw [route]
  cases x with
  | clip q i m => cases other
  | _ => rfl

/-- What a segment's entry does, by what it is: a clip's PLAY, another's crosspoint, or neither. -/
theorem State.appendSegment_cases {P : State → Prop} (s : State) (c : Channel) (x : PlannedContent) (i : EventId) (e : LocalFrame)
    (stop : Option LocalFrame) (n : Nat)
    (clip : ∀ q clipId m, x = .clip q clipId m →
      P (State.queuePlay (s.putPlanned c ((s.cue c).planned ++ [s.nextSegment c x i e stop])) c q clipId m e n i))
    (routed : ∀ y, x.player = none → s.newRoute c x = some y →
      P ((s.putPlanned c ((s.cue c).planned ++ [s.nextSegment c x i e stop])).placeOnAir c e y))
    (unrouted : x.player = none → s.newRoute c x = none → P (s.putPlanned c ((s.cue c).planned ++ [s.nextSegment c x i e stop]))) :
    P (s.appendSegment c x i e stop n) := by
  cases player : x.player with
  | some q =>
    cases x with
    | clip p clipId m => exact clip p clipId m rfl
    | _ => cases player
  | none =>
    cases route : s.newRoute c x with
    | some y =>
      rw [State.appendSegment_routed player route]
      exact routed y player route
    | none =>
      rw [State.appendSegment_unrouted player route]
      exact unrouted player route

theorem State.putPlanned_cue (s : State) (c : Channel) (xs : List Planned) : (s.putPlanned c xs).cue c = { s.cue c with planned := xs } := by
  rw [State.putPlanned, State.cue_putCue, if_pos rfl]

theorem State.placeXp_cus (s : State) (x : Crosspoint) : (s.placeXp x).cus = s.cus := by
  unfold State.placeXp
  split <;> rfl

theorem State.placeOnAir_cue (s : State) (c d : Channel) (e : LocalFrame) (x : Nat) : (s.placeOnAir c e x).cue d = s.cue d := by
  rw [State.cue, State.placeOnAir, State.placeXp_cus]
  rfl

section
variable (s : State) (c : Channel) (x : PlannedContent) (i : EventId) (e : LocalFrame) (stop : Option LocalFrame) (n : Nat)

theorem State.appendSegment_cue : (s.appendSegment c x i e stop n).cue c
    = { s.cue c with planned := (s.cue c).planned ++ [s.nextSegment c x i e stop] } := by
  refine s.appendSegment_cases (P := fun t => t.cue c = _) c x i e stop n (fun _ _ _ _ => ?_) (fun y _ _ => ?_) fun _ _ => ?_
  · exact State.putPlanned_cue s c _
  · rw [State.placeOnAir_cue]
    exact State.putPlanned_cue s c _
  · exact State.putPlanned_cue s c _

theorem State.appendSegment_live : (s.appendSegment c x i e stop n).live = s.live :=
  (s.appendSegment_acts c x i e stop n).only .settings (by simp [planParts])

theorem State.appendSegment_cdu : (s.appendSegment c x i e stop n).cdu = s.cdu :=
  (s.appendSegment_acts c x i e stop n).only .cadence (by simp [planParts])

theorem State.appendSegment_authority (d : Channel) : (s.appendSegment c x i e stop n).authority d = s.authority d :=
  (s.appendSegment_acts c x i e stop n).only (.authority d) (by simp [planParts])

theorem State.appendSegment_taken : (s.appendSegment c x i e stop n).xps.eventTaken = s.xps.eventTaken := by
  refine s.appendSegment_cases (P := fun t => t.xps.eventTaken = _) c x i e stop n (fun _ _ _ _ => rfl) (fun y _ _ => ?_) fun _ _ => rfl
  exact State.placeXp_taken _ _

theorem State.appendSegment_queue : s.cus.queue ⊆ (s.appendSegment c x i e stop n).cus.queue := by
  refine s.appendSegment_cases (P := fun t => s.cus.queue ⊆ t.cus.queue) c x i e stop n (fun _ _ _ _ => ?_) (fun y _ _ => ?_)
    fun _ _ _ h => h
  · exact fun y h => State.mem_queuePlay.mpr (Or.inr h)
  · rw [State.placeOnAir, State.placeXp_cus]
    exact fun _ h => h

theorem State.appendSegment_txn : (s.appendSegment c x i e stop n).cus.txn = s.cus.txn := by
  refine s.appendSegment_cases (P := fun t => t.cus.txn = s.cus.txn) c x i e stop n (fun _ _ _ _ => rfl) (fun y _ _ => ?_) fun _ _ => rfl
  rw [State.placeOnAir, State.placeXp_cus]
  rfl

/-- An entry that a segment brings is its own PLAY. -/
theorem State.of_mem_appendSegment_queue {y : CueEntry} (held : y ∈ (s.appendSegment c x i e stop n).cus.queue) :
    y ∈ s.cus.queue ∨ y.start = e := by
  revert held
  refine s.appendSegment_cases (P := fun t => y ∈ t.cus.queue → _) c x i e stop n (fun _ _ _ _ held => ?_) (fun z _ _ held => ?_)
    fun _ _ held => Or.inl held
  · rcases State.mem_queuePlay.mp held with rfl | old
    · exact Or.inr rfl
    · exact Or.inl old
  · rw [State.placeOnAir, State.placeXp_cus] at held
    exact Or.inl held

/-- A crosspoint that a segment brings is the channel's own, due at its start. -/
theorem State.of_mem_appendSegment_pending {y : Crosspoint} (held : y ∈ (s.appendSegment c x i e stop n).xps.pending) :
    y ∈ s.xps.pending ∨ y.channel = c ∧ y.due = e := by
  revert held
  refine s.appendSegment_cases (P := fun t => y ∈ t.xps.pending → _) c x i e stop n (fun _ _ _ _ held => Or.inl held) (fun z _ _ held => ?_)
    fun _ _ held => Or.inl held
  rcases State.of_mem_placeXp held with rfl | old
  · exact Or.inr ⟨rfl, rfl⟩
  · exact Or.inl old

/-- A segment displaces no crosspoint of another due frame. -/
theorem State.mem_appendSegment_pending {y : Crosspoint} (held : y ∈ s.xps.pending) (other : y.due ≠ e) :
    y ∈ (s.appendSegment c x i e stop n).xps.pending :=
  s.appendSegment_cases (P := fun t => y ∈ t.xps.pending) c x i e stop n (fun _ _ _ _ => held)
    (fun _ _ _ => State.mem_placeXp held fun same => other same.2) fun _ _ => held

theorem State.appendSegment_awaiting : s.xps.awaiting ⊆ (s.appendSegment c x i e stop n).xps.awaiting :=
  s.appendSegment_cases (P := fun t => s.xps.awaiting ⊆ t.xps.awaiting) c x i e stop n (fun _ _ _ _ _ h => h)
    (fun _ _ _ => (s.putPlanned c ((s.cue c).planned ++ [s.nextSegment c x i e stop])).placeXp_awaiting _) fun _ _ _ h => h

end

theorem sourceBeforeLast_of_planned {s t : State} {c : Channel} {g : Planned} (settings : t.live = s.live)
    (planned : (t.cue c).planned = (s.cue c).planned ++ [g]) (record : t.authority c = s.authority c) :
    sourceBeforeLast t c = s.sourceBefore c := by
  have air : t.airOf c = s.airOf c := congrArg Authority.air record
  unfold sourceBeforeLast State.sourceBefore
  rw [planned, List.dropLast_concat]
  cases (s.cue c).planned.getLast? with
  | none => rw [show (t.authority c).air = t.airOf c from rfl, air]
  | some b =>
    dsimp only
    rw [airOfPlanned_source, State.routes_eq settings]

/-- R159: a segment's crosspoint is placed where its source is another than that before it. -/
theorem State.appendSegment_segmentRouted (s : State) (c : Channel) (x : PlannedContent) (i : EventId) (e : LocalFrame)
    (stop : Option LocalFrame) (n : Nat) :
    segmentRouted s (s.appendSegment c x i e stop n) c (s.nextSegment c x i e stop) (s.sourceBefore c) := by
  have source : (airOfPlanned s c (s.nextSegment c x i e stop)).source = s.routes c x := airOfPlanned_source s c _
  unfold segmentRouted
  rw [source]
  dsimp only
  refine s.appendSegment_cases (P := fun t =>
    ((s.nextSegment c x i e stop).content.player.isSome →
      (s.nextSegment c x i e stop).placed = false ∧ ((s.nextSegment c x i e stop).start ≠ s.cdu.now →
        ∀ y ∈ t.xps.pending, y.channel = c → y.due = (s.nextSegment c x i e stop).start → y ∈ s.xps.pending))
    ∧ ((s.nextSegment c x i e stop).content.player = none →
      (∀ y, s.routes c x = some y → s.routes c x ≠ s.sourceBefore c →
        (s.nextSegment c x i e stop).placed = true
          ∧ sentOrPending s t ⟨(s.cfg c).destination, (s.nextSegment c x i e stop).start, y, c⟩)
      ∧ (s.routes c x = none ∨ s.routes c x = s.sourceBefore c →
        (s.nextSegment c x i e stop).placed = false ∧ ((s.nextSegment c x i e stop).start ≠ s.cdu.now →
          ∀ y ∈ t.xps.pending, y.channel = c → y.due = (s.nextSegment c x i e stop).start → y ∈ s.xps.pending))))
    c x i e stop n (fun q clipId m clip => ?_) (fun y player route => ?_) fun player route => ?_
  · subst clip
    exact ⟨fun _ => ⟨rfl, fun _ _ held _ _ => held⟩, fun none => nomatch none⟩
  · have placed : (s.nextSegment c x i e stop).placed = true := by
      show (x.player.isNone && (s.newRoute c x).isSome) = true
      rw [player, route]
      rfl
    have differs : s.routes c x ≠ s.sourceBefore c := fun same => by
      rw [State.newRoute, if_pos same] at route
      cases route
    have routes : s.routes c x = some y := by
      rw [State.newRoute, if_neg differs] at route
      exact route
    refine ⟨fun some => ?_, fun _ => ⟨fun z found _ => ⟨placed, ?_⟩, fun without => ?_⟩⟩
    · rw [show (s.nextSegment c x i e stop).content.player = x.player from rfl, player] at some
      cases some
    · cases routes.symm.trans found
      have here := (s.putPlanned c ((s.cue c).planned ++ [s.nextSegment c x i e stop])).placeXp_placed ⟨(s.cfg c).destination, e, y, c⟩
      exact sentOrPending_of_placed (placed_of_same here ⟨rfl, rfl, rfl, rfl⟩ rfl rfl)
    · rcases without with none | same
      · rw [none] at routes; cases routes
      · exact absurd same differs
  · have notPlaced : (s.nextSegment c x i e stop).placed = false := by
      show (x.player.isNone && (s.newRoute c x).isSome) = false
      rw [route]
      simp
    refine ⟨fun _ => ⟨notPlaced, fun _ _ held _ _ => held⟩, fun _ => ⟨fun z found differs => ?_, fun _ => ⟨notPlaced, fun _ _ held _ _ => held⟩⟩⟩
    rw [State.newRoute, if_neg differs, found] at route
    cases route

/-! ## A segment planned from a join or a lookup -/

/-- What the statements say of a segment that is last in the plan. -/
structure PlannedAs (s t : State) (c : Channel) (x : SegContent) (i : EventId) (e : LocalFrame) (stop : Option LocalFrame) (q : Player)
    (n : Nat) (g : Planned) : Prop where
  start : g.start = e
  id : g.id = i
  stop : g.stop = stop
  content : g.content = plannedContent x i q
  held : playHeld s t c x e i q n
  routed : segmentRouted s t c g (sourceBeforeLast t c)

theorem State.appendSegment_held (s : State) {c : Channel} {x : SegContent} {i : EventId} {e : LocalFrame} {stop : Option LocalFrame}
    {q : Player} {n : Nat} : playHeld s (s.appendSegment c (plannedContent x i q) i e stop n) c x e i q n := by
  intro clipId media clip
  subst clip
  exact ⟨_, State.mem_queuePlay.mpr (Or.inl rfl), rfl, rfl, rfl, rfl, rfl⟩

theorem State.appendSegment_plannedAs (s : State) (c : Channel) (x : SegContent) (i : EventId) (e : LocalFrame) (stop : Option LocalFrame)
    (q : Player) (n : Nat) : PlannedAs s (s.appendSegment c (plannedContent x i q) i e stop n) c x i e stop q n
      (s.nextSegment c (plannedContent x i q) i e stop) := by
  have cue := s.appendSegment_cue c (plannedContent x i q) i e stop n
  refine ⟨rfl, rfl, rfl, rfl, s.appendSegment_held, ?_⟩
  rw [sourceBeforeLast_of_planned (s.appendSegment_live c _ i e stop n) (congrArg CueChannel.planned cue)
    (s.appendSegment_authority c _ i e stop n c)]
  exact s.appendSegment_segmentRouted c _ i e stop n

/-- A segment planned from one state is so from an earlier one that brought no crosspoint of its own for that frame. -/
theorem segmentRouted_from {s u t : State} {c : Channel} {g : Planned} {b : Option Nat} (h : segmentRouted u t c g b)
    (settings : u.live = s.live) (cadence : u.cdu = s.cdu) (taken : u.xps.eventTaken = s.xps.eventTaken)
    (fresh : g.start ≠ s.cdu.now → ∀ y ∈ u.xps.pending, y.channel = c → y.due = g.start → y ∈ s.xps.pending) : segmentRouted s t c g b := by
  unfold segmentRouted at h ⊢
  rw [airOfPlanned_source, State.routes_eq settings] at h
  rw [airOfPlanned_source]
  dsimp only at h ⊢
  rw [cadence, State.cfg_eq settings] at h
  obtain ⟨clip, other⟩ := h
  refine ⟨fun player => ?_, fun player => ⟨fun y found differs => ?_, fun without => ?_⟩⟩
  · obtain ⟨notPlaced, old⟩ := clip player
    exact ⟨notPlaced, fun later y held channel due => fresh later y (old later y held channel due) channel due⟩
  · obtain ⟨placed, sent⟩ := (other player).1 y found differs
    exact ⟨placed, sentOrPending_of_mem sent cadence taken (fun m => m) fun _ m => m⟩
  · obtain ⟨notPlaced, old⟩ := (other player).2 without
    exact ⟨notPlaced, fun later y held channel due => fresh later y (old later y held channel due) channel due⟩

theorem PlannedAs.of_earlier {s u t : State} {c : Channel} {x : SegContent} {i : EventId} {e : LocalFrame} {stop : Option LocalFrame} {q : Player}
    {n : Nat} {g : Planned} (h : PlannedAs u t c x i e stop q n g) (settings : u.live = s.live) (cadence : u.cdu = s.cdu)
    (taken : u.xps.eventTaken = s.xps.eventTaken)
    (fresh : e ≠ s.cdu.now → ∀ y ∈ u.xps.pending, y.channel = c → y.due = e → y ∈ s.xps.pending) : PlannedAs s t c x i e stop q n g where
  start := h.start
  id := h.id
  stop := h.stop
  content := h.content
  held := playHeld_of_sub h.held settings fun _ m => m
  routed := segmentRouted_from h.routed settings cadence taken (by rw [h.start]; exact fresh)

/-- And it is so in a later state that differs in nothing that is said. -/
theorem segmentRouted_until {s t u : State} {c : Channel} {g : Planned} {b : Option Nat} (h : segmentRouted s t c g b)
    (pending : u.xps.pending = t.xps.pending) (awaiting : u.xps.awaiting = t.xps.awaiting) : segmentRouted s u c g b := by
  unfold segmentRouted sentOrPending at h ⊢
  rw [pending, awaiting]
  exact h

theorem PlannedAs.until {s t u : State} {c : Channel} {x : SegContent} {i : EventId} {e : LocalFrame} {stop : Option LocalFrame} {q : Player}
    {n : Nat} {g : Planned} (h : PlannedAs s t c x i e stop q n g) (queue : t.cus.queue ⊆ u.cus.queue) (pending : u.xps.pending = t.xps.pending)
    (awaiting : u.xps.awaiting = t.xps.awaiting) (before : sourceBeforeLast u c = sourceBeforeLast t c) : PlannedAs s u c x i e stop q n g where
  start := h.start
  id := h.id
  stop := h.stop
  content := h.content
  held := playHeld_of_sub h.held rfl queue
  routed := by
    rw [before]
    exact segmentRouted_until h.routed pending awaiting

/-! ## A boundary lookup (R145) -/

theorem State.noteExhausted_cue (s : State) (c : Channel) (b : Bool) : (s.noteExhausted c b).cue c = { s.cue c with exhausted := b } := by
  have put : (s.putCue c { s.cue c with exhausted := b }).cue c = { s.cue c with exhausted := b } := (s.cue_putCue c c _).trans (if_pos rfl)
  unfold State.noteExhausted State.raiseIf
  split <;> exact put

theorem State.noteExhausted_flag (s : State) (c : Channel) : (s.noteExhausted c true).channelFlag .listExhausted c = true :=
  State.raise_set (s.putCue c { s.cue c with exhausted := true }) .listExhausted c

/-- What noting an exhausted join or lookup leaves: everything but that note and the flag. -/
structure Noted (s t : State) : Prop where
  settings : t.live = s.live
  queue : t.cus.queue = s.cus.queue
  txn : t.cus.txn = s.cus.txn
  routing : SameRouting s t
  authority : ∀ c, t.authority c = s.authority c

theorem Noted.trans {s t u : State} (h : Noted s t) (k : Noted t u) : Noted s u :=
  ⟨k.settings.trans h.settings, k.queue.trans h.queue, k.txn.trans h.txn, h.routing.trans k.routing, fun c => (k.authority c).trans (h.authority c)⟩

theorem State.noteExhausted_noted (s : State) (c : Channel) (b : Bool) : Noted s (s.noteExhausted c b) := by
  unfold State.noteExhausted State.raiseIf
  split <;> exact ⟨rfl, rfl, rfl, ⟨rfl, rfl, rfl, rfl⟩, fun _ => rfl⟩

theorem State.planAt_eq {s : State} {c : Channel} {e : LocalFrame} {y : Placed} (found : s.lookupPlace c e = some y) (p : Player) (n : Nat) :
    s.planAt c e p n = (s.noteExhausted c y.exhausted).appendSegment c (plannedContent y.content y.id p) y.id e
      (y.length.map fun n => e + BitVec.ofNat 32 n) n := by
  simp only [State.planAt, found]

/-- R145: what a boundary lookup plans. -/
theorem State.planAt_planned {s : State} {c : Channel} {e : LocalFrame} {y : Placed} (found : s.lookupPlace c e = some y) (p : Player)
    (n : Nat) : ∃ g, (s.planAt c e p n).cue c = { s.cue c with exhausted := y.exhausted, planned := (s.cue c).planned ++ [g] }
      ∧ PlannedAs s (s.planAt c e p n) c y.content y.id e (y.length.map fun n => e + BitVec.ofNat 32 n) p n g
      ∧ (y.length = none → (s.planAt c e p n).channelFlag .listExhausted c = true)
      ∧ (s.planAt c e p n).authority c = s.authority c := by
  have noted := s.noteExhausted_noted c y.exhausted
  have cue := s.noteExhausted_cue c y.exhausted
  rw [State.planAt_eq found]
  refine ⟨_, ?_, ((s.noteExhausted c y.exhausted).appendSegment_plannedAs c y.content y.id e _ p n).of_earlier noted.settings
    noted.routing.cadence noted.routing.taken fun _ x held _ _ => by rw [← noted.routing.pending]; exact held, fun none => ?_, ?_⟩
  · rw [State.appendSegment_cue, cue]
  · have flags := (State.appendSegment_acts (s.noteExhausted c y.exhausted) c (plannedContent y.content y.id p) y.id e
      (y.length.map fun n => e + BitVec.ofNat 32 n) n).only (.channelFlags c) (by simp [planParts])
    have exhausted : y.exhausted = true := by rw [Placed.exhausted, none]; rfl
    rw [State.channelFlag_eq flags, exhausted]
    exact s.noteExhausted_flag c
  · rw [State.appendSegment_authority, noted.authority]

theorem State.planNext_lookedUp {s : State} {c : Channel} {e : LocalFrame} {y : Placed} (found : s.lookupPlace c e = some y) :
    ∃ g, (s.planNext c e).cue c = { s.cue c with exhausted := y.exhausted, planned := (s.cue c).planned ++ [g] }
      ∧ lookedUp s (s.planNext c e) c e y g ∧ (s.planNext c e).authority c = s.authority c := by
  obtain ⟨g, cue, planned, flag, record⟩ := s.planAt_planned found (s.nextPlayer c) 1
  exact ⟨g, cue, ⟨planned.start, planned.id, planned.stop, ⟨_, planned.content, planned.held⟩, flag, planned.routed⟩, record⟩

theorem State.planNext_none {s : State} {c : Channel} {e : LocalFrame} (none : s.lookupPlace c e = none) : s.planNext c e = s := by
  simp only [State.planNext, State.planAt, none]

theorem State.lookupPlace_eq {s t : State} {c : Channel} (anchor : (t.cue c).anchor = (s.cue c).anchor) (pages : t.pages c = s.pages c)
    (settings : t.live = s.live) (cadence : t.cdu = s.cdu) (e : LocalFrame) : t.lookupPlace c e = s.lookupPlace c e := by
  have format : t.format = s.format := congrArg (fun k : Cdu => k.frame.format) cadence
  unfold State.lookupPlace
  rw [anchor, pages, format, State.cfg_eq settings]

theorem State.lookupPlace_isSome {s : State} {c : Channel} (anchored : (s.cue c).anchor.isSome) (e : LocalFrame) :
    ∃ y, s.lookupPlace c e = some y := by
  obtain ⟨a, anchor⟩ := Option.isSome_iff_exists.mp anchored
  unfold State.lookupPlace
  rw [anchor]
  cases (s.pages c).active with
  | none => exact ⟨_, rfl⟩
  | some page => exact ⟨_, rfl⟩

/-- A lookup seen from a state that differs in nothing it reads and brought no crosspoint of the channel for that frame. -/
theorem lookedUp_from {s u t : State} {c : Channel} {e : LocalFrame} {y : Placed} {g : Planned} (h : lookedUp u t c e y g)
    (settings : u.live = s.live) (cadence : u.cdu = s.cdu) (taken : u.xps.eventTaken = s.xps.eventTaken)
    (fresh : e ≠ s.cdu.now → ∀ x ∈ u.xps.pending, x.channel = c → x.due = e → x ∈ s.xps.pending) : lookedUp s t c e y g := by
  obtain ⟨start, id, stop, ⟨q, content, held⟩, flag, routed⟩ := h
  exact ⟨start, id, stop, ⟨q, content, playHeld_of_sub held settings fun _ m => m⟩, flag,
    segmentRouted_from routed settings cadence taken (by rw [start]; exact fresh)⟩

/-! ## A fresh join (R146) -/

theorem State.noteJoin_cue (s : State) (c : Channel) (j : Join) :
    (s.noteJoin c j).cue c = { s.cue c with anchor := j.anchor, exhausted := j.plan.exhausted } := by
  rw [State.noteJoin, State.noteExhausted_cue, State.cue_putCue, if_pos rfl]

theorem State.noteJoin_noted (s : State) (c : Channel) (j : Join) : Noted s (s.noteJoin c j) :=
  Noted.trans (t := s.putCue c { s.cue c with anchor := j.anchor }) ⟨rfl, rfl, rfl, ⟨rfl, rfl, rfl, rfl⟩, fun _ => rfl⟩
    (State.noteExhausted_noted _ c _)

theorem State.endAirAt_noted (s : State) (c : Channel) (e : LocalFrame) :
    (s.endAirAt c e).live = s.live ∧ (s.endAirAt c e).cus = s.cus ∧ SameRouting s (s.endAirAt c e) := by
  unfold State.endAirAt State.amendAir
  split <;> exact ⟨rfl, rfl, ⟨rfl, rfl, rfl, rfl⟩⟩

theorem State.amendAir_standby {s : State} {c : Channel} {a : OnAir} (record : s.authority c = .standby a) (f : OnAir → OnAir) :
    (s.amendAir c f).authority c = .standby (f a) := by
  have air : s.airOf c = some a := congrArg Authority.air record
  unfold State.amendAir
  rw [air]
  dsimp only
  rw [State.authority_putAuthority, if_pos rfl, record]
  rfl

theorem State.amendAir_returning {s : State} {c : Channel} {pr : Prior} {m : ReturnMode} {point : LocalFrame} {a : OnAir}
    (record : s.authority c = .returning pr m point a) (f : OnAir → OnAir) :
    (s.amendAir c f).authority c = .returning pr m point (f a) := by
  have air : s.airOf c = some a := congrArg Authority.air record
  unfold State.amendAir
  rw [air]
  dsimp only
  rw [State.authority_putAuthority, if_pos rfl, record]
  rfl

/-- R146: the time up to the join's frame is filled by the segment on air or by a bridge behind it. -/
inductive Bridged (s : State) (c : Channel) (jl : LocalFrame) : State → Prop
  | ends : Bridged s c jl (s.endAirAt c jl)
  | bridge (i : EventId) (b : LocalFrame) (x : PlannedContent) (player : x.player = none) (early : before b jl = true) :
      Bridged s c jl (s.appendSegment c x i b (some jl) 1)

theorem bridgeContent_player (i : EventId) : (if i = 0 then PlannedContent.gap else .fill).player = none := by
  split <;> rfl

theorem State.bridgeTo_bridged (s : State) (c : Channel) (started : Bool) (replaced : Option Planned) (jl : LocalFrame) :
    Bridged s c jl (s.bridgeTo c started replaced jl) := by
  unfold State.bridgeTo
  cases started with
  | true => exact .ends
  | false =>
    cases replaced with
    | some g =>
      dsimp only
      split
      · next h => exact absurd h (by decide)
      · split
        · next early => exact .bridge g.id g.start _ (bridgeContent_player _) early
        · exact .ends
    | none =>
      dsimp only
      split
      · next h => exact absurd h (by decide)
      · split
        · next e _ =>
          split
          · next early => exact .bridge 0 e _ (bridgeContent_player _) early
          · exact .ends
        · exact .ends

theorem before_ne {a b : LocalFrame} (h : before a b = true) : a ≠ b := by
  rintro rfl
  rw [before_iff] at h
  simp at h

theorem Bridged.settings {s t : State} {c : Channel} {jl : LocalFrame} (h : Bridged s c jl t) : t.live = s.live := by
  cases h with
  | ends => exact (s.endAirAt_noted c jl).1
  | bridge i b x _ _ => exact s.appendSegment_live c x i b _ 1

theorem Bridged.cadence {s t : State} {c : Channel} {jl : LocalFrame} (h : Bridged s c jl t) : t.cdu = s.cdu := by
  cases h with
  | ends => exact (s.endAirAt_noted c jl).2.2.cadence
  | bridge i b x _ _ => exact s.appendSegment_cdu c x i b _ 1

theorem Bridged.taken {s t : State} {c : Channel} {jl : LocalFrame} (h : Bridged s c jl t) : t.xps.eventTaken = s.xps.eventTaken := by
  cases h with
  | ends => exact (s.endAirAt_noted c jl).2.2.taken
  | bridge i b x _ _ => exact s.appendSegment_taken c x i b _ 1

/-- A bridge brings no crosspoint for the join's frame. -/
theorem Bridged.fresh {s t : State} {c : Channel} {jl : LocalFrame} (h : Bridged s c jl t) {y : Crosspoint} (held : y ∈ t.xps.pending)
    (due : y.due = jl) : y ∈ s.xps.pending := by
  cases h with
  | ends =>
    rw [(s.endAirAt_noted c jl).2.2.pending] at held
    exact held
  | bridge i b x _ early =>
    exact (s.of_mem_appendSegment_pending c x i b _ 1 held).resolve_right fun own => before_ne early (own.2.symm.trans due)

theorem Bridged.anchor {s t : State} {c : Channel} {jl : LocalFrame} (h : Bridged s c jl t) : (t.cue c).anchor = (s.cue c).anchor := by
  cases h with
  | ends => rw [State.cue, (s.endAirAt_noted c jl).2.1]; rfl
  | bridge i b x _ _ => rw [State.appendSegment_cue]

/-- The state in which a fresh join's first segment enters the plan. -/
def State.bridged (s : State) (c : Channel) (started : Bool) (replaced : Option Planned) (j : Join) : State :=
  (s.noteJoin c j).bridgeTo c started replaced j.plan.start

theorem State.planJoin_eq (s : State) (c : Channel) (started : Bool) (replaced : Option Planned) (j : Join) :
    s.planJoin c started replaced j = (s.bridged c started replaced j).appendSegment c
      (plannedContent j.plan.content j.plan.id ((s.bridged c started replaced j).nextPlayer c)) j.plan.id j.plan.start j.plan.stop 1 := rfl

/-- R146: the first segment of a fresh join stands last in the plan, and the anchor is the join's. -/
theorem State.planJoin_joinPlanned (s : State) (c : Channel) (started : Bool) (replaced : Option Planned) (j : Join) :
    ∃ g, ((s.planJoin c started replaced j).cue c).planned = ((s.bridged c started replaced j).cue c).planned ++ [g]
      ∧ joinPlanned s (s.planJoin c started replaced j) c j g
      ∧ (s.planJoin c started replaced j).authority c = (s.bridged c started replaced j).authority c := by
  have noted := s.noteJoin_noted c j
  have bridged := (s.noteJoin c j).bridgeTo_bridged c started replaced j.plan.start
  rw [State.planJoin_eq]
  have planned := (s.bridged c started replaced j).appendSegment_plannedAs c j.plan.content j.plan.id j.plan.start j.plan.stop
    ((s.bridged c started replaced j).nextPlayer c) 1
  have cue := (s.bridged c started replaced j).appendSegment_cue c (plannedContent j.plan.content j.plan.id
    ((s.bridged c started replaced j).nextPlayer c)) j.plan.id j.plan.start j.plan.stop 1
  have from_s := planned.of_earlier (s := s) (bridged.settings.trans noted.settings) (bridged.cadence.trans noted.routing.cadence)
    (bridged.taken.trans noted.routing.taken) fun _ y held _ due => by
      rw [← noted.routing.pending]
      exact bridged.fresh held due
  refine ⟨_, by rw [cue], ⟨planned.start, planned.id, planned.stop, ?_, ⟨_, planned.content, from_s.held⟩, from_s.routed⟩,
    State.appendSegment_authority _ c _ _ _ _ _ c⟩
  rw [cue]
  exact bridged.anchor.trans (by rw [State.noteJoin_cue]; rfl)

end Sys2Proof.Machine

namespace Sys2Proof.Machine

/-! # RETURN (R133, R134) -/

theorem one_add_ne (n : LocalFrame) : n + 1 ≠ n := by
  intro same
  have : (1 : BitVec 32) = 0 := by bv_omega
  exact absurd this (by decide)

/-- A return point has not come. -/
theorem returnPoint_ne_now (now : LocalFrame) (mode : ReturnMode) (a : OnAir) : returnPoint now mode a ≠ now := by
  unfold returnPoint
  split
  · split
    · next early => exact Ne.symm (before_ne early)
    · exact one_add_ne now
  · exact one_add_ne now
  · exact one_add_ne now

theorem returnPoint_now (now : LocalFrame) (a : OnAir) : returnPoint now .now a = now + 1 := rfl

theorem returnPoint_boundary {now e : LocalFrame} {a : OnAir} (stop : a.stop = some e) :
    returnPoint now .nextBoundary a = if before now e then e else now + 1 := by
  simp only [returnPoint, stop]

theorem returnPoint_noBoundary {now : LocalFrame} {a : OnAir} (none : a.stop = none) : returnPoint now .nextBoundary a = now + 1 := by
  simp only [returnPoint, none]

theorem returnPoint_comes {now e : LocalFrame} {a : OnAir} (stop : a.stop = some e) (later : 0 < (e - now).toNat)
    (near : (e - now).toNat < 2147483648) : returnPoint now .nextBoundary a = e := by
  rw [returnPoint_boundary stop, if_pos]
  rw [before_iff]
  bv_omega

theorem returnPoint_gone {now e : LocalFrame} {a : OnAir} (stop : a.stop = some e) (past : (now - e).toNat < 2147483648) :
    returnPoint now .nextBoundary a = now + 1 := by
  rw [returnPoint_boundary stop, if_neg]
  rw [before_iff]
  omega

/-- R133, R134, R148: what an accepted return comes to. -/
structure Returning (s t : State) (c : Channel) (pr : Prior) (m : ReturnMode) (point : LocalFrame) (a : OnAir) : Prop where
  record : t.authority c = .returning pr m point a
  placed : ⟨(s.cfg c).destination, point, (s.cfg c).mainSource, c⟩ ∈ t.xps.pending
  planned : ∀ seg ∈ (t.cue c).planned, seg ∈ (s.cue c).planned ∧ 2147483648 < (seg.start - point).toNat
  cues : planWithdrawn s t c fun g => (g.start - point).toNat ≤ 2147483648
  routes : ∀ g ∈ (s.cue c).planned, (g.start - point).toNat ≤ 2147483648 → g.start ≠ point → routeWithdrawn s t c g.start

theorem State.acceptReturn_returning (s : State) (c : Channel) (pr : Prior) (m : ReturnMode) (a : OnAir) :
    Returning s (s.acceptReturn c pr m a) c pr m (returnPoint s.now m a) a := by
  have later := returnPoint_ne_now s.now m a
  unfold State.acceptReturn
  generalize returnPoint s.now m a = point at later ⊢
  dsimp only
  have withdraws := s.withdrawPlanned_withdraws c fun g => atOrAfter g.start point
  have cues := s.withdrawPlanned_planWithdrawn c fun g => atOrAfter g.start point
  have routes {g : Planned} (held : g ∈ (s.cue c).planned) (come : atOrAfter g.start point = true) :=
    s.withdrawPlanned_routeWithdrawn c (p := fun g => atOrAfter g.start point) held come
  have planned := s.withdrawPlanned_planned c fun g => atOrAfter g.start point
  generalize s.withdrawPlanned c (fun g => atOrAfter g.start point) = u at withdraws cues routes planned
  have places : Withdraws c u ((u.placeOnAir c point (u.cfg c).mainSource).setAuthority c (.returning pr m point a)) :=
    (Withdraws.of_only (u.placeOnAir_acts c point _).only (by simp)).trans (State.setAuthority_withdraws _ c c _)
  have pending := (State.setAuthority_routing (u.placeOnAir c point (u.cfg c).mainSource) c (.returning pr m point a)).pending
  refine ⟨State.setAuthority_record _ c _, ?_, fun seg held => ?_, ?_, fun g held come other => ?_⟩
  · have waits : u.issuesAtOnce point = false := State.issuesAtOnce_not_iff.mpr (Or.inl (by rw [withdraws.cadence]; exact later))
    have here := u.placeOnAir_waits waits (c := c) (u.cfg c).mainSource
    rw [pending, ← State.cfg_eq withdraws.settings]
    exact here
  · rw [State.setAuthority_cue, State.placeOnAir_cue, planned] at held
    obtain ⟨old, notCome⟩ := List.mem_filter.mp held
    exact ⟨old, atOrAfter_false.mp (by simpa using notCome)⟩
  · exact planWithdrawn_after (planWithdrawn_mono cues fun _ come => atOrAfter_iff.mpr come) places
  · intro x held
    rw [pending] at held
    rcases State.of_mem_placeXp held with rfl | old
    · exact fun own => other own.2.2.symm
    · exact routes ‹_› (atOrAfter_iff.mpr come) x old

theorem Returning.of_only {ps : List Part} {s u v : State} {c : Channel} {pr : Prior} {m : ReturnMode} {point : LocalFrame} {a : OnAir}
    (h : Returning u v c pr m point a) (first : OnlyChanges ps s u) (reads : ∀ q ∈ [Part.settings, .cadence, .plan c, .cueQueue], q ∉ ps) :
    Returning s v c pr m point a := by
  have settings : u.live = s.live := first .settings (reads _ (by simp))
  have cue : u.cue c = s.cue c := first (.plan c) (reads _ (by simp))
  obtain ⟨queue, txn⟩ := Prod.mk.inj (first .cueQueue (reads _ (by simp)))
  obtain ⟨record, placed, planned, cues, routes⟩ := h
  rw [State.cfg_eq settings] at placed
  rw [cue] at planned routes
  exact ⟨record, placed, planned, planWithdrawn_of_same cues settings (first .cadence (reads _ (by simp))) cue queue txn,
    fun g held come other => routeWithdrawn_of_settings (routes g held come other) settings⟩

theorem State.mayReturn_iff {s : State} {c : Channel} :
    s.mayReturn c = true ↔ (s.watched c).health = .good ∧ (s.watched c).latestResume = some true := by
  simp [State.mayReturn]

theorem State.mayReturn_false {s : State} {c : Channel} :
    s.mayReturn c = false ↔ (s.watched c).health ≠ .good ∨ (s.watched c).latestResume ≠ some true := by
  rw [← Bool.not_eq_true, State.mayReturn_iff, not_and_or]

/-- R133 by the state of the channel, for a mode of the table. -/
theorem State.returnRequest_eq {s : State} {c : Channel} {mode : Byte} {m : ReturnMode} (named : returnModeOf mode = some m) :
    s.returnRequest c mode = match s.authority c with
      | .main => s.refuse .wrongState
      | .armed _ _ => s.refuse .busy
      | .returning _ _ _ _ => s.refuse .busy
      | .standby a => s.returnFrom c .standby m a
      | .held h a => s.returnFrom c (.held h) m a := by
  unfold State.returnRequest
  rw [named] <;> cases s.authority c <;> rfl

theorem returnModeOf_legal {mode : Byte} (legal : mode.toNat ≤ 1) : ∃ m, returnModeOf mode = some m := by
  have two : mode = 0 ∨ mode = 1 := by bv_omega
  rcases two with rfl | rfl
  · exact ⟨_, rfl⟩
  · exact ⟨_, rfl⟩

theorem returnModeOf_none {mode : Byte} (other : 1 < mode.toNat) : returnModeOf mode = none := by
  have notNow : mode ≠ 0 := by rintro rfl; simp at other
  have notNext : mode ≠ 1 := by rintro rfl; simp at other
  rw [returnModeOf, if_neg notNow, if_neg notNext]

theorem owned_return {s : State} {p : SitePort} {tag : Tag} {ch mode : Byte} {c : Channel} (names : ch.toNat = c.val)
    (own : (s.authority c).holder = none ∨ (s.authority c).holder = some p) :
    owned (.formed tag (⟨ch, mode⟩ : ReturnFields))
      (fun x s => s.onChannel x.channel fun c => s.asHolder p c (s.returnRequest c x.mode)) (s.validFrame p)
      = (s.validFrame p).returnRequest c mode :=
  owned_holder (s := s.validFrame p) (x := (⟨ch, mode⟩ : ReturnFields)) (fun x => x.channel) rfl names own fun s x c => s.returnRequest c x.mode

theorem return_refused {s : State} {p : SitePort} {tag : Tag} {ch mode : Byte} {c : Channel} (take : canTake s p) (names : ch.toNat = c.val)
    (own : (s.authority c).holder = none ∨ (s.authority c).holder = some p) {k : AnswerCode}
    (decided : (s.validFrame p).returnRequest c mode = ⟨s.validFrame p, k, []⟩) :
    onlyAnswered (.returnToMain p (.formed tag ⟨ch, mode⟩)) s p tag 0x29 k :=
  asked_refused rfl take ((owned_return names own).trans decided)

/-- RETURN from STANDBY or from the holder, for a mode of the table. -/
theorem State.returnRequest_from {s : State} {c : Channel} {p : SitePort} {a : OnAir} {pr : Prior} {mode : Byte} {m : ReturnMode}
    (state : s.authority c = .standby a ∧ pr = .standby ∨ s.authority c = .held p a ∧ pr = .held p) (named : returnModeOf mode = some m) :
    s.returnRequest c mode = s.returnFrom c pr m a := by
  rw [State.returnRequest_eq named]
  rcases state with ⟨record, rfl⟩ | ⟨record, rfl⟩
  · rw [record]
  · rw [record]

theorem State.offMain_from {s : State} {c : Channel} {p : SitePort} {a : OnAir} {pr : Prior}
    (state : s.authority c = .standby a ∧ pr = .standby ∨ s.authority c = .held p a ∧ pr = .held p) : (s.authority c).name ≠ .main := by
  rcases state with ⟨record, _⟩ | ⟨record, _⟩
  · rw [record]; exact AuthorityName.noConfusion
  · rw [record]; exact AuthorityName.noConfusion

theorem holder_from {s : State} {c : Channel} {p : SitePort} {a : OnAir} {pr : Prior}
    (state : s.authority c = .standby a ∧ pr = .standby ∨ s.authority c = .held p a ∧ pr = .held p) :
    (s.authority c).holder = none ∨ (s.authority c).holder = some p :=
  holder_own (state.elim (fun h => Or.inr (Or.inr (Or.inl ⟨a, h.1⟩))) fun h => Or.inr (Or.inr (Or.inr (Or.inl ⟨a, h.1⟩))))

/-! # A return aborted (R136, R148) -/

/-- A crosspoint of the channel that is pending for a frame stands for a planned segment that starts there. -/
def RoutedByPlan (t : State) (c : Channel) (e : LocalFrame) : Prop :=
  ∀ x ∈ t.xps.pending, (x.channel = c ∧ x.destination = (t.cfg c).destination ∧ x.due = e) → ∃ g ∈ (t.cue c).planned, g.start = e

theorem RoutedByPlan.append {s : State} {c : Channel} {e : LocalFrame} (h : RoutedByPlan s c e) (x : PlannedContent) (i : EventId)
    (b : LocalFrame) (stop : Option LocalFrame) (n : Nat) : RoutedByPlan (s.appendSegment c x i b stop n) c e := by
  intro y held own
  rw [State.cfg_eq (s.appendSegment_live c x i b stop n)] at own
  rw [State.appendSegment_cue]
  rcases s.of_mem_appendSegment_pending c x i b stop n held with old | ⟨_, due⟩
  · obtain ⟨g, planned, start⟩ := h y old own
    exact ⟨g, List.mem_append_left _ planned, start⟩
  · exact ⟨_, List.mem_append_right _ (List.mem_singleton_self _), due.symm.trans own.2.2⟩

theorem RoutedByPlan.of_same {s t : State} {c : Channel} {e : LocalFrame} (h : RoutedByPlan s c e) (settings : t.live = s.live)
    (pending : t.xps.pending ⊆ s.xps.pending) (planned : (s.cue c).planned ⊆ (t.cue c).planned) : RoutedByPlan t c e := by
  intro y held own
  rw [State.cfg_eq settings] at own
  obtain ⟨g, old, start⟩ := h y (pending held) own
  exact ⟨g, planned old, start⟩

theorem Bridged.routedByPlan {s t : State} {c : Channel} {jl e : LocalFrame} (b : Bridged s c jl t) (h : RoutedByPlan s c e) :
    RoutedByPlan t c e := by
  cases b with
  | ends =>
    obtain ⟨settings, cus, routing⟩ := s.endAirAt_noted c jl
    exact h.of_same settings (by rw [routing.pending]; exact fun _ m => m) (by rw [State.cue, State.cue, cus]; exact fun _ m => m)
  | bridge i b x _ _ => exact h.append x i b (some jl) 1

/-- The segment on air stays, or its end is moved to the join's frame. -/
def AirKept (a : OnAir) (t : State) (c : Channel) : Prop :=
  t.authority c = .standby a ∨ ∃ e, t.authority c = .standby { a with stop := some e }

theorem Bridged.airKept {s t : State} {c : Channel} {jl : LocalFrame} (b : Bridged s c jl t) {a : OnAir} (record : s.authority c = .standby a) :
    AirKept a t c := by
  cases b with
  | ends => exact Or.inr ⟨jl, State.amendAir_standby record _⟩
  | bridge i b x _ _ => exact Or.inl ((s.appendSegment_authority c x i b _ 1 c).trans record)

theorem State.withdrawPlan_authority (s : State) (c d : Channel) : (s.withdrawPlan c).authority d = s.authority d :=
  (s.withdrawPlan_acts c).only.authority_eq d

/-- A fresh join on a channel with no crosspoint pending for a frame but its plan's. -/
theorem State.freshJoin_standby {s : State} {c : Channel} {a : OnAir} {e : LocalFrame} (record : s.authority c = .standby a)
    (none : ∀ x ∈ s.xps.pending, ¬(x.channel = c ∧ x.destination = (s.cfg c).destination ∧ x.due = e)) (started : Bool) :
    AirKept a (s.freshJoin c started) c ∧ RoutedByPlan (s.freshJoin c started) c e := by
  have settings : (s.withdrawPlan c).live = s.live := (s.withdrawPlanned_withdraws c fun _ => true).settings
  have start : RoutedByPlan (s.withdrawPlan c) c e := fun x held own => by
    rw [State.cfg_eq settings] at own
    exact absurd own (none x (s.withdrawPlanned_sub c _ held))
  have noted := (s.withdrawPlan c).noteJoin_noted c ((s.withdrawPlan c).join c)
  have cue := (s.withdrawPlan c).noteJoin_cue c ((s.withdrawPlan c).join c)
  have bridged := ((s.withdrawPlan c).noteJoin c ((s.withdrawPlan c).join c)).bridgeTo_bridged c started (s.cue c).planned.head?
    ((s.withdrawPlan c).join c).plan.start
  have routed := bridged.routedByPlan (e := e) (start.of_same noted.settings (by rw [noted.routing.pending]; exact fun _ m => m)
    (by rw [cue]; exact fun _ m => m))
  have air := bridged.airKept ((noted.authority c).trans ((s.withdrawPlan_authority c c).trans record))
  refine ⟨?_, routed.append _ _ _ _ _⟩
  unfold AirKept
  rw [State.freshJoin, State.planJoin_eq, State.appendSegment_authority]
  exact air

theorem State.resumePlan_fresh {s : State} {c : Channel} {a : OnAir}
    (other : ∀ x e, (s.cue c).anchor = some x → a.stop = some e → False) : s.resumePlan c a = s.freshJoin c false := by
  unfold State.resumePlan
  split
  · next x e anchor stop => exact absurd (other x e anchor stop) id
  · rfl

theorem State.resumePlan_anchored {s : State} {c : Channel} {a : OnAir} {x : LocalFrame × Nat} {e : LocalFrame}
    (anchor : (s.cue c).anchor = some x) (stop : a.stop = some e) :
    s.resumePlan c a = if before s.now e && (s.cue c).planned.isEmpty then s.planNext c e else s := by
  simp only [State.resumePlan, anchor, stop]

/-- R148: what a return aborted to STANDBY leaves on air and pending. -/
theorem State.resumePlan_standby {s : State} {c : Channel} {a : OnAir} {e : LocalFrame} (record : s.authority c = .standby a)
    (none : ∀ x ∈ s.xps.pending, ¬(x.channel = c ∧ x.destination = (s.cfg c).destination ∧ x.due = e)) :
    AirKept a (s.resumePlan c a) c ∧ RoutedByPlan (s.resumePlan c a) c e := by
  have routed : RoutedByPlan s c e := fun x held own => absurd own (none x held)
  by_cases both : (∃ x, (s.cue c).anchor = some x) ∧ ∃ f, a.stop = some f
  · obtain ⟨⟨x, anchor⟩, f, stop⟩ := both
    rw [State.resumePlan_anchored anchor stop]
    split
    · obtain ⟨y, found⟩ := State.lookupPlace_isSome (s := s) (c := c) (by rw [anchor]; rfl) f
      obtain ⟨g, cue, looked, same⟩ := State.planNext_lookedUp found
      refine ⟨Or.inl (same.trans record), ?_⟩
      rw [State.planNext, State.planAt_eq found]
      have noted := s.noteExhausted_noted c y.exhausted
      exact (routed.of_same noted.settings (by rw [noted.routing.pending]; exact fun _ m => m)
        (by rw [State.noteExhausted_cue]; exact fun _ m => m)).append _ _ _ _ _
    · exact ⟨Or.inl record, routed⟩
  · rw [State.resumePlan_fresh fun x f anchor stop => both ⟨⟨x, anchor⟩, f, stop⟩]
    exact State.freshJoin_standby record none false

theorem State.dropReturn_only (s : State) (c : Channel) (point : LocalFrame) :
    OnlyChanges (.crosspoints :: flagParts c) s (s.dropReturn c point) :=
  ((s.withdrawXp_acts c point).only.mono (by simp)).trans ((State.raise_acts _ _ c).only.mono (by simp))

theorem State.dropReturn_routeWithdrawn (s : State) (c : Channel) (point : LocalFrame) : routeWithdrawn s (s.dropReturn c point) c point :=
  s.withdrawXp_routeWithdrawn c point

theorem State.dropReturn_taken (s : State) (c : Channel) (point : LocalFrame) : (s.dropReturn c point).xps.eventTaken = s.xps.eventTaken := rfl

/-- The main return crosspoint is gone and the channel's record is another. -/
def State.returnDropped (s : State) (c : Channel) (point : LocalFrame) (r : Authority) : State := (s.dropReturn c point).setAuthority c r

section
variable (s : State) (c : Channel) (point : LocalFrame) (r : Authority)

theorem State.returnDropped_record : (s.returnDropped c point r).authority c = r := State.setAuthority_record _ c r

theorem State.returnDropped_cue : (s.returnDropped c point r).cue c = s.cue c :=
  ((s.dropReturn c point).setAuthority_cue c c r).trans ((s.dropReturn_only c point) (.plan c) (by simp [flagParts]))

theorem State.returnDropped_live : (s.returnDropped c point r).live = s.live :=
  (State.setAuthority_withdraws (s.dropReturn c point) c c r).settings.trans ((s.dropReturn_only c point) .settings (by simp [flagParts]))

theorem State.returnDropped_cdu : (s.returnDropped c point r).cdu = s.cdu :=
  (State.setAuthority_withdraws (s.dropReturn c point) c c r).cadence.trans ((s.dropReturn_only c point) .cadence (by simp [flagParts]))

theorem State.returnDropped_taken : (s.returnDropped c point r).xps.eventTaken = s.xps.eventTaken :=
  ((s.dropReturn c point).setAuthority_routing c r).taken.trans (s.dropReturn_taken c point)

theorem State.returnDropped_sub : (s.returnDropped c point r).xps.pending ⊆ s.xps.pending := by
  intro x h
  rw [State.returnDropped, ((s.dropReturn c point).setAuthority_routing c r).pending] at h
  exact s.withdrawXp_sub c point h

theorem State.returnDropped_gone : routeWithdrawn s (s.returnDropped c point r) c point := by
  refine routeWithdrawn_after (s.dropReturn_routeWithdrawn c point) fun x h => ?_
  rw [State.returnDropped, ((s.dropReturn c point).setAuthority_routing c r).pending] at h
  exact h

theorem State.returnDropped_only : OnlyChanges (.crosspoints :: authorityParts c) s (s.returnDropped c point r) := by
  refine ((s.dropReturn_only c point).mono (by simp [authorityParts, cueParts, planParts, flagParts])).trans ?_
  refine OnlyChanges.trans (t := (s.dropReturn c point).putAuthority c r) (fun q hq => ?_)
    ((State.announce_only _ c).mono (List.subset_cons_self _ _))
  cases q with
  | authority d => exact PerChannel.get_put_ne _ _ _ _ (by simp [authorityParts, cueParts, planParts, flagParts] at hq; exact hq)
  | _ => rfl

theorem State.returnDropped_flags : (s.returnDropped c point r).channelFlag .returnAborted c = true
    ∧ (s.returnDropped c point r).channelFlag .authorityChange c = true :=
  ⟨(State.setAuthority_rise (s.dropReturn c point) c r).kept _ _ (State.raise_set _ _ c), State.setAuthority_flag _ c r⟩

end

theorem State.abortReturn_standby (s : State) (c : Channel) (point : LocalFrame) (a : OnAir) :
    s.abortReturn c .standby point a = (s.returnDropped c point (.standby a)).resumePlan c a := by
  simp only [State.abortReturn, State.returnDropped]

theorem State.abortReturn_held (s : State) (c : Channel) (q : SitePort) (point : LocalFrame) (a : OnAir) :
    s.abortReturn c (.held q) point a = if (s.site q).live then s.returnDropped c point (.held q a)
      else (s.returnDropped c point (.held q a)).lapse c := by
  simp only [State.abortReturn, State.returnDropped]

theorem OnlyChanges.siteLive {ps : List Part} {s t : State} (h : OnlyChanges ps s t) (free : Part.sitePorts ∉ ps) (q : SitePort) :
    (t.site q).live = (s.site q).live := (SitePortState.mk.inj (State.site_withoutPairs h free q)).1

theorem State.returnDropped_site (s : State) (c : Channel) (point : LocalFrame) (r : Authority) (q : SitePort) :
    ((s.returnDropped c point r).site q).live = (s.site q).live :=
  (s.returnDropped_only c point r).siteLive (by simp [authorityParts, cueParts, planParts, flagParts]) q

theorem State.abortReturn_flags (s : State) (c : Channel) (pr : Prior) (point : LocalFrame) (a : OnAir) :
    (s.abortReturn c pr point a).channelFlag .returnAborted c = true ∧ (s.abortReturn c pr point a).channelFlag .authorityChange c = true := by
  cases pr with
  | standby =>
    obtain ⟨aborted, change⟩ := s.returnDropped_flags c point (.standby a)
    have rise := State.resumePlan_rise (s.returnDropped c point (.standby a)) c a
    exact ⟨rise.kept _ _ aborted, rise.kept _ _ change⟩
  | held q =>
    obtain ⟨aborted, change⟩ := s.returnDropped_flags c point (.held q a)
    rw [State.abortReturn_held]
    split
    · exact ⟨aborted, change⟩
    · have rise := State.lapse_rise (s.returnDropped c point (.held q a)) c
      exact ⟨rise.kept _ _ aborted, rise.kept _ _ change⟩

theorem State.setHealth_returning {s : State} {c : Channel} {h : Health} {pr : Prior} {m : ReturnMode} {point : LocalFrame} {a : OnAir}
    (change : (s.watched c).health ≠ h) (record : s.authority c = .returning pr m point a) :
    s.setHealth c h = if h = .good then s.withHealth c h else (s.withHealth c h).abortReturn c pr point a := by
  rw [State.setHealth_reacts change, State.healthReaction, show (s.withHealth c h).authority c = .returning pr m point a from record]

/-- A lapse arms the channel (R132). -/
theorem State.lapse_record (s : State) (c : Channel) : ∃ plan, (s.lapse c).authority c = .armed .lapse plan :=
  ⟨_, State.arm_authority (s.raise .holdLapsed c) c .lapse⟩

/-- R136, R148: a return aborted to STANDBY, seen from a state that differs in nothing it reads. -/
theorem abortReturn_standby_spec {s u : State} {c : Channel} {point : LocalFrame} (a : OnAir) (settings : u.live = s.live)
    (cadence : u.cdu = s.cdu) (routing : SameRouting s u) (cue : u.cue c = s.cue c) (pages : u.pages c = s.pages c) :
    (∃ b, (u.abortReturn c .standby point a).authority c = .standby b ∧ (b = a ∨ ∃ e, b = { a with stop := some e }))
    ∧ (∀ x ∈ (u.abortReturn c .standby point a).xps.pending,
        (x.channel = c ∧ x.destination = (s.cfg c).destination ∧ x.due = point) → ∃ g ∈ ((u.abortReturn c .standby point a).cue c).planned, g.start = point)
    ∧ (∀ e, a.stop = some e → (s.cue c).anchor.isSome → (s.cue c).planned = [] → 2147483648 < (s.cdu.now - e).toNat →
        (u.abortReturn c .standby point a).authority c = .standby a
          ∧ ∃ g, ((u.abortReturn c .standby point a).cue c).planned = [g] ∧ g.start = e
            ∧ ∀ y, s.lookupPlace c e = some y → lookedUp s (u.abortReturn c .standby point a) c e y g) := by
  rw [State.abortReturn_standby]
  have record := u.returnDropped_record c point (.standby a)
  have live := (u.returnDropped_live c point (.standby a)).trans settings
  have cdu := (u.returnDropped_cdu c point (.standby a)).trans cadence
  have taken := (u.returnDropped_taken c point (.standby a)).trans routing.taken
  have sub : (u.returnDropped c point (.standby a)).xps.pending ⊆ s.xps.pending := by
    rw [← routing.pending]
    exact u.returnDropped_sub c point (.standby a)
  have gone := routeWithdrawn_of_settings (u.returnDropped_gone c point (.standby a)) settings
  have kept := (u.returnDropped_cue c point (.standby a)).trans cue
  have page : (u.returnDropped c point (.standby a)).pages c = s.pages c :=
    Eq.trans ((u.returnDropped_only c point (.standby a)) (.pages c) (by simp [authorityParts, cueParts, planParts, flagParts])) pages
  generalize u.returnDropped c point (.standby a) = w at *
  obtain ⟨air, routed⟩ := w.resumePlan_standby (e := point) record (by rw [State.cfg_eq live]; exact gone)
  have resumed : (w.resumePlan c a).live = w.live :=
    (w.resumePlan_acts c a).only .settings (by simp [cueParts, planParts, flagParts])
  refine ⟨?_, fun x held own => routed x held (by rw [State.cfg_eq (resumed.trans live)]; exact own), fun e stop anchored empty later => ?_⟩
  · rcases air with same | ⟨e, ended⟩
    · exact ⟨a, same, Or.inl rfl⟩
    · exact ⟨_, ended, Or.inr ⟨e, rfl⟩⟩
  · obtain ⟨x, anchor⟩ := Option.isSome_iff_exists.mp anchored
    have early : before w.now e = true := before_iff.mpr (by rw [State.now, cdu]; exact later)
    rw [State.resumePlan_anchored (by rw [kept]; exact anchor) stop, kept, empty, early]
    obtain ⟨y, found⟩ := State.lookupPlace_isSome anchored e
    have lookup : w.lookupPlace c e = some y :=
      (State.lookupPlace_eq (congrArg CueChannel.anchor kept) page live cdu e).trans found
    obtain ⟨g, planned, looked, same⟩ := State.planNext_lookedUp lookup
    refine ⟨same.trans record, g, ?_, looked.1, fun z found' => ?_⟩
    · rw [Bool.true_and, List.isEmpty_nil, if_pos rfl, planned, kept, empty]
      rfl
    · cases found.symm.trans found'
      exact lookedUp_from looked live cdu taken fun _ x held _ _ => sub held

/-- Settles O45: RETURN by the state of the channel and its mode, an aborted return by its prior state. -/
theorem returnIsAccepted : Obligations.ReturnIsAccepted := by
  refine ⟨fun s p tag ch mode c a pr take names state => ⟨fun m named good resume => ?_, fun legal unready => ?_⟩,
    fun s p tag ch mode c take names => ⟨fun other own => ?_, fun legal main => ?_, fun legal state => ?_⟩,
    fun s c h pr m point a change record => ⟨fun good => ?_, fun bad => ?_⟩⟩
  · have modeOf : returnModeOf mode = some m := by
      rcases named with ⟨rfl, rfl⟩ | ⟨rfl, rfl⟩ <;> rfl
    have decided : (s.validFrame p).returnRequest c mode
        = ⟨(s.validFrame p).acceptReturn c pr m a, .done, bytes32 (returnPoint s.now m a)⟩ := by
      rw [State.returnRequest_from (s := s.validFrame p) state modeOf]
      exact if_pos (State.mayReturn_iff (s := s.validFrame p).mpr ⟨good, resume⟩)
    have run : exec (.returnToMain p (.formed tag ⟨ch, mode⟩)) s = _ :=
      asked_next (tag := tag) rfl take ((owned_return names (holder_from state)).trans decided)
    have returning := ((s.validFrame p).acceptReturn_returning c pr m a).of_only (s.validFrame_acts p).only (by simp [takingParts])
    obtain ⟨answer, only⟩ := authority_answered
      ((s.validFrame p).acceptReturn_acts c pr m a (State.offMain_from (s := s.validFrame p) state)).only tag 0x29 .done
      (bytes32 (returnPoint s.now m a))
    refine ⟨_, returnPoint s.now m a, run, answer, returning.record, fun now => ?_, fun next e stop later near => ?_, fun next gone => ?_,
      ⟨_, returning.placed, rfl, rfl, rfl, rfl⟩, returning.planned, returning.cues, returning.routes, only⟩
    · subst now
      exact returnPoint_now _ a
    · subst next
      exact returnPoint_comes stop later near
    · subst next
      rcases gone with none | ⟨e, stop, past⟩
      · exact returnPoint_noBoundary none
      · exact returnPoint_gone stop past
  · obtain ⟨m, modeOf⟩ := returnModeOf_legal legal
    refine return_refused take names (holder_from state) ?_
    rw [State.returnRequest_from (s := s.validFrame p) state modeOf]
    exact if_neg (Bool.eq_false_iff.mp (State.mayReturn_false (s := s.validFrame p).mpr unready))
  · refine return_refused take names own ?_
    unfold State.returnRequest
    rw [returnModeOf_none other]
    rfl
  · obtain ⟨m, modeOf⟩ := returnModeOf_legal legal
    refine return_refused take names (holder_own (Or.inl main)) ?_
    rw [State.returnRequest_eq modeOf, show (s.validFrame p).authority c = .main from main]
    rfl
  · obtain ⟨m, modeOf⟩ := returnModeOf_legal legal
    refine return_refused take names (holder_own (state.elim (fun h => Or.inr (Or.inl h)) fun h => Or.inr (Or.inr (Or.inr (Or.inr h))))) ?_
    rw [State.returnRequest_eq modeOf]
    rcases state with ⟨o, plan, record⟩ | ⟨pr, m', point, a, record, _⟩
    · rw [show (s.validFrame p).authority c = .armed o plan from record]; rfl
    · rw [show (s.validFrame p).authority c = .returning pr m' point a from record]; rfl
  · rw [State.setHealth_returning change record, if_pos good]
    exact ⟨rfl, s.withHealth_only c h⟩
  · have only := (s.setHealth_acts c h).only
    have health := s.withHealth_only c h
    rw [State.setHealth_returning change record, if_neg bad] at only ⊢
    obtain ⟨aborted, changed⟩ := (s.withHealth c h).abortReturn_flags c pr point a
    refine ⟨aborted, changed, only, fun prior => ?_, fun q prior => ⟨fun live => ?_, fun silent => ?_⟩⟩
    · subst prior
      exact abortReturn_standby_spec a (health .settings (by simp [flagParts])) (health .cadence (by simp [flagParts]))
        (s.withHealth_routing c h) (health (.plan c) (by simp [flagParts])) (health (.pages c) (by simp [flagParts]))
    · subst prior
      have still := (health.siteLive (by simp [flagParts]) q).trans live
      rw [State.abortReturn_held, if_pos still]
      have settings : (s.withHealth c h).live = s.live := health .settings (by simp [flagParts])
      refine ⟨State.returnDropped_record _ c point _, ?_, routeWithdrawn_of_settings (State.returnDropped_gone _ c point (.held q a)) settings⟩
      exact (State.returnDropped_cue _ c point _).trans (health (.plan c) (by simp [flagParts]))
    · subst prior
      have still := (health.siteLive (by simp [flagParts]) q).trans silent
      rw [State.abortReturn_held, if_neg (Bool.eq_false_iff.mp still)]
      exact ⟨State.lapse_record _ c, State.lapse_flag _ c⟩

end Sys2Proof.Machine

namespace Sys2Proof.Machine

/-! # Segments go on air (R123, R135, R147, R148) -/

/-! ## The start, before anything is planned behind it -/

/-- What the start of a segment does: the players, the last clip player and the plan, and nothing else that planning reads. -/
structure OnAirNow (s t : State) (c : Channel) (a : OnAir) (rest : List Planned) : Prop where
  settings : t.live = s.live
  clock : t.stc = s.stc
  pages : t.pages c = s.pages c
  routing : SameRouting s t
  queue : t.cus.queue = s.cus.queue
  txn : t.cus.txn = s.cus.txn
  cue : ∃ b, t.cue c = { s.cue c with
    players := playersOnAir a.player (s.cue c).players, lastClip := a.player.or (s.cue c).lastClip, boundary := b, planned := rest }
  rise : FlagsRise s t

theorem State.putAuthority_only (s : State) (c : Channel) (r : Authority) : OnlyChanges [.authority c] s (s.putAuthority c r) := fun q hq => by
  cases q with
  | authority d => exact PerChannel.get_put_ne _ _ _ _ (by simpa using hq)
  | _ => rfl

theorem State.amendAir_only (s : State) (c : Channel) (f : OnAir → OnAir) : OnlyChanges [.authority c] s (s.amendAir c f) := by
  unfold State.amendAir
  split
  · exact s.putAuthority_only c _
  · exact OnlyChanges.refl _ s

theorem State.amendAir_cus (s : State) (c : Channel) (f : OnAir → OnAir) : (s.amendAir c f).cus = s.cus := by
  unfold State.amendAir
  split <;> rfl

/-- R147: the head of the plan goes on air. -/
def State.headOnAir (s : State) (c : Channel) (a : OnAir) : State :=
  ((s.putPlanned c ((s.cue c).planned.drop 1)).amendAir c fun _ => a).playersFor c a true

theorem State.startHead_eq (s : State) (c : Channel) (seg : Planned) :
    s.startHead c seg = (if s.lateAtStart c seg then s.removeLate c seg else s).headOnAir c (s.startsAs c seg) := rfl

theorem State.headOnAir_only (s : State) (c : Channel) (a : OnAir) : OnlyChanges [.plan c, .authority c] s (s.headOnAir c a) := by
  have dropped : OnlyChanges [.plan c, .authority c] s (s.putPlanned c ((s.cue c).planned.drop 1)) :=
    (s.putCue_acts c _).only.mono (by simp)
  exact (dropped.trans ((State.amendAir_only _ c _).mono (List.subset_cons_self _ _))).trans
    ((State.putCue_acts _ c _).only.mono (by simp))

theorem State.playersFor_cue (s : State) (c : Channel) (a : OnAir) (b : Bool) : (s.playersFor c a b).cue c = { s.cue c with
    players := playersOnAir a.player (s.cue c).players, lastClip := a.player.or (s.cue c).lastClip, boundary := b } := by
  rw [State.playersFor, State.cue_putCue, if_pos rfl]

theorem State.playersFor_keeps (s : State) (c : Channel) (a : OnAir) (b : Bool) : (s.playersFor c a b).authority = s.authority
    ∧ (s.playersFor c a b).sli = s.sli ∧ (s.playersFor c a b).cus.queue = s.cus.queue ∧ (s.playersFor c a b).cus.txn = s.cus.txn :=
  ⟨rfl, rfl, rfl, rfl⟩

theorem State.headOnAir_onAirNow (s : State) (c : Channel) (a : OnAir) : OnAirNow s (s.headOnAir c a) c a ((s.cue c).planned.drop 1) := by
  have only := s.headOnAir_only c a
  obtain ⟨queue, txn⟩ := Prod.mk.inj (only .cueQueue (by simp))
  refine ⟨only .settings (by simp), only .clock (by simp), only (.pages c) (by simp), only.routing (by simp) (by simp), queue, txn, ⟨true, ?_⟩,
    only.flagsRise fun _ => by simp⟩
  rw [State.headOnAir, State.playersFor_cue, State.cue, State.amendAir_cus]
  have put := s.putPlanned_cue c ((s.cue c).planned.drop 1)
  rw [State.cue] at put
  rw [put]

theorem State.headOnAir_standby {s : State} {c : Channel} {b : OnAir} (record : s.authority c = .standby b) (a : OnAir) :
    (s.headOnAir c a).authority c = .standby a :=
  State.amendAir_standby (s := s.putPlanned c ((s.cue c).planned.drop 1)) record _

theorem State.headOnAir_returning {s : State} {c : Channel} {pr : Prior} {m : ReturnMode} {point : LocalFrame} {b : OnAir}
    (record : s.authority c = .returning pr m point b) (a : OnAir) : (s.headOnAir c a).authority c = .returning pr m point a :=
  State.amendAir_returning (s := s.putPlanned c ((s.cue c).planned.drop 1)) record _

/-- R123: an ARMED channel is STANDBY, with the first segment on air. -/
def State.firstOnAir (s : State) (c : Channel) (a : OnAir) : State := (s.setAuthority c (.standby a)).playersFor c a false

theorem State.firstOnAir_onAirNow (s : State) (c : Channel) (a : OnAir) : OnAirNow s (s.firstOnAir c a) c a (s.cue c).planned := by
  have announced := (s.putAuthority c (.standby a)).announce_only c
  have routing := s.setAuthority_routing c (.standby a)
  have cus : (s.setAuthority c (.standby a)).cus = s.cus := (s.putAuthority c (.standby a)).announce_cus c
  have free {q : Part} (h : q ∈ [Part.settings, .clock, .pages c]) : q ∉ authorityParts c := by
    simp [authorityParts, cueParts, planParts, flagParts] at h ⊢
    rcases h with rfl | rfl | rfl <;> simp
  have settings : (s.setAuthority c (.standby a)).live = s.live := announced .settings (free (by simp))
  have clock : (s.setAuthority c (.standby a)).stc = s.stc := announced .clock (free (by simp))
  have pages : (s.setAuthority c (.standby a)).pages c = s.pages c := announced (.pages c) (free (by simp))
  refine ⟨settings, clock, pages, ⟨routing.cadence, routing.pending, routing.awaiting, routing.taken⟩,
    (State.playersFor_keeps _ c a false).2.2.1.trans (congrArg (fun k => k.queue) cus),
    (State.playersFor_keeps _ c a false).2.2.2.trans (congrArg (fun k => k.txn) cus), ⟨false, ?_⟩, (s.setAuthority_rise c _).trans ((State.putCue_in _ c _).flagsRise_plan)⟩
  rw [State.firstOnAir, State.playersFor_cue, State.setAuthority_cue]

theorem State.firstOnAir_record (s : State) (c : Channel) (a : OnAir) : (s.firstOnAir c a).authority c = .standby a := by
  rw [State.firstOnAir, (State.playersFor_keeps _ c a false).1]
  exact s.setAuthority_record c _

theorem State.firstOnAir_flag (s : State) (c : Channel) (a : OnAir) : (s.firstOnAir c a).channelFlag .authorityChange c = true := by
  rw [State.firstOnAir, State.channelFlag_eq (congrArg (fun k => k.channel[c]) (State.playersFor_keeps _ c a false).2.1)]
  exact s.setAuthority_flag c _

theorem State.goToAir_eq (s : State) (c : Channel) (p : JoinPlan) : s.goToAir c p =
    ((if s.lateAtStart c p.segment then s.removeLate c p.segment else s).firstOnAir c (s.startsAs c p.segment)).planAfterStart c
      (s.lateAtStart c p.segment) := rfl

/-! ## What is planned behind a start that is in time -/

theorem OnAirNow.players {s t : State} {c : Channel} {a : OnAir} {rest : List Planned} (h : OnAirNow s t c a rest) :
    playersNow s t c a.player := by
  obtain ⟨b, cue⟩ := h.cue
  refine ⟨fun q => ?_, ?_⟩
  · rw [cue, playersOnAir_get]
  · rw [cue]
    cases a.player <;> rfl

theorem OnAirNow.planned {s t : State} {c : Channel} {a : OnAir} {rest : List Planned} (h : OnAirNow s t c a rest) :
    (t.cue c).planned = rest := by
  obtain ⟨b, cue⟩ := h.cue
  rw [cue]

theorem OnAirNow.lookup {s t : State} {c : Channel} {a : OnAir} {rest : List Planned} (h : OnAirNow s t c a rest) (e : LocalFrame) :
    t.lookupPlace c e = s.lookupPlace c e := by
  obtain ⟨b, cue⟩ := h.cue
  exact State.lookupPlace_eq (by rw [cue]) h.pages h.settings h.routing.cadence e

/-- R147: nothing is planned behind, or what was planned, or what the boundary lookup at the end gives. -/
inductive Behind (t : State) (c : Channel) (stop : Option LocalFrame) (ahead : LocalFrame → Prop) : State → Prop
  | stays (none : (t.cue c).planned ≠ [] ∨ stop = none ∨ ∃ e, stop = some e ∧ ¬ ahead e) : Behind t c stop ahead t
  | plans (e : LocalFrame) (empty : (t.cue c).planned = []) (ends : stop = some e) (looks : ahead e) : Behind t c stop ahead (t.planNext c e)

theorem State.planAfterStart_standby {s : State} {c : Channel} {a : OnAir} (record : s.authority c = .standby a) :
    Behind s c a.stop (fun _ => True) (s.planAfterStart c false) := by
  unfold State.planAfterStart
  rw [record]
  dsimp only
  rw [if_neg (by decide)]
  cases stop : a.stop with
  | none => exact .stays (Or.inr (Or.inl rfl))
  | some e =>
    cases planned : (s.cue c).planned with
    | nil => exact .plans e planned rfl trivial
    | cons g gs => exact .stays (Or.inl (by rw [planned]; exact nofun))

theorem State.planAfterStart_returning {s : State} {c : Channel} {pr : Prior} {m : ReturnMode} {point : LocalFrame} {a : OnAir}
    (record : s.authority c = .returning pr m point a) (late : Bool) :
    Behind s c a.stop (fun e => 2147483648 < (e - point).toNat) (s.planAfterStart c late) := by
  unfold State.planAfterStart
  rw [record]
  dsimp only
  cases stop : a.stop with
  | none => exact .stays (Or.inr (Or.inl rfl))
  | some e =>
    cases planned : (s.cue c).planned with
    | nil =>
      dsimp only
      split
      · next early => exact .plans e planned rfl (before_iff.mp early)
      · next gone => exact .stays (Or.inr (Or.inr ⟨e, rfl, fun h => gone (before_iff.mpr h)⟩))
    | cons g gs => exact .stays (Or.inl (by rw [planned]; exact nofun))

/-- A lookup leaves the record, the players and the last clip player. -/
structure PlanOnly (s t : State) (c : Channel) : Prop where
  record : t.authority c = s.authority c
  players : (t.cue c).players = (s.cue c).players
  lastClip : (t.cue c).lastClip = (s.cue c).lastClip
  rise : FlagsRise s t
  only : OnlyChanges (cueParts c) s t

theorem State.planNext_planOnly (s : State) (c : Channel) (e : LocalFrame) : PlanOnly s (s.planNext c e) c := by
  have rise := s.planNext_rise c e
  have only := (s.planNext_acts c e).only
  cases found : s.lookupPlace c e with
  | none =>
    rw [State.planNext_none found]
    exact ⟨rfl, rfl, rfl, FlagsRise.refl s, OnlyChanges.refl _ s⟩
  | some y =>
    obtain ⟨g, cue, _, record⟩ := State.planNext_lookedUp found
    exact ⟨record, by rw [cue], by rw [cue], rise, only⟩

theorem Behind.planOnly {t u : State} {c : Channel} {stop : Option LocalFrame} {ahead : LocalFrame → Prop} (h : Behind t c stop ahead u) :
    PlanOnly t u c := by
  cases h with
  | stays => exact ⟨rfl, rfl, rfl, FlagsRise.refl t, OnlyChanges.refl _ t⟩
  | plans e => exact t.planNext_planOnly c e

theorem Behind.same {t u : State} {c : Channel} {stop : Option LocalFrame} {ahead : LocalFrame → Prop} (h : Behind t c stop ahead u)
    (out : stop = none ∨ (t.cue c).planned ≠ []) : u = t := by
  cases h with
  | stays => rfl
  | plans e empty ends =>
    rcases out with gone | held
    · rw [gone] at ends; cases ends
    · exact absurd empty held

/-- A crosspoint that is new since a segment started is due in the frame in progress. -/
def FreshNow (s t : State) : Prop := ∀ x ∈ t.xps.pending, x ∈ s.xps.pending ∨ x.due = s.cdu.now

theorem Behind.plannedBehind {s t u : State} {c : Channel} {stop : Option LocalFrame} {ahead : LocalFrame → Prop} {rest : List Planned}
    (h : Behind t c stop ahead u) (planned : (t.cue c).planned = rest) (lookup : ∀ e, t.lookupPlace c e = s.lookupPlace c e)
    (settings : t.live = s.live) (cadence : t.cdu = s.cdu) (taken : t.xps.eventTaken = s.xps.eventTaken) (fresh : FreshNow s t) :
    plannedBehind s u c rest stop ahead := by
  cases h with
  | stays none =>
    refine ⟨fun _ => planned, fun e y empty ends looks _ => ?_⟩
    rcases none with held | gone | ⟨f, ends', out⟩
    · exact absurd (planned.trans empty) held
    · rw [gone] at ends; cases ends
    · rw [ends] at ends'; cases ends'; exact absurd looks out
  | plans e empty ends looks =>
    refine ⟨fun out => ?_, fun f y _ ends' _ found => ?_⟩
    · rcases out with held | gone | ⟨f, ends', out⟩
      · exact absurd (planned.symm.trans empty) held
      · rw [gone] at ends; cases ends
      · rw [ends] at ends'; cases ends'; exact absurd looks out
    · rw [ends] at ends'
      cases ends'
      obtain ⟨g, cue, looked, _⟩ := State.planNext_lookedUp ((lookup e).trans found)
      refine ⟨g, by rw [cue, empty]; rfl, lookedUp_from looked settings cadence taken fun later x held _ due => ?_⟩
      exact (fresh x held).resolve_right fun now => later (due.symm.trans now)

theorem OnAirNow.behind {s t u : State} {c : Channel} {a : OnAir} {rest : List Planned} {ahead : LocalFrame → Prop}
    (h : OnAirNow s t c a rest) (b : Behind t c a.stop ahead u) : plannedBehind s u c rest a.stop ahead :=
  b.plannedBehind h.planned h.lookup h.settings h.routing.cadence h.routing.taken fun x held => Or.inl (by rw [← h.routing.pending]; exact held)

theorem playersNow_after {s t u : State} {c : Channel} {uses : Option Player} (h : playersNow s t c uses) (k : PlanOnly t u c) :
    playersNow s u c uses := by
  unfold playersNow at h ⊢
  rw [k.players, k.lastClip]
  exact h

end Sys2Proof.Machine

namespace Sys2Proof.Machine

/-! ## A clip that is late at its start (R147) -/

/-- What the removal of a late PLAY does: the PLAY goes, CUE-LATE is set, and the filler's crosspoint is placed at once. -/
structure LateRemoved (s u : State) (c : Channel) (e : LocalFrame) : Prop where
  settings : u.live = s.live
  cadence : u.cdu = s.cdu
  clock : u.stc = s.stc
  pages : u.pages c = s.pages c
  taken : u.xps.eventTaken = s.xps.eventTaken
  anchor : (u.cue c).anchor = (s.cue c).anchor
  planned : (u.cue c).planned = (s.cue c).planned
  removed : s.playQueued c e = true → u.cus.queue = (s.cus.queue.filter fun x => !x.isPlayOf c e) ∧ u.cus.txn = s.cus.txn
  fresh : FreshNow s u
  filler : fillerAtOnce s u c
  flag : u.channelFlag .cueLate c = true
  record : u.authority c = s.authority c

theorem State.raise_keeps (s : State) (k : ChannelFlag) (c : Channel) : (s.raise k c).cus = s.cus
    ∧ (s.raise k c).xps.pending = s.xps.pending ∧ (s.raise k c).xps.eventTaken = s.xps.eventTaken :=
  ⟨rfl, rfl, rfl⟩

/-- The PLAY taken back, with CUE-LATE. -/
def State.lateDropped (s : State) (c : Channel) (p : Player) (e : LocalFrame) : State := (s.withdrawPlay c p e).raise .cueLate c

section
variable (s : State) (c : Channel) (p : Player) (e : LocalFrame)

theorem State.lateDropped_only : OnlyChanges (cueParts c) s (s.lateDropped c p e) :=
  (((s.withdrawPlay_acts c p e).mono (by simp [cueParts])).trans (State.raise_inCue _ .cueLate c)).only

theorem State.lateDropped_xps : (s.lateDropped c p e).xps.pending = s.xps.pending ∧ (s.lateDropped c p e).xps.eventTaken = s.xps.eventTaken := by
  have keeps := (s.withdrawPlay c p e).raise_keeps .cueLate c
  have same := s.withdrawPlay_pending c p e
  exact ⟨keeps.2.1.trans (congrArg (fun k => k.pending) same), keeps.2.2.trans (congrArg (fun k => k.eventTaken) same)⟩

theorem State.withdrawPlay_cue : ∃ v, (s.withdrawPlay c p e).cue c = { s.cue c with players := v } := by
  obtain ⟨v, cue⟩ := s.withdrawSegment_cue c (some p) e
  exact ⟨v, cue⟩

theorem State.lateDropped_cue : ∃ v, (s.lateDropped c p e).cue c = { s.cue c with players := v } := by
  obtain ⟨v, cue⟩ := s.withdrawPlay_cue c p e
  refine ⟨v, ?_⟩
  rw [← cue, State.cue, State.lateDropped, (State.raise_keeps _ .cueLate c).1]
  rfl

theorem State.lateDropped_queue (queued : s.playQueued c e = true) :
    (s.lateDropped c p e).cus.queue = (s.cus.queue.filter fun x => !x.isPlayOf c e) ∧ (s.lateDropped c p e).cus.txn = s.cus.txn := by
  rw [State.lateDropped, (State.raise_keeps _ .cueLate c).1, State.withdrawPlay, if_pos queued]
  exact ⟨rfl, rfl⟩

end

/-- R147: no filler is placed where it is the source on air, or there is none. -/
theorem State.removeLate_cases {s : State} {c : Channel} {seg : Planned} {p : Player} (clip : seg.content.player = some p) :
    (s.removeLate c seg = s.lateDropped c p seg.start ∧ ∀ y, (s.cfg c).filler = some y → (s.airOf c).bind (fun a => a.source) = some y)
    ∨ ∃ y, (s.cfg c).filler = some y ∧ s.removeLate c seg = (s.lateDropped c p seg.start).placeOnAir c s.now y := by
  unfold State.removeLate
  rw [clip]
  dsimp only
  cases filler : (s.cfg c).filler with
  | none => exact Or.inl ⟨rfl, nofun⟩
  | some y =>
    dsimp only
    split
    · next same => exact Or.inl ⟨rfl, fun z found => by cases found; exact same⟩
    · exact Or.inr ⟨y, rfl, rfl⟩

theorem State.removeLate_lateRemoved (s : State) (c : Channel) {seg : Planned} (clip : seg.content.player.isSome = true) :
    LateRemoved s (s.removeLate c seg) c seg.start := by
  obtain ⟨p, clip⟩ := Option.isSome_iff_exists.mp clip
  have only := (s.removeLate_acts c seg).only
  have record := s.removeLate_authority c c seg
  obtain ⟨v, cue⟩ := s.lateDropped_cue c p seg.start
  have dropped := s.lateDropped_only c p seg.start
  have xps := s.lateDropped_xps c p seg.start
  have flag : (s.lateDropped c p seg.start).channelFlag .cueLate c = true := State.raise_set _ .cueLate c
  have queue := s.lateDropped_queue c p seg.start
  have settings : (s.removeLate c seg).live = s.live := only .settings (by simp [cueParts, planParts, flagParts])
  have cadence : (s.removeLate c seg).cdu = s.cdu := only .cadence (by simp [cueParts, planParts, flagParts])
  have clock : (s.removeLate c seg).stc = s.stc := only .clock (by simp [cueParts, planParts, flagParts])
  have pages : (s.removeLate c seg).pages c = s.pages c := only (.pages c) (by simp [cueParts, planParts, flagParts])
  rcases State.removeLate_cases (s := s) (c := c) clip with ⟨e, none⟩ | ⟨y, filler, e⟩
  · rw [e] at settings cadence clock pages record ⊢
    exact ⟨settings, cadence, clock, pages, xps.2, by rw [cue], by rw [cue], queue, fun x held => Or.inl (by rw [← xps.1]; exact held),
      fun y found differs => absurd (none y found) differs, flag, record⟩
  · rw [e] at settings cadence clock pages record ⊢
    have live : (s.lateDropped c p seg.start).live = s.live := dropped .settings (by simp [cueParts, planParts, flagParts])
    have cdu : (s.lateDropped c p seg.start).cdu = s.cdu := dropped .cadence (by simp [cueParts, planParts, flagParts])
    generalize s.lateDropped c p seg.start = w at *
    have placed := w.placeXp_placed ⟨(w.cfg c).destination, s.now, y, c⟩
    have flags : (w.placeOnAir c s.now y).sli.channel[c] = w.sli.channel[c] :=
      (w.placeOnAir_acts c s.now y).only (.channelFlags c) (by simp)
    refine ⟨settings, cadence, clock, pages, (w.placeXp_taken _).trans xps.2, by rw [State.placeOnAir_cue, cue], by rw [State.placeOnAir_cue, cue],
      fun queued => ?_, fun x held => ?_, fun z found _ => ?_, ?_, record⟩
    · rw [State.placeOnAir, State.placeXp_cus]
      exact queue queued
    · rcases State.of_mem_placeXp held with rfl | old
      · exact Or.inr rfl
      · exact Or.inl (by rw [← xps.1]; exact old)
    · cases filler.symm.trans found
      rw [State.cfg_eq live] at placed
      refine sentOrPending_of_mem (sentOrPending_of_placed placed) cdu xps.2 (fun m => ?_) fun x m => ?_
      · rw [State.placeOnAir, State.cfg_eq live]; exact m
      · rw [State.placeOnAir, State.cfg_eq live]; exact m
    · rw [State.channelFlag_eq flags]
      exact flag

/-- Both: removed, then filler on air in its place. -/
structure LateStarted (s t : State) (c : Channel) (a : OnAir) (rest : List Planned) : Prop where
  middle : ∃ u, LateRemoved s u c a.start ∧ OnAirNow u t c a rest

section
variable {s t : State} {c : Channel} {a : OnAir} {rest : List Planned} (h : LateStarted s t c a rest)
include h

theorem LateStarted.settings : t.live = s.live := by
  obtain ⟨u, removed, started⟩ := h.middle
  exact started.settings.trans removed.settings

theorem LateStarted.cadence : t.cdu = s.cdu := by
  obtain ⟨u, removed, started⟩ := h.middle
  exact started.routing.cadence.trans removed.cadence

theorem LateStarted.taken : t.xps.eventTaken = s.xps.eventTaken := by
  obtain ⟨u, removed, started⟩ := h.middle
  exact started.routing.taken.trans removed.taken

theorem LateStarted.fresh : FreshNow s t := by
  obtain ⟨u, removed, started⟩ := h.middle
  intro x held
  exact removed.fresh x (by rw [← started.routing.pending]; exact held)

theorem LateStarted.removed (queued : s.playQueued c a.start = true) :
    t.cus.queue = (s.cus.queue.filter fun x => !x.isPlayOf c a.start) ∧ t.cus.txn = s.cus.txn := by
  obtain ⟨u, removed, started⟩ := h.middle
  obtain ⟨queue, txn⟩ := removed.removed queued
  exact ⟨started.queue.trans queue, started.txn.trans txn⟩

theorem LateStarted.playRemoved : playRemoved s t c a.start := fun queued x held => by
  rw [(h.removed queued).1] at held
  have kept := (List.mem_filter.mp held).2
  simpa using kept

theorem LateStarted.fillerAtOnce : fillerAtOnce s t c := by
  obtain ⟨u, removed, started⟩ := h.middle
  intro y found differs
  exact sentOrPending_of_mem (removed.filler y found differs) rfl rfl (fun m => by rw [started.routing.pending]; exact m)
    (by rw [started.routing.awaiting]; exact fun _ m => m)

theorem LateStarted.flag : t.channelFlag .cueLate c = true := by
  obtain ⟨u, removed, started⟩ := h.middle
  exact started.rise.kept _ _ removed.flag

theorem LateStarted.planned : (t.cue c).planned = rest := by
  obtain ⟨u, removed, started⟩ := h.middle
  exact started.planned

theorem LateStarted.lookup (e : LocalFrame) : t.lookupPlace c e = s.lookupPlace c e := by
  obtain ⟨u, removed, started⟩ := h.middle
  exact (started.lookup e).trans (State.lookupPlace_eq removed.anchor removed.pages removed.settings removed.cadence e)

theorem LateStarted.join (queued : s.playQueued c a.start = true) :
    t.join c = State.join { s with cus := { s.cus with queue := s.cus.queue.filter fun x => !x.isPlayOf c a.start } } c := by
  have entries := h.removed queued
  obtain ⟨u, removed, started⟩ := h.middle
  exact State.join_of_same (started.settings.trans removed.settings) (started.routing.cadence.trans removed.cadence)
    (started.clock.trans removed.clock) (started.pages.trans removed.pages) entries.1 entries.2

theorem LateStarted.players (without : a.player = none) (q : Player) : (t.cue c).players.get q ≠ .onAir := by
  obtain ⟨u, removed, started⟩ := h.middle
  obtain ⟨b, cue⟩ := started.cue
  rw [cue, without]
  exact playersOnAir_off _ q

end

/-! ## The fresh join after a late start (R146) -/

/-- A fresh join in the place of a segment that is on air: that one ends at the join's frame. -/
theorem State.bridgeTo_started (s : State) (c : Channel) (x : Option Planned) (jl : LocalFrame) :
    s.bridgeTo c true x jl = s.endAirAt c jl := rfl

theorem State.withdrawPlan_keeps (s : State) (c : Channel) : Withdraws c s (s.withdrawPlan c)
    ∧ (s.withdrawPlan c).xps.pending ⊆ s.xps.pending :=
  ⟨s.withdrawPlanned_withdraws c _, s.withdrawPlanned_sub c _⟩

theorem State.withdrawPlan_only (s : State) (c : Channel) : OnlyChanges (planParts c) s (s.withdrawPlan c) := (s.withdrawPlan_acts c).only

theorem State.withdrawPlan_nothing {s : State} {c : Channel} (none : (s.cue c).planned = []) :
    (s.withdrawPlan c).cus.queue = s.cus.queue ∧ (s.withdrawPlan c).cus.txn = s.cus.txn ∧ SameRouting s (s.withdrawPlan c) := by
  rw [State.withdrawPlan, State.withdrawPlanned_eq, none]
  exact ⟨rfl, rfl, rfl, rfl, rfl, rfl⟩

theorem State.withdrawSegment_taken (s : State) (c : Channel) (p : Option Player) (e : LocalFrame) :
    (s.withdrawSegment c p e).xps.eventTaken = s.xps.eventTaken := by
  cases p with
  | none => rfl
  | some q => exact congrArg (fun k => k.eventTaken) (s.withdrawPlay_pending c q e)

theorem State.withdrawAll_taken (s : State) (c : Channel) (gs : List Planned) : (s.withdrawAll c gs).xps.eventTaken = s.xps.eventTaken := by
  induction gs generalizing s with
  | nil => rfl
  | cons g gs ih =>
    rw [State.withdrawAll_cons, ih]
    exact s.withdrawSegment_taken c _ _

theorem State.withdrawPlan_taken (s : State) (c : Channel) : (s.withdrawPlan c).xps.eventTaken = s.xps.eventTaken := by
  rw [State.withdrawPlan, State.withdrawPlanned_eq]
  exact State.withdrawAll_taken _ c _

/-- The state in which a fresh join's first segment enters the plan, in the place of a segment on air. -/
def State.clearedTo (s : State) (c : Channel) : State := ((s.withdrawPlan c).noteJoin c ((s.withdrawPlan c).join c)).endAirAt c ((s.withdrawPlan c).join c).plan.start

theorem State.freshJoin_eq (s : State) (c : Channel) : s.freshJoin c true = (s.clearedTo c).appendSegment c
    (plannedContent ((s.withdrawPlan c).join c).plan.content ((s.withdrawPlan c).join c).plan.id ((s.clearedTo c).nextPlayer c))
    ((s.withdrawPlan c).join c).plan.id ((s.withdrawPlan c).join c).plan.start ((s.withdrawPlan c).join c).plan.stop 1 := rfl

/-- What stands when a fresh join's first segment is planned behind the segment on air. -/
structure Cleared (s t : State) (c : Channel) (a : OnAir) (jl : LocalFrame) : Prop where
  record : t.authority c = .standby { a with stop := some jl }
  planned : (t.cue c).planned = []
  players : ∀ q, (t.cue c).players.get q = (s.cue c).players.get q ∨ (t.cue c).players.get q = .idle
  queue : ∀ x ∈ t.cus.queue, x ∈ s.cus.queue ∨ x.action = .cancel
  pending : t.xps.pending ⊆ s.xps.pending

theorem State.clearedTo_cleared {s : State} {c : Channel} {a : OnAir} (record : s.authority c = .standby a) :
    Cleared s (s.clearedTo c) c a ((s.withdrawPlan c).join c).plan.start := by
  obtain ⟨withdraws, sub⟩ := s.withdrawPlan_keeps c
  have noted := (s.withdrawPlan c).noteJoin_noted c ((s.withdrawPlan c).join c)
  have cue := (s.withdrawPlan c).noteJoin_cue c ((s.withdrawPlan c).join c)
  have air := ((s.withdrawPlan c).noteJoin c ((s.withdrawPlan c).join c)).endAirAt_noted c ((s.withdrawPlan c).join c).plan.start
  have cleared : (s.clearedTo c).cue c = _ := (congrArg (fun k => k.channel.get c) air.2.1).trans cue
  refine ⟨State.amendAir_standby ((noted.authority c).trans ((s.withdrawPlan_authority c c).trans record)) _, ?_, fun q => ?_, fun x held => ?_, ?_⟩
  · rw [cleared]
    exact s.withdrawPlan_planned c
  · rw [cleared]
    exact withdraws.players q
  · have queue : (s.clearedTo c).cus.queue = (s.withdrawPlan c).cus.queue := (congrArg (fun k => k.queue) air.2.1).trans noted.queue
    rw [queue] at held
    exact withdraws.queue x held
  · have pending : (s.clearedTo c).xps.pending = (s.withdrawPlan c).xps.pending := air.2.2.pending.trans noted.routing.pending
    rw [pending]
    exact sub

theorem LateStarted.freshJoin {s t : State} {c : Channel} {a : OnAir} {rest : List Planned} (h : LateStarted s t c a rest)
    (record : t.authority c = .standby a) (fill : a = ⟨.fill, a.id, (s.cfg c).filler, none, a.stop, a.start⟩) (now : a.start = s.cdu.now) :
    lateStart s (t.freshJoin c true) c a.id a.start rest := by
  obtain ⟨withdraws, sub⟩ := t.withdrawPlan_keeps c
  have cleared := State.clearedTo_cleared record
  obtain ⟨g, planned, joined, same⟩ := (t.withdrawPlan c).planJoin_joinPlanned c true (t.cue c).planned.head? ((t.withdrawPlan c).join c)
  have flag := (t.freshJoin_rise c true).kept _ _ h.flag
  have only := t.withdrawPlan_only c
  have settings := withdraws.settings.trans h.settings
  have cadence := withdraws.cadence.trans h.cadence
  have taken := (t.withdrawPlan_taken c).trans h.taken
  have cue : ((t.freshJoin c true).cue c) = _ := (t.clearedTo c).appendSegment_cue c _ _ _ _ _
  have start : g.start = ((t.withdrawPlan c).join c).plan.start := joined.1
  refine ⟨flag, fun q => ?_, g, ?_, ?_, fun later => ⟨fun queued x held => ?_, fun empty y found differs => ?_⟩, fun empty queued => ?_⟩
  · rw [cue]
    rcases cleared.players q with kept | idle
    · exact fun on => h.players (by rw [fill]) q (kept.symm.trans on)
    · exact fun on => by rw [show ((t.clearedTo c).cue c).players.get q = .onAir from on] at idle; cases idle
  · rw [show ((t.freshJoin c true).cue c).planned = _ from planned]
    exact (congrArg (· ++ [g]) cleared.planned).trans rfl
  · rw [show (t.freshJoin c true).authority c = (t.clearedTo c).authority c from same, cleared.record, start, fill]
  · rw [State.freshJoin_eq] at held
    rcases State.of_mem_appendSegment_queue _ c _ _ _ _ _ held with old | own
    · rcases cleared.queue x old with kept | cancel
      · exact h.playRemoved queued x kept
      · exact isPlayOf_of_cancel cancel c _
    · have other : (x.start == a.start) = false := by
        rw [own, ← start]
        exact beq_eq_false_iff_ne.mpr later
      rw [CueEntry.isPlayOf, other, Bool.and_false]
  · have nothing := State.withdrawPlan_nothing (h.planned.trans empty)
    have noted := (t.withdrawPlan c).noteJoin_noted c ((t.withdrawPlan c).join c)
    have air := ((t.withdrawPlan c).noteJoin c ((t.withdrawPlan c).join c)).endAirAt_noted c ((t.withdrawPlan c).join c).plan.start
    have routing : SameRouting t (t.clearedTo c) := (nothing.2.2.trans noted.routing).trans air.2.2
    rw [State.freshJoin_eq]
    refine sentOrPending_of_mem (h.fillerAtOnce y found differs) rfl rfl (fun m => ?_) fun x m => ?_
    · refine State.mem_appendSegment_pending _ c _ _ _ _ _ (by rw [routing.pending]; exact m) ?_
      rw [← start]
      exact fun due => later (due.symm.trans now.symm)
    · exact State.appendSegment_awaiting _ c _ _ _ _ _ (by rw [routing.awaiting]; exact m)
  · have nothing := State.withdrawPlan_nothing (h.planned.trans empty)
    have join : (t.withdrawPlan c).join c = t.join c :=
      State.join_of_same withdraws.settings withdraws.cadence (only .clock (by simp [planParts])) (only (.pages c) (by simp [planParts]))
        nothing.1 nothing.2.1
    rw [← h.join queued, ← join]
    obtain ⟨begins, id, stop, anchor, ⟨q, content, held⟩, routed⟩ := joined
    refine ⟨begins, id, stop, anchor, ⟨q, content, playHeld_of_sub held settings fun _ m => m⟩, segmentRouted_from routed settings cadence taken ?_⟩
    exact fun later x held _ due => (h.fresh x (sub held)).resolve_right fun at_now => later (due.symm.trans at_now)

end Sys2Proof.Machine

namespace Sys2Proof.Machine

theorem plannedContent_player {x : SegContent} {i : EventId} {q : Player} :
    (plannedContent x i q).player.isSome = true ↔ ∃ clipId media, x = .clip clipId media := by
  cases x with
  | clip clipId media => exact ⟨fun _ => ⟨_, _, rfl⟩, fun _ => rfl⟩
  | live y => exact ⟨nofun, fun ⟨_, _, h⟩ => nomatch h⟩
  | filler =>
    refine ⟨fun h => ?_, fun ⟨_, _, h⟩ => nomatch h⟩
    rw [plannedContent, bridgeContent_player] at h
    cases h

theorem CueEntry.isPlayOf_iff {x : CueEntry} {c : Channel} {e : LocalFrame} :
    x.isPlayOf c e = true ↔ x.channel = c ∧ x.start = e ∧ ∃ clipId media n i, x.action = .play clipId media n i := by
  obtain ⟨ch, q, addr, d, f, action⟩ := x
  cases action <;> simp [CueEntry.isPlayOf, CueAction.isPlay]

/-- R147: the model's own test of a PLAY that has not been sent. -/
theorem State.playUnsent_iff {s : State} {c : Channel} {e : LocalFrame} : s.playUnsent c e = true ↔ unsentPlay s c e := by
  simp only [unsentPlay, State.playUnsent, Bool.or_eq_true, Bool.and_eq_true, State.playQueued_iff, CueEntry.isPlayOf_iff]
  refine or_congr_right ?_
  unfold State.playInTxn
  cases txn : s.cus.txn with
  | none => simp
  | some k =>
    obtain ⟨x, withdrawn, phase, wait, message⟩ := k
    cases phase <;> simp [Txn.isPlayOf, Txn.isSending, CueEntry.isPlayOf_iff, and_comm]

theorem State.lateAtStart_iff {s : State} {c : Channel} {seg : Planned} :
    s.lateAtStart c seg = true ↔ seg.content.player.isSome = true ∧ unsentPlay s c seg.start := by
  rw [State.lateAtStart, Bool.and_eq_true, State.playUnsent_iff]

theorem State.lateAtStart_false {s : State} {c : Channel} {seg : Planned} (h : ¬ (seg.content.player.isSome = true ∧ unsentPlay s c seg.start)) :
    s.lateAtStart c seg = false := Bool.eq_false_iff.mpr fun late => h (State.lateAtStart_iff.mp late)

theorem State.startHead_now {s : State} {c : Channel} {seg : Planned} {rest : List Planned} (planned : (s.cue c).planned = seg :: rest)
    (late : s.lateAtStart c seg = false) : s.startHead c seg = s.headOnAir c (airOfPlanned s c seg)
      ∧ OnAirNow s (s.headOnAir c (airOfPlanned s c seg)) c (airOfPlanned s c seg) rest := by
  have started := s.headOnAir_onAirNow c (airOfPlanned s c seg)
  rw [planned] at started
  refine ⟨?_, started⟩
  rw [State.startHead_eq, State.startsAs, late, if_neg (by decide), if_neg (by decide), State.airFrom_eq]

theorem State.startHead_late {s : State} {c : Channel} {seg : Planned} {rest : List Planned} (planned : (s.cue c).planned = seg :: rest)
    (late : s.lateAtStart c seg = true) : s.startHead c seg = (s.removeLate c seg).headOnAir c (s.lateAir c seg)
      ∧ LateStarted s ((s.removeLate c seg).headOnAir c (s.lateAir c seg)) c (s.lateAir c seg) rest := by
  have removed := s.removeLate_lateRemoved c (State.lateAtStart_iff.mp late).1
  have started := (s.removeLate c seg).headOnAir_onAirNow c (s.lateAir c seg)
  rw [removed.planned, planned] at started
  refine ⟨?_, ⟨_, removed, started⟩⟩
  rw [State.startHead_eq, State.startsAs, late, if_pos rfl, if_pos rfl]

/-! ## The due segment of a channel -/

theorem atOrAfter_self (e : LocalFrame) : atOrAfter e e = true := atOrAfter_iff.mpr (by rw [BitVec.sub_self]; decide)

theorem State.dueSegment_standby {s : State} {c : Channel} {a : OnAir} {seg : Planned} {rest : List Planned} (record : s.authority c = .standby a)
    (planned : (s.cue c).planned = seg :: rest) (now : seg.start = s.cdu.now) : s.dueSegment c = some seg := by
  have due : atOrAfter s.now seg.start = true := by rw [now, State.now, atOrAfter_self]
  simp only [State.dueSegment, record, planned, List.head?_cons, Option.filter_some, due, if_true]

theorem State.dueSegment_returning {s : State} {c : Channel} {pr : Prior} {m : ReturnMode} {point : LocalFrame} {a : OnAir} {seg : Planned}
    {rest : List Planned} (record : s.authority c = .returning pr m point a) (planned : (s.cue c).planned = seg :: rest)
    (now : seg.start = s.cdu.now) : s.dueSegment c = if before seg.start point then some seg else none := by
  simp only [State.dueSegment, record, planned, List.head?_cons, Option.filter_some, State.now, ← now, atOrAfter_self, Bool.true_and]

theorem exec_segmentStart {s : State} {c : Channel} (running : s.power = .running) (window : s.cdu.windowEvent = true) {seg : Planned}
    (due : s.dueSegment c = some seg) :
    exec (.segmentStart c) s = .next ((s.startHead c seg).planAfterStart c (s.lateAtStart c seg)) := by
  show execSegmentStart c s = _
  refine whenRunning_next running ?_
  rw [due]
  exact if_pos window

theorem exec_segmentStart_none {s : State} {c : Channel} (running : s.power = .running) (due : s.dueSegment c = none) :
    exec (.segmentStart c) s = .next s := by
  show execSegmentStart c s = _
  refine whenRunning_next running ?_
  rw [due]

theorem exec_goToAir {s : State} {c : Channel} {o : Origin} {plan : JoinPlan} (running : s.power = .running) (window : s.cdu.windowEvent = true)
    (record : s.authority c = .armed o plan) :
    exec (.goToAir c) s = .next (if atOrAfter s.now plan.start then s.goToAir c plan else s) := by
  show execGoToAir c s = _
  refine whenRunning_next running ?_
  rw [record]
  dsimp only
  rw [window, Bool.true_and]

theorem exec_returnComplete {s : State} {c : Channel} {pr : Prior} {m : ReturnMode} {point : LocalFrame} {a : OnAir}
    (running : s.power = .running) (window : s.cdu.windowEvent = true) (record : s.authority c = .returning pr m point a) :
    exec (.returnComplete c) s = .next (if atOrAfter s.now point then s.becomeMain c else s) := by
  show execReturnComplete c s = _
  refine whenRunning_next running ?_
  rw [record]
  dsimp only
  rw [window, Bool.true_and]

/-! ## An ARMED channel at its jl (R123) -/

theorem goToAir_now {s : State} {c : Channel} {plan : JoinPlan} (intime : s.lateAtStart c plan.segment = false) :
    ∃ t, t = s.goToAir c plan ∧ t.authority c = .standby (airOfPlanned s c plan.segment)
      ∧ playersNow s t c (airOfPlanned s c plan.segment).player
      ∧ plannedBehind s t c (s.cue c).planned (airOfPlanned s c plan.segment).stop (fun _ => True)
      ∧ t.channelFlag .authorityChange c = true := by
  have started := s.firstOnAir_onAirNow c (airOfPlanned s c plan.segment)
  have record := s.firstOnAir_record c (airOfPlanned s c plan.segment)
  have behind := State.planAfterStart_standby record
  refine ⟨_, ?_, behind.planOnly.record.trans record, playersNow_after started.players behind.planOnly, started.behind behind,
    behind.planOnly.rise.kept _ _ (s.firstOnAir_flag c _)⟩
  rw [State.goToAir_eq, State.startsAs, intime, if_neg (by decide), if_neg (by decide), State.airFrom_eq]

theorem goToAir_late {s : State} {c : Channel} {plan : JoinPlan} (late : s.lateAtStart c plan.segment = true) (now : plan.start = s.cdu.now) :
    lateStart s (s.goToAir c plan) c plan.id plan.start (s.cue c).planned ∧ (s.goToAir c plan).channelFlag .authorityChange c = true := by
  have removed := s.removeLate_lateRemoved c (State.lateAtStart_iff.mp late).1
  have started := (s.removeLate c plan.segment).firstOnAir_onAirNow c (s.lateAir c plan.segment)
  have record := (s.removeLate c plan.segment).firstOnAir_record c (s.lateAir c plan.segment)
  have flag := (s.removeLate c plan.segment).firstOnAir_flag c (s.lateAir c plan.segment)
  rw [removed.planned] at started
  have lately : LateStarted s ((s.removeLate c plan.segment).firstOnAir c (s.lateAir c plan.segment)) c (s.lateAir c plan.segment)
    (s.cue c).planned := ⟨_, removed, started⟩
  have is : s.goToAir c plan = ((s.removeLate c plan.segment).firstOnAir c (s.lateAir c plan.segment)).freshJoin c true := by
    rw [State.goToAir_eq, State.startsAs, late, if_pos rfl, if_pos rfl, State.planAfterStart, record]
    rfl
  rw [is]
  exact ⟨lately.freshJoin record rfl now, (State.freshJoin_rise _ c true).kept _ _ flag⟩

theorem airOfPlanned_stop (s : State) (c : Channel) (seg : Planned) : (airOfPlanned s c seg).stop = seg.stop := by
  rw [← State.airFrom_eq]
  rfl

/-! ## A planned segment at its start (R147) -/

section
variable {s : State} {c : Channel} {seg : Planned} {rest : List Planned}

theorem segmentStart_only (quiet : PlanOnly (s.headOnAir c (airOfPlanned s c seg)) t c) : OnlyChanges (cueParts c) s t :=
  ((s.headOnAir_only c _).mono (by simp [cueParts, planParts])).trans quiet.only

theorem standby_now {a : OnAir} (record : s.authority c = .standby a) (planned : (s.cue c).planned = seg :: rest)
    (intime : s.lateAtStart c seg = false) :
    ∃ t, t = (s.startHead c seg).planAfterStart c (s.lateAtStart c seg) ∧ t.authority c = .standby (airOfPlanned s c seg)
      ∧ playersNow s t c (airOfPlanned s c seg).player ∧ plannedBehind s t c rest seg.stop (fun _ => True)
      ∧ (seg.stop = none ∨ rest ≠ [] → OnlyChanges [.plan c, .authority c] s t) ∧ OnlyChanges (cueParts c) s t := by
  obtain ⟨is, started⟩ := State.startHead_now planned intime
  have air := State.headOnAir_standby record (airOfPlanned s c seg)
  have behind := State.planAfterStart_standby air
  have stop := airOfPlanned_stop s c seg
  rw [is, intime]
  refine ⟨_, rfl, behind.planOnly.record.trans air, playersNow_after started.players behind.planOnly, ?_, fun out => ?_,
    segmentStart_only behind.planOnly⟩
  · rw [← stop]
    exact started.behind behind
  · rw [behind.same (by rw [stop, started.planned]; exact out)]
    exact s.headOnAir_only c _

theorem standby_late {a : OnAir} (record : s.authority c = .standby a) (planned : (s.cue c).planned = seg :: rest)
    (now : seg.start = s.cdu.now) (late : s.lateAtStart c seg = true) :
    lateStart s ((s.startHead c seg).planAfterStart c (s.lateAtStart c seg)) c seg.id seg.start rest := by
  obtain ⟨is, started⟩ := State.startHead_late planned late
  have air := State.headOnAir_standby ((s.removeLate_authority c c seg).trans record) (s.lateAir c seg)
  have plans : ((s.removeLate c seg).headOnAir c (s.lateAir c seg)).planAfterStart c true
      = ((s.removeLate c seg).headOnAir c (s.lateAir c seg)).freshJoin c true := by
    rw [State.planAfterStart, air]
    rfl
  rw [is, late, plans]
  exact started.freshJoin air rfl now

theorem returning_now {pr : Prior} {m : ReturnMode} {point : LocalFrame} {a : OnAir} (record : s.authority c = .returning pr m point a)
    (planned : (s.cue c).planned = seg :: rest) (intime : s.lateAtStart c seg = false) :
    ∃ t, t = (s.startHead c seg).planAfterStart c (s.lateAtStart c seg) ∧ t.authority c = .returning pr m point (airOfPlanned s c seg)
      ∧ playersNow s t c (airOfPlanned s c seg).player
      ∧ plannedBehind s t c rest seg.stop (fun e => 2147483648 < (e - point).toNat)
      ∧ (seg.stop = none ∨ rest ≠ [] → OnlyChanges [.plan c, .authority c] s t) ∧ OnlyChanges (cueParts c) s t := by
  obtain ⟨is, started⟩ := State.startHead_now planned intime
  have air := State.headOnAir_returning record (airOfPlanned s c seg)
  have behind := State.planAfterStart_returning air false
  have stop := airOfPlanned_stop s c seg
  rw [is, intime]
  refine ⟨_, rfl, behind.planOnly.record.trans air, playersNow_after started.players behind.planOnly, ?_, fun out => ?_,
    segmentStart_only behind.planOnly⟩
  · rw [← stop]
    exact started.behind behind
  · rw [behind.same (by rw [stop, started.planned]; exact out)]
    exact s.headOnAir_only c _

/-- What a lookup behind the filler of a late start leaves of that start: it brings nothing for the frame in progress. -/
theorem lateKept_behind {t u : State} {a : OnAir} {ahead : LocalFrame → Prop} (h : LateStarted s t c a rest)
    (b : Behind t c a.stop ahead u) (now : a.start = s.cdu.now) (other : a.stop ≠ some a.start) : playRemoved s u c a.start ∧ fillerAtOnce s u c := by
  cases b with
  | stays => exact ⟨h.playRemoved, h.fillerAtOnce⟩
  | plans e empty ends looks =>
    have later : e ≠ a.start := fun same => other (by rw [ends, same])
    unfold State.planNext
    cases found : t.lookupPlace c e with
    | none =>
      rw [show t.planAt c e (t.nextPlayer c) 1 = t from State.planNext_none found]
      exact ⟨h.playRemoved, h.fillerAtOnce⟩
    | some y =>
      have noted := t.noteExhausted_noted c y.exhausted
      rw [State.planAt_eq found]
      refine ⟨fun queued x held => ?_, fun z source differs => ?_⟩
      · rcases State.of_mem_appendSegment_queue _ c _ _ _ _ _ held with old | own
        · exact h.playRemoved queued x (by rw [← noted.queue]; exact old)
        · have apart : (x.start == a.start) = false := beq_eq_false_iff_ne.mpr fun same => later (own.symm.trans same)
          rw [CueEntry.isPlayOf, apart, Bool.and_false]
      · refine sentOrPending_of_mem (h.fillerAtOnce z source differs) rfl rfl (fun held => ?_) fun x held => ?_
        · exact State.mem_appendSegment_pending _ c _ _ _ _ _ (by rw [noted.routing.pending]; exact held) fun due =>
            later (due.symm.trans now.symm)
        · exact State.appendSegment_awaiting _ c _ _ _ _ _ (by rw [noted.routing.awaiting]; exact held)

theorem returning_late {pr : Prior} {m : ReturnMode} {point : LocalFrame} {a : OnAir} (record : s.authority c = .returning pr m point a)
    (planned : (s.cue c).planned = seg :: rest) (now : seg.start = s.cdu.now) (late : s.lateAtStart c seg = true) :
    ∃ t, t = (s.startHead c seg).planAfterStart c (s.lateAtStart c seg)
      ∧ t.authority c = .returning pr m point ⟨.fill, seg.id, (s.cfg c).filler, none, seg.stop, seg.start⟩
      ∧ t.channelFlag .cueLate c = true ∧ (∀ q, (t.cue c).players.get q ≠ .onAir)
      ∧ plannedBehind s t c rest seg.stop (fun e => 2147483648 < (e - point).toNat)
      ∧ (seg.stop ≠ some seg.start → playRemoved s t c seg.start ∧ fillerAtOnce s t c)
      ∧ OnlyChanges (cueParts c) s t := by
  obtain ⟨is, started⟩ := State.startHead_late planned late
  have air := State.headOnAir_returning ((s.removeLate_authority c c seg).trans record) (s.lateAir c seg)
  have behind := State.planAfterStart_returning air true
  have quiet := behind.planOnly
  rw [is, late]
  refine ⟨_, rfl, quiet.record.trans air, quiet.rise.kept _ _ started.flag, fun q => ?_,
    behind.plannedBehind started.planned started.lookup started.settings started.cadence started.taken started.fresh,
    lateKept_behind started behind now, ?_⟩
  · rw [quiet.players]
    exact started.players rfl q
  · exact (((s.removeLate_acts c seg).only).trans ((State.headOnAir_only _ c _).mono (by simp [cueParts, planParts]))).trans quiet.only

end

/-- Settles O43, by the state of the channel, and by whether the segment's PLAY is late at its start. -/
theorem switchWindowPutsSegmentsOnAir : Obligations.SwitchWindowPutsSegmentsOnAir := by
  refine fun s c running window => ⟨fun o plan record now => ⟨fun intime => ?_, fun clip unsent => ?_⟩,
    fun pr m point a record now => ?_, fun seg rest planned now => ⟨fun a record => ⟨fun intime => ?_, fun late => ?_⟩,
      fun pr m point a record early => ⟨fun intime => ?_, fun late => ?_⟩, fun pr m point a record gone => ?_⟩,
    fun o plan record early => ?_, fun pr m point a record early => ?_⟩
  · have onTime : s.lateAtStart c plan.segment = false := State.lateAtStart_false fun ⟨player, unsent⟩ => by
      rcases intime with other | sent
      · exact other (plannedContent_player.mp player)
      · exact sent unsent
    have run := exec_goToAir running window record
    rw [State.now, now, atOrAfter_self, if_pos rfl] at run
    obtain ⟨t, is, air, players, behind, flag⟩ := goToAir_now (plan := plan) onTime
    rw [airOfPlanned_stop] at behind
    have only := (s.goToAir_acts c plan (by rw [record]; exact nofun)).only
    rw [← is] at run only
    exact ⟨t, run, air, players, behind, flag, only⟩
  · have late : s.lateAtStart c plan.segment = true := State.lateAtStart_iff.mpr ⟨plannedContent_player.mpr clip, unsent⟩
    have run := exec_goToAir running window record
    rw [State.now, now, atOrAfter_self, if_pos rfl] at run
    obtain ⟨start, flag⟩ := goToAir_late late now
    exact ⟨_, run, start, flag, (s.goToAir_acts c plan (by rw [record]; exact nofun)).only⟩
  · have run := exec_returnComplete running window record
    rw [State.now, now, atOrAfter_self, if_pos rfl] at run
    have main := s.becomeMain_mainAgain c
    exact ⟨_, run, main.record, main.planned, main.anchor, s.becomeMain_planWithdrawn c, fun g held => s.becomeMain_routeWithdrawn c held,
      main.tally, main.flag, (s.becomeMain_acts c).only⟩
  · have run := exec_segmentStart running window (State.dueSegment_standby record planned now)
    obtain ⟨t, is, shown⟩ := standby_now record planned (State.lateAtStart_false intime)
    rw [← is] at run
    exact ⟨t, run, shown⟩
  · have run := exec_segmentStart running window (State.dueSegment_standby record planned now)
    exact ⟨_, run, standby_late record planned now (State.lateAtStart_iff.mpr late),
      ((s.startHead_acts c seg).trans (State.planAfterStart_acts _ c _)).only⟩
  · have due := State.dueSegment_returning record planned now
    rw [before_iff.mpr early, if_pos rfl] at due
    have run := exec_segmentStart running window due
    obtain ⟨t, is, shown⟩ := returning_now record planned (State.lateAtStart_false intime)
    rw [← is] at run
    exact ⟨t, run, shown⟩
  · have due := State.dueSegment_returning record planned now
    rw [before_iff.mpr early, if_pos rfl] at due
    have run := exec_segmentStart running window due
    obtain ⟨t, is, shown⟩ := returning_late record planned now (State.lateAtStart_iff.mpr late)
    rw [← is] at run
    exact ⟨t, run, shown⟩
  · have due := State.dueSegment_returning record planned now
    rw [before_false.mpr gone, if_neg (by decide)] at due
    exact exec_segmentStart_none running due
  · have run := exec_goToAir running window record
    rw [State.now, atOrAfter_false.mpr early, if_neg (by decide)] at run
    exact run
  · have run := exec_returnComplete running window record
    rw [State.now, atOrAfter_false.mpr early, if_neg (by decide)] at run
    exact run

end Sys2Proof.Machine

namespace Sys2Proof.Machine

/-! # Cue entries (R151 to R153) -/

/-! ## The join plan of an ARMED channel taken again -/

theorem State.handOn_cue (s : State) (c : Channel) (plan : JoinPlan) (n : Nat) : (s.handOn c plan n).cue c = s.cue c := by
  cases route : firstRoute s c plan.content with
  | some x => rw [State.handOn_routed route, State.placeOnAir_cue]
  | none =>
    unfold State.handOn
    split
    · rfl
    · rfl
    · next content => rw [content] at route; cases route
    · next content =>
      rw [content] at route
      rw [show (s.cfg c).filler = none from route]

theorem State.handOn_txn (s : State) (c : Channel) (plan : JoinPlan) (n : Nat) : (s.handOn c plan n).cus.txn = s.cus.txn := by
  have placed (e : LocalFrame) (x : Nat) : (s.placeOnAir c e x).cus.txn = s.cus.txn := by
    rw [State.placeOnAir, State.placeXp_cus]
  unfold State.handOn
  split
  · rfl
  · rfl
  · exact placed _ _
  · split
    · exact placed _ _
    · rfl

theorem State.noteExhausted_otherFlag (s : State) (c : Channel) (b : Bool) {k : ChannelFlag} (other : k ≠ .listExhausted) :
    (s.noteExhausted c b).channelFlag k c = s.channelFlag k c := by
  rw [State.noteExhausted, State.channelFlag_raiseIf, if_neg fun h => other h.1]
  rfl

/-- What the join plan of an ARMED channel becomes, and what stays as it was. -/
structure Rearmed (s t : State) (c : Channel) (o : Origin) (plan : JoinPlan) (j : Join) (n : Nat) : Prop where
  record : t.authority c = .armed o plan
  anchor : (t.cue c).anchor = j.anchor
  handed : handedOn s t c plan n
  txn : t.cus.txn = s.cus.txn
  flags : ∀ k, k ≠ .listExhausted → t.channelFlag k c = s.channelFlag k c

theorem State.armPlan_rearmed (s : State) (c : Channel) (o : Origin) (p : Player) (n : Nat) :
    Rearmed s (s.armPlan c o p n) c o ((s.join c).planOn p) (s.join c) n := by
  have acts := (s.noted c o p).handOn_acts c ((s.join c).planOn p) n
  have noted := State.noteJoin_noted (s.putAuthority c (.armed o ((s.join c).planOn p))) c (s.join c)
  refine ⟨?_, ?_, s.armPlan_handedOn c o p n, ?_, fun k other => ?_⟩
  · rw [State.armPlan_eq]
    exact (acts.only.authority_eq c).trans ((noted.authority c).trans ((s.authority_putAuthority c c _).trans (if_pos rfl)))
  · rw [State.armPlan_eq, State.handOn_cue, State.noteJoin_cue]
  · rw [State.armPlan_eq, State.handOn_txn]
    exact noted.txn
  · rw [show s.armPlan c o p n = (s.noted c o p).handOn c ((s.join c).planOn p) n from rfl, State.channelFlag_eq (acts.only (.channelFlags c) (by simp [planParts]))]
    exact State.noteExhausted_otherFlag _ c _ other

theorem Rearmed.of_earlier {s u t : State} {c : Channel} {o : Origin} {plan : JoinPlan} {j : Join} {n : Nat} (h : Rearmed u t c o plan j n)
    (settings : u.live = s.live) (cadence : u.cdu = s.cdu) (taken : u.xps.eventTaken = s.xps.eventTaken) : handedOn s t c plan n :=
  handedOn_of_sub h.handed settings cadence taken (fun _ m => m) (fun _ m => m) fun _ m _ _ => m

theorem State.rearmPlan_rearmed (s : State) (c : Channel) (o : Origin) (old : JoinPlan) (p : Player) (n : Nat) :
    Rearmed s (s.rearmPlan c o old p n) c o ((s.join c).planOn p) (s.join c) n := by
  have only := (s.withdrawXp_acts c old.start).only
  have again := (s.withdrawXp c old.start).armPlan_rearmed c o p n
  rw [only.join fun q hq => by simp [joinParts] at hq; rcases hq with rfl | rfl | rfl | rfl | rfl <;> simp] at again
  exact ⟨again.record, again.anchor, again.of_earlier rfl rfl rfl, again.txn, again.flags⟩

/-! ## Filler in the place of a planned clip (R153, R154) -/

/-- What stands in for a planned clip: filler of its event, from its start to its end, behind what is planned besides. -/
structure FilledIn (s t : State) (c : Channel) (g : Planned) (f : Planned) : Prop where
  planned : (t.cue c).planned = ((s.cue c).planned.filter fun y => y.start != g.start) ++ [f]
  content : f.content = .fill
  id : f.id = g.id
  start : f.start = g.start
  stop : f.stop = g.stop
  record : t.authority c = s.authority c
  routed : segmentRouted s t c f (sourceBeforeLast t c)

theorem State.fillInstead_filledIn (s : State) (c : Channel) (g : Planned) : ∃ f, FilledIn s (s.fillInstead c g) c g f := by
  have put := s.putPlanned_cue c ((s.cue c).planned.filter fun y => y.start != g.start)
  generalize without : s.putPlanned c ((s.cue c).planned.filter fun y => y.start != g.start) = u at put
  have settings : u.live = s.live := by rw [← without]; rfl
  have cadence : u.cdu = s.cdu := by rw [← without]; rfl
  have xps : u.xps = s.xps := by rw [← without]; rfl
  have record : u.authority c = s.authority c := by rw [← without]; rfl
  have filled : s.fillInstead c g = u.appendSegment c .fill g.id g.start g.stop 1 := by rw [← without]; rfl
  have cue := u.appendSegment_cue c .fill g.id g.start g.stop 1
  have routed := u.appendSegment_segmentRouted c .fill g.id g.start g.stop 1
  have last := sourceBeforeLast_of_planned (t := u.appendSegment c .fill g.id g.start g.stop 1) (u.appendSegment_live c _ _ _ _ _)
    (congrArg CueChannel.planned cue) (u.appendSegment_authority c _ _ _ _ _ c)
  rw [filled]
  refine ⟨u.nextSegment c .fill g.id g.start g.stop, ?_, rfl, rfl, rfl, rfl, (u.appendSegment_authority c _ _ _ _ _ c).trans record, ?_⟩
  · rw [cue, put]
  · rw [last]
    exact segmentRouted_from routed settings cadence (congrArg (fun k => k.eventTaken) xps) fun _ x held _ _ => by rw [← xps]; exact held

theorem FilledIn.of_earlier {s u t : State} {c : Channel} {g f : Planned} (h : FilledIn u t c g f) (settings : u.live = s.live)
    (cadence : u.cdu = s.cdu) (taken : u.xps.eventTaken = s.xps.eventTaken) (planned : (u.cue c).planned = (s.cue c).planned)
    (record : u.authority c = s.authority c) (pending : u.xps.pending ⊆ s.xps.pending) : FilledIn s t c g f where
  planned := by rw [h.planned, planned]
  content := h.content
  id := h.id
  start := h.start
  stop := h.stop
  record := h.record.trans record
  routed := segmentRouted_from h.routed settings cadence taken fun _ _ held _ _ => pending held

end Sys2Proof.Machine

namespace Sys2Proof.Machine

/-! ## Taking the head entry (R151, R153) -/

theorem State.isLate_iff {s : State} {x : CueEntry} : s.isLate x = true ↔
    x.action ≠ .cancel ∧ 0 < (s.cdu.now - x.deadline).toNat ∧ (s.cdu.now - x.deadline).toNat < 2147483648 := by
  have order : 2147483648 < (x.deadline - s.cdu.now).toNat
      ↔ 0 < (s.cdu.now - x.deadline).toNat ∧ (s.cdu.now - x.deadline).toNat < 2147483648 := by
    generalize x.deadline = d
    generalize s.cdu.now = n
    bv_omega
  rw [State.isLate, Bool.and_eq_true, before_iff, State.now, order]
  refine and_congr_left fun _ => ?_
  cases x.action <;> simp [CueAction.isPlay]

theorem exec_cueTake {s : State} {x : CueEntry} {rest : List CueEntry} (running : s.power = .running) (idle : s.cus.txn = none)
    (queue : s.cus.queue = x :: rest) : exec .cueTake s = .next (s.takeEntry x rest) := by
  show execCueTake s = _
  refine whenRunning_next running ?_
  rw [idle, queue]

theorem State.takeEntry_late {s : State} {x : CueEntry} (late : s.isLate x = true) (rest : List CueEntry) :
    s.takeEntry x rest = (s.putQueue rest).latePlay x := if_pos late

theorem State.takeEntry_inTime {s : State} {x : CueEntry} (inTime : s.isLate x = false) (rest : List CueEntry) :
    s.takeEntry x rest = (s.putQueue rest).putTxn (some ⟨x, false, .sending false, s.live.replyTimeout, s.messageOf x⟩) := by
  show (if s.isLate x = true then _ else _) = _
  rw [inTime]
  rfl

/-- R153: what is done for a late PLAY, by the state of its channel. -/
theorem State.latePlay_cases {P : State → Prop} (s : State) (x : CueEntry)
    (armed : ∀ o plan, P ((s.raise .cueLate x.channel).rearmPlan x.channel o plan ((s.raise .cueLate x.channel).armingPlayer x.channel) 1))
    (fresh : P ((s.raise .cueLate x.channel).freshJoin x.channel false))
    (filled : ∀ g, P ((s.raise .cueLate x.channel).fillInstead x.channel g)) (quiet : P (s.raise .cueLate x.channel)) : P (s.latePlay x) := by
  unfold State.latePlay
  dsimp only
  split
  · next o plan _ =>
    split
    · exact armed o plan
    · exact quiet
  · split
    · exact fresh
    · exact quiet
  · split
    · next g _ => exact filled g
    · exact quiet
  · exact quiet
  · exact quiet

theorem Bridged.txn {s t : State} {c : Channel} {jl : LocalFrame} (h : Bridged s c jl t) : t.cus.txn = s.cus.txn := by
  cases h with
  | ends => rw [(s.endAirAt_noted c jl).2.1]
  | bridge i b x _ _ => exact s.appendSegment_txn c x i b _ 1

theorem State.planJoin_txn (s : State) (c : Channel) (started : Bool) (replaced : Option Planned) (j : Join) :
    (s.planJoin c started replaced j).cus.txn = s.cus.txn := by
  rw [State.planJoin_eq, State.appendSegment_txn]
  exact ((s.noteJoin c j).bridgeTo_bridged c started replaced j.plan.start).txn.trans (s.noteJoin_noted c j).txn

theorem Withdraws.no_txn {c : Channel} {s t : State} (h : Withdraws c s t) (idle : s.cus.txn = none) : t.cus.txn = none := by
  rcases h.txn with same | marked
  · exact same.trans idle
  · rw [marked, idle]
    rfl

theorem State.freshJoin_txn {s : State} (idle : s.cus.txn = none) (c : Channel) (started : Bool) : (s.freshJoin c started).cus.txn = none := by
  rw [State.freshJoin, State.planJoin_txn]
  exact (s.withdrawPlan_keeps c).1.no_txn idle

theorem State.fillInstead_flags (s : State) (c : Channel) (g : Planned) (k : ChannelFlag) :
    (s.fillInstead c g).channelFlag k c = s.channelFlag k c := by
  have acts := State.appendSegment_acts (s.putPlanned c ((s.cue c).planned.filter fun y => y.start != g.start)) c .fill g.id g.start g.stop 1
  rw [State.fillInstead, State.channelFlag_eq (acts.only (.channelFlags c) (by simp [planParts]))]
  rfl

theorem State.latePlay_kept {s : State} (x : CueEntry) (idle : s.cus.txn = none) :
    (s.latePlay x).cus.txn = none ∧ (s.latePlay x).channelFlag .cueLate x.channel = true := by
  have raised := State.raise_set s .cueLate x.channel
  have still : (s.raise .cueLate x.channel).cus.txn = none := idle
  refine s.latePlay_cases (P := fun t => t.cus.txn = none ∧ t.channelFlag .cueLate x.channel = true) x (fun o plan => ?_) ?_ (fun g => ?_)
    ⟨still, raised⟩
  · have again := State.rearmPlan_rearmed (s.raise .cueLate x.channel) x.channel o plan
      ((s.raise .cueLate x.channel).armingPlayer x.channel) 1
    exact ⟨again.txn.trans still, (again.flags .cueLate (by decide)).trans raised⟩
  · exact ⟨State.freshJoin_txn still _ _, (State.freshJoin_rise _ _ _).kept _ _ raised⟩
  · refine ⟨?_, (State.fillInstead_flags _ _ _ _).trans raised⟩
    rw [State.fillInstead, State.appendSegment_txn]
    exact still

/-- The state in which a late PLAY is handled: its entry is gone and CUE-LATE is set. -/
def State.lateTaken (s : State) (c : Channel) (rest : List CueEntry) : State := (s.putQueue rest).raise .cueLate c

section
variable (s : State) (c : Channel) (rest : List CueEntry)

theorem State.lateTaken_only : OnlyChanges (.cueQueue :: flagParts c) s (s.lateTaken c rest) :=
  ((s.putQueue_acts rest).only.mono (by simp)).trans ((State.raise_acts _ .cueLate c).only.mono (by simp))

theorem State.lateTaken_join : (s.lateTaken c rest).join c = State.join { s with cus := { s.cus with queue := rest } } c :=
  ((s.putQueue rest).raise_acts .cueLate c).only.join fun q hq => by
    simp [joinParts] at hq
    rcases hq with rfl | rfl | rfl | rfl | rfl <;> simp [flagParts]

theorem State.lateTaken_flags {k : ChannelFlag} (other : k ≠ .cueLate) : (s.lateTaken c rest).channelFlag k c = s.channelFlag k c := by
  rw [State.lateTaken, State.channelFlag_raise, if_neg fun h => other h.1]
  rfl

theorem State.lateTaken_cus : (s.lateTaken c rest).cus = { s.cus with queue := rest } := rfl

end

/-- R153 in ARMED. -/
theorem State.latePlay_armed {s : State} {x : CueEntry} {o : Origin} {plan : JoinPlan} (record : s.authority x.channel = .armed o plan)
    (start : plan.start = x.start) (rest : List CueEntry) : (s.putQueue rest).latePlay x
      = (s.lateTaken x.channel rest).rearmPlan x.channel o plan ((s.lateTaken x.channel rest).armingPlayer x.channel) 1 := by
  have same : (s.lateTaken x.channel rest).authority x.channel = .armed o plan :=
    Eq.trans (s.lateTaken_only x.channel rest (.authority x.channel) (by simp [flagParts])) record
  unfold State.latePlay
  dsimp only
  rw [show ((s.putQueue rest).raise .cueLate x.channel).authority x.channel = .armed o plan from same]
  exact if_pos start

theorem State.find_planned {s : State} {x : CueEntry} {g : Planned} (planned : (s.cue x.channel).planned = [g]) (start : g.start = x.start)
    (player : g.content.player = some x.player) : s.plannedFor x = some g := by
  rw [State.plannedFor, planned, List.find?_cons_of_pos]
  simp [start, player]

/-- R153 in STANDBY. -/
theorem State.latePlay_standby {s : State} {x : CueEntry} {a : OnAir} {g : Planned} (record : s.authority x.channel = .standby a)
    (for' : s.plannedFor x = some g) (rest : List CueEntry) : (s.putQueue rest).latePlay x = (s.lateTaken x.channel rest).freshJoin x.channel false := by
  have same : (s.lateTaken x.channel rest).authority x.channel = .standby a :=
    Eq.trans (s.lateTaken_only x.channel rest (.authority x.channel) (by simp [flagParts])) record
  have found : ((s.putQueue rest).raise .cueLate x.channel).plannedFor x = some g := for'
  unfold State.latePlay
  dsimp only
  rw [show ((s.putQueue rest).raise .cueLate x.channel).authority x.channel = .standby a from same]
  dsimp only
  rw [found]
  rfl

/-- R153 in RETURNING. -/
theorem State.latePlay_returning {s : State} {x : CueEntry} {pr : Prior} {m : ReturnMode} {point : LocalFrame} {a : OnAir} {g : Planned}
    (record : s.authority x.channel = .returning pr m point a) (for' : s.plannedFor x = some g) (rest : List CueEntry) :
    (s.putQueue rest).latePlay x = (s.lateTaken x.channel rest).fillInstead x.channel g := by
  have same : (s.lateTaken x.channel rest).authority x.channel = .returning pr m point a :=
    Eq.trans (s.lateTaken_only x.channel rest (.authority x.channel) (by simp [flagParts])) record
  have found : ((s.putQueue rest).raise .cueLate x.channel).plannedFor x = some g := for'
  unfold State.latePlay
  dsimp only
  rw [show ((s.putQueue rest).raise .cueLate x.channel).authority x.channel = .returning pr m point a from same]
  dsimp only
  rw [found]
  rfl

/-! ## A planned clip replaced by a fresh join (R146) -/

/-- R143: nothing of cueing is withdrawn for a clip with no PLAY and a player that is not CUED. -/
theorem State.withdrawPlay_nothing {s : State} {c : Channel} {p : Player} {e : LocalFrame} (queued : s.playQueued c e = false)
    (inTxn : s.playInTxn c e = false) (out : s.playerState c p ≠ .cued) : s.withdrawPlay c p e = s := by
  rw [State.withdrawPlay, queued, inTxn, if_neg (by decide), if_neg (by decide), if_neg out]

theorem State.withdrawPlan_single {s : State} {c : Channel} {g : Planned} {p : Player} (planned : (s.cue c).planned = [g])
    (player : g.content.player = some p) (queued : s.playQueued c g.start = false) (inTxn : s.playInTxn c g.start = false)
    (out : s.playerState c p ≠ .cued) : s.withdrawPlan c = (s.putPlanned c []).withdrawXp c g.start := by
  have nothing := State.withdrawPlay_nothing (s := s.putPlanned c []) queued inTxn (by rw [State.putPlanned_player]; exact out)
  rw [State.withdrawPlan, State.withdrawPlanned_eq, planned]
  show (s.putPlanned c []).withdrawSegment c g.content.player g.start = _
  rw [player]
  exact congrArg (fun t => t.withdrawXp c g.start) nothing

theorem State.bridgeTo_replaced (s : State) (c : Channel) (g : Planned) (jl : LocalFrame) : s.bridgeTo c false (some g) jl
    = if before g.start jl then s.appendSegment c (if g.id = 0 then .gap else .fill) g.id g.start (some jl) 1 else s.endAirAt c jl := rfl

/-- A later segment with another start leaves what is said of an earlier one. -/
theorem segmentRouted_append {s t : State} {c : Channel} {g : Planned} {b : Option Nat} (h : segmentRouted s t c g b) {e : LocalFrame}
    (other : e ≠ g.start) (x : PlannedContent) (i : EventId) (stop : Option LocalFrame) (n : Nat) :
    segmentRouted s (t.appendSegment c x i e stop n) c g b := by
  have old {y : Crosspoint} (held : y ∈ (t.appendSegment c x i e stop n).xps.pending) (due : y.due = g.start) : y ∈ t.xps.pending :=
    (t.of_mem_appendSegment_pending c x i e stop n held).resolve_right fun own => other (own.2.symm.trans due)
  obtain ⟨clip, rest⟩ := h
  refine ⟨fun player => ?_, fun player => ⟨fun z found differs => ?_, fun without => ?_⟩⟩
  · obtain ⟨notPlaced, fresh⟩ := clip player
    exact ⟨notPlaced, fun later y held channel due => fresh later y (old held due) channel due⟩
  · obtain ⟨placed, sent⟩ := (rest player).1 z found differs
    exact ⟨placed, sentOrPending_of_mem sent rfl rfl
      (fun held => t.mem_appendSegment_pending c x i e stop n held fun due => other due.symm) (t.appendSegment_awaiting c x i e stop n)⟩
  · obtain ⟨notPlaced, fresh⟩ := (rest player).2 without
    exact ⟨notPlaced, fun later y held channel due => fresh later y (old held due) channel due⟩

/-- What is said of a joined segment, seen from a state that differs in nothing it reads. -/
theorem joinPlanned_from {s u t : State} {c : Channel} {j : Join} {g : Planned} (h : joinPlanned u t c j g) (settings : u.live = s.live)
    (cadence : u.cdu = s.cdu) (taken : u.xps.eventTaken = s.xps.eventTaken) (pending : u.xps.pending ⊆ s.xps.pending) : joinPlanned s t c j g := by
  obtain ⟨start, id, stop, anchor, ⟨q, content, held⟩, routed⟩ := h
  exact ⟨start, id, stop, anchor, ⟨q, content, playHeld_of_sub held settings fun _ m => m⟩,
    segmentRouted_from routed settings cadence taken fun _ _ held _ _ => pending held⟩

/-- R146: a fresh join with nothing else planned, at whose frame the segment on air ends. -/
theorem State.planJoin_ends {s : State} {c : Channel} {a : OnAir} (record : s.authority c = .standby a) (nothing : (s.cue c).planned = [])
    {started : Bool} {replaced : Option Planned} {j : Join}
    (ends : s.bridged c started replaced j = (s.noteJoin c j).endAirAt c j.plan.start) :
    ∃ first, joinPlanned s (s.planJoin c started replaced j) c j first
      ∧ (s.planJoin c started replaced j).authority c = .standby { a with stop := some j.plan.start }
      ∧ ((s.planJoin c started replaced j).cue c).planned = [first] := by
  obtain ⟨first, planned, joined, same⟩ := s.planJoin_joinPlanned c started replaced j
  have cue := s.noteJoin_cue c j
  have air : (s.noteJoin c j).authority c = .standby a := ((s.noteJoin_noted c j).authority c).trans record
  rw [ends] at same planned
  refine ⟨first, joined, same.trans (State.amendAir_standby air _), ?_⟩
  rw [planned, State.cue, ((s.noteJoin c j).endAirAt_noted c j.plan.start).2.1]
  exact congrArg (fun k : CueChannel => k.planned ++ [first]) cue |>.trans (by rw [nothing]; rfl)

/-- R146: a fresh join with nothing else planned, behind a bridge. -/
theorem State.planJoin_bridges {s : State} {c : Channel} {a : OnAir} (record : s.authority c = .standby a) (nothing : (s.cue c).planned = [])
    {started : Bool} {replaced : Option Planned} {j : Join} {x : PlannedContent} {i : EventId} {e : LocalFrame}
    (bridges : s.bridged c started replaced j = (s.noteJoin c j).appendSegment c x i e (some j.plan.start) 1)
    (early : before e j.plan.start = true) :
    ∃ bridge first, joinPlanned s (s.planJoin c started replaced j) c j first
      ∧ (s.planJoin c started replaced j).authority c = .standby a
      ∧ ((s.planJoin c started replaced j).cue c).planned = [bridge, first]
      ∧ bridge = (s.noteJoin c j).nextSegment c x i e (some j.plan.start)
      ∧ segmentRouted s (s.planJoin c started replaced j) c bridge a.source := by
  obtain ⟨first, planned, joined, same⟩ := s.planJoin_joinPlanned c started replaced j
  have noted := s.noteJoin_noted c j
  have cue := s.noteJoin_cue c j
  have air : (s.noteJoin c j).authority c = .standby a := (noted.authority c).trans record
  have put := (s.noteJoin c j).appendSegment_cue c x i e (some j.plan.start) 1
  have routed := (s.noteJoin c j).appendSegment_segmentRouted c x i e (some j.plan.start) 1
  have source : (s.noteJoin c j).sourceBefore c = a.source := by
    rw [State.sourceBefore, cue, nothing]
    exact congrArg (fun r => r.air.bind fun a => a.source) air
  rw [source] at routed
  rw [bridges] at same planned
  refine ⟨_, first, joined, same.trans ((State.appendSegment_authority _ c _ _ _ _ _ c).trans air), ?_, rfl, ?_⟩
  · rw [planned, put, cue, nothing]
    rfl
  · rw [State.planJoin_eq, bridges]
    refine segmentRouted_append (segmentRouted_from routed noted.settings noted.routing.cadence noted.routing.taken fun _ x held _ _ => ?_)
      (before_ne early).symm _ _ _ _
    rw [← noted.routing.pending]
    exact held

/-- R146: a fresh join in the place of a clip that has not started, on a channel with nothing else planned. -/
theorem State.planJoin_replaced {s : State} {c : Channel} {a : OnAir} (record : s.authority c = .standby a) (nothing : (s.cue c).planned = [])
    (g : Planned) (j : Join) : replacedByJoin s (s.planJoin c false (some g) j) c a g j := by
  have bridge := State.bridgeTo_replaced (s.noteJoin c j) c g j.plan.start
  by_cases early : before g.start j.plan.start = true
  · rw [early, if_pos rfl] at bridge
    obtain ⟨b, first, joined, same, planned, rfl, routed⟩ := State.planJoin_bridges record nothing (started := false) (replaced := some g) bridge early
    exact ⟨first, joined, fun _ => ⟨same, _, planned, rfl, rfl, rfl, rfl, routed⟩,
      fun late => absurd (before_iff.mp early) (Nat.not_lt.mpr late)⟩
  · rw [if_neg early] at bridge
    obtain ⟨first, joined, same, planned⟩ := State.planJoin_ends record nothing (started := false) (replaced := some g) bridge
    exact ⟨first, joined, fun first => absurd (before_iff.mpr first) early, fun _ => ⟨same, planned⟩⟩

theorem replacedByJoin_from {s u t : State} {c : Channel} {a : OnAir} {g : Planned} {j : Join} (h : replacedByJoin u t c a g j)
    (settings : u.live = s.live) (cadence : u.cdu = s.cdu) (taken : u.xps.eventTaken = s.xps.eventTaken)
    (pending : u.xps.pending ⊆ s.xps.pending) : replacedByJoin s t c a g j := by
  obtain ⟨first, joined, early, late⟩ := h
  refine ⟨first, joinPlanned_from joined settings cadence taken pending, fun before => ?_, late⟩
  obtain ⟨record, bridge, planned, start, stop, id, content, routed⟩ := early before
  exact ⟨record, bridge, planned, start, stop, id, content,
    segmentRouted_from routed settings cadence taken fun _ _ held _ _ => pending held⟩

theorem State.latePlay_replaced {s : State} {x : CueEntry} {a : OnAir} {g : Planned} {rest : List CueEntry}
    (record : s.authority x.channel = .standby a) (planned : (s.cue x.channel).planned = [g]) (start : g.start = x.start)
    (player : g.content.player = some x.player) (out : s.playerState x.channel x.player ≠ .cued) (idle : s.cus.txn = none)
    (gone : ∀ y ∈ rest, y.isPlayOf x.channel x.start = false) :
    replacedByJoin s ((s.putQueue rest).latePlay x) x.channel a g (State.join { s with cus := { s.cus with queue := rest } } x.channel) := by
  have only := s.lateTaken_only x.channel rest
  have cue : (s.lateTaken x.channel rest).cue x.channel = s.cue x.channel := only (.plan x.channel) (by simp [flagParts])
  have cus := s.lateTaken_cus x.channel rest
  have joins := s.lateTaken_join x.channel rest
  have settings : (s.lateTaken x.channel rest).live = s.live := only .settings (by simp [flagParts])
  have routing := only.routing (by simp [flagParts]) (by simp [flagParts])
  have authority : (s.lateTaken x.channel rest).authority x.channel = _ := Eq.trans (only (.authority x.channel) (by simp [flagParts])) record
  rw [State.latePlay_standby record (State.find_planned planned start player)]
  generalize s.lateTaken x.channel rest = w at *
  have withdrawn : w.withdrawPlan x.channel = _ := State.withdrawPlan_single (by rw [cue]; exact planned) player
    (State.playQueued_false.mpr (by rw [cus, start]; exact gone)) (State.playInTxn_false.mpr (by rw [cus, idle]; exact nofun))
    (by rw [State.playerState, cue]; exact out)
  have same : (w.withdrawPlan x.channel).join x.channel = w.join x.channel := by
    rw [withdrawn]
    exact State.join_of_same rfl rfl rfl rfl rfl rfl
  rw [← joins, ← same, State.freshJoin, cue, planned]
  have settings' := (w.withdrawPlan_keeps x.channel).1.settings.trans settings
  have cadence := (w.withdrawPlan_keeps x.channel).1.cadence.trans routing.cadence
  refine replacedByJoin_from (State.planJoin_replaced ((w.withdrawPlan_authority _ _).trans authority) (w.withdrawPlan_planned _) g _)
    settings' cadence ((w.withdrawPlan_taken _).trans routing.taken) ?_
  rw [← routing.pending]
  exact (w.withdrawPlan_keeps x.channel).2

end Sys2Proof.Machine

namespace Sys2Proof.Machine

/-! ## The end of a send (R151, R159) -/

theorem exec_cueSendEnd {s : State} {k : Txn} (running : s.power = .running) (txn : s.cus.txn = some k) (ended : k.phase = .sending true) :
    exec .cueSendEnd s = .next (s.sendEnded k) := by
  show execCueSendEnd s = _
  refine whenRunning_next running ?_
  rw [txn]
  exact if_pos ended

theorem State.sendEnded_quiet {s : State} {k : Txn} (quiet : k.entry.action = .cancel ∨ k.withdrawn = true) :
    s.sendEnded k = s.putTxn (some { k with phase := .awaiting k.replyTimeout }) := by
  refine if_neg ?_
  rcases quiet with cancel | withdrawn
  · simp [cancel, CueAction.isPlay]
  · simp [withdrawn]

theorem CueAction.isPlay_of_ne {a : CueAction} (other : a ≠ .cancel) : a.isPlay = true := by
  cases a with
  | play => rfl
  | cancel => exact absurd rfl other

theorem State.sendEnded_play {s : State} {k : Txn} (play : k.entry.action ≠ .cancel) (stands : k.withdrawn = false) :
    s.sendEnded k = (s.putTxn (some { k with phase := .awaiting k.replyTimeout })).playSent k.entry := by
  refine if_pos ?_
  rw [CueAction.isPlay_of_ne play, stands]
  rfl

/-- A PLAY that has been sent has its player CUED, and its crosspoint placed where its source is another than that before it. -/
structure Sent (s t : State) (x : CueEntry) : Prop where
  player : t.playerState x.channel x.player = .cued
  queue : t.cus.queue = s.cus.queue
  txn : t.cus.txn = s.cus.txn
  routed : s.sourceAhead x.channel x.start ≠ some (s.playerSource x.channel x.player) →
    placed s t ⟨(s.cfg x.channel).destination, x.start, s.playerSource x.channel x.player, x.channel⟩

theorem State.putPlanned_keeps (s : State) (c : Channel) (xs : List Planned) : (s.putPlanned c xs).cus.queue = s.cus.queue
    ∧ (s.putPlanned c xs).cus.txn = s.cus.txn ∧ (s.putPlanned c xs).xps = s.xps := ⟨rfl, rfl, rfl⟩

theorem State.playSent_sent (s : State) (x : CueEntry) : Sent s (s.playSent x) x := by
  have cued := s.setPlayer_state x.channel x.player .cued
  have ahead : (s.setPlayer x.channel x.player .cued).playerState x.channel x.player = .cued := cued
  unfold State.playSent
  dsimp only
  split
  · next same => exact ⟨ahead, rfl, rfl, fun differs => absurd same differs⟩
  · have placed := (s.setPlayer x.channel x.player .cued).placeXp_placed
      ⟨(s.cfg x.channel).destination, x.start, s.playerSource x.channel x.player, x.channel⟩
    have cus := (s.setPlayer x.channel x.player .cued).placeXp_cus
      ⟨(s.cfg x.channel).destination, x.start, s.playerSource x.channel x.player, x.channel⟩
    have is : (s.setPlayer x.channel x.player .cued).placeOnAir x.channel x.start (s.playerSource x.channel x.player)
        = (s.setPlayer x.channel x.player .cued).placeXp
          ⟨(s.cfg x.channel).destination, x.start, s.playerSource x.channel x.player, x.channel⟩ := rfl
    rw [is, State.markPlaced]
    generalize ((s.setPlayer x.channel x.player .cued).placeXp
      ⟨(s.cfg x.channel).destination, x.start, s.playerSource x.channel x.player, x.channel⟩) = w at *
    generalize ((w.cue x.channel).planned.map _) = marked
    obtain ⟨queue, txn, xps⟩ := w.putPlanned_keeps x.channel marked
    refine ⟨?_, queue.trans (congrArg (fun k => k.queue) cus), txn.trans (congrArg (fun k => k.txn) cus), fun _ => ?_⟩
    · rw [State.putPlanned_player, State.playerState, State.cue, cus]
      exact ahead
    · exact placed_of_same placed ⟨rfl, rfl, rfl, rfl⟩ (congrArg (fun k => k.pending) xps) (congrArg (fun k => k.awaiting) xps)

theorem Sent.of_putTxn {s t : State} {x : CueEntry} {k : Option Txn} (h : Sent (s.putTxn k) t x) :
    s.sourceAhead x.channel x.start ≠ some (s.playerSource x.channel x.player) →
      placed s t ⟨(s.cfg x.channel).destination, x.start, s.playerSource x.channel x.player, x.channel⟩ := fun differs =>
  placed_of_same (h.routed differs) ⟨rfl, rfl, rfl, rfl⟩ rfl rfl

theorem exec_cueReply_other {s : State} {k : Txn} (running : s.power = .running) (txn : s.cus.txn = some k) {a : Byte}
    (other : a.toNat ≠ k.entry.address) (b : Byte) : exec (.cueReply a b) s = .next s := by
  show execCueReply a b s = _
  refine whenRunning_next running ?_
  rw [txn]
  exact if_neg fun same => other (beq_iff_eq.mp same).symm

/-- Settles O46, by whether the head entry is late, and by the state of the channel of a late PLAY. -/
theorem cueEntriesAreTakenAndSent : Obligations.CueEntriesAreTakenAndSent := by
  refine fun s running => ⟨fun x rest idle queue => ⟨fun inTime => ?_, fun play early close => ?_⟩, fun k txn ended => ?_,
    fun k a b txn other => exec_cueReply_other running txn other b⟩
  · have onTime : s.isLate x = false := Bool.eq_false_iff.mpr fun late => by
      obtain ⟨play, early, close⟩ := State.isLate_iff.mp late
      rcases inTime with cancel | due | ahead
      · exact play cancel
      · omega
      · omega
    have run := exec_cueTake running idle queue
    rw [State.takeEntry_inTime onTime] at run
    refine ⟨_, _, run, rfl, rfl, rfl, rfl, rfl, rfl, fun cancel => ?_, fun clipId media n i clip => ?_,
      ((s.putQueue_acts rest).trans (State.putTxn_acts _ _)).only⟩
    · show s.messageOf x = _
      rw [State.messageOf, cancel]
    · show s.messageOf x = _
      rw [State.messageOf, clip]
      rfl
  · have late : s.isLate x = true := State.isLate_iff.mpr ⟨play, early, close⟩
    have run := exec_cueTake running idle queue
    have only := (s.takeEntry_acts x rest).only
    rw [State.takeEntry_late late] at run only
    obtain ⟨none, flag⟩ := State.latePlay_kept (s := s.putQueue rest) x idle
    have taken := s.lateTaken_only x.channel rest
    have settings : (s.lateTaken x.channel rest).live = s.live := taken .settings (by simp [flagParts])
    have routing := taken.routing (by simp [flagParts]) (by simp [flagParts])
    refine ⟨_, run, none, flag, fun o g record start => ?_, fun a g record planned start player out gone =>
      State.latePlay_replaced record planned start player out idle gone, fun pr m point a g record for' => ?_, only⟩
    · have again := (s.lateTaken x.channel rest).rearmPlan_rearmed x.channel o g ((s.lateTaken x.channel rest).armingPlayer x.channel) 1
      rw [s.lateTaken_join] at again
      rw [State.latePlay_armed record start]
      exact ⟨_, again.record, again.anchor, again.of_earlier settings routing.cadence routing.taken,
        (again.flags .authorityChange (by decide)).trans (s.lateTaken_flags _ _ (by decide))⟩
    · obtain ⟨f, filled⟩ := (s.lateTaken x.channel rest).fillInstead_filledIn x.channel g
      have cue : (s.lateTaken x.channel rest).cue x.channel = s.cue x.channel := taken (.plan x.channel) (by simp [flagParts])
      have from_s := filled.of_earlier settings routing.cadence routing.taken (congrArg CueChannel.planned cue)
        (taken (.authority x.channel) (by simp [flagParts])) (by rw [routing.pending]; exact fun _ m => m)
      rw [State.latePlay_returning record for']
      exact ⟨f, from_s.planned, from_s.content, from_s.id, from_s.start, from_s.stop, from_s.record, from_s.routed⟩
  · have run := exec_cueSendEnd running txn ended
    have only := (s.sendEnded_acts k).only
    by_cases quiet : k.entry.action = .cancel ∨ k.withdrawn = true
    · rw [State.sendEnded_quiet quiet] at run only
      refine ⟨_, run, rfl, rfl, fun _ => (State.putTxn_acts _ _).only, fun play stands => ?_, only⟩
      rcases quiet with cancel | withdrawn
      · exact absurd cancel play
      · rw [withdrawn] at stands; cases stands
    · obtain ⟨play, stands⟩ := not_or.mp quiet
      rw [State.sendEnded_play play (Bool.eq_false_iff.mpr stands)] at run only
      have sent := (s.putTxn (some { k with phase := .awaiting k.replyTimeout })).playSent_sent k.entry
      exact ⟨_, run, sent.txn, sent.queue, fun quiet' => absurd quiet' quiet, fun _ _ => ⟨sent.player, sent.of_putTxn⟩, only⟩

end Sys2Proof.Machine

namespace Sys2Proof.Machine

/-! # The end of an ML transaction (R152, R154 to R156) -/

theorem exec_cueReply {s : State} {k : Txn} (running : s.power = .running) (txn : s.cus.txn = some k) {a : Byte}
    (same : a.toNat = k.entry.address) (b : Byte) : exec (.cueReply a b) s = .next (s.replyTo k (b == 0)) := by
  show execCueReply a b s = _
  refine whenRunning_next running ?_
  rw [txn]
  exact if_pos (beq_iff_eq.mpr same.symm)

theorem exec_cueReplyTimeout {s : State} {k : Txn} (running : s.power = .running) (txn : s.cus.txn = some k) (out : k.phase = .awaiting 0) :
    exec .cueReplyTimeout s = .next (s.endTxn k false) := by
  show execCueReplyTimeout s = _
  refine whenRunning_next running ?_
  rw [txn]
  exact if_pos out

theorem State.replyTo_fail (s : State) (k : Txn) : s.replyTo k false = s.endTxn k false := by
  rw [State.replyTo, Bool.and_false]
  rfl

theorem exec_fails {s : State} {k : Txn} (running : s.power = .running) (txn : s.cus.txn = some k) {i : Instr}
    (fails : i = .cueReplyTimeout ∧ k.phase = .awaiting 0 ∨ ∃ a b : Byte, i = .cueReply a b ∧ a.toNat = k.entry.address ∧ b ≠ 0) :
    exec i s = .next (s.endTxn k false) := by
  rcases fails with ⟨rfl, out⟩ | ⟨a, b, rfl, same, other⟩
  · exact exec_cueReplyTimeout running txn out
  · rw [exec_cueReply running txn same, beq_eq_false_iff_ne.mpr other, State.replyTo_fail]

theorem State.endTxn_cancel {s : State} {k : Txn} (cancel : k.entry.action = .cancel) (ok : Bool) : s.endTxn k ok = s.putTxn none := by
  unfold State.endTxn
  rw [cancel]
  rfl

theorem State.endTxn_withdrawn {s : State} {k : Txn} (play : k.entry.action ≠ .cancel) (withdrawn : k.withdrawn = true) (ok : Bool) :
    s.endTxn k ok = if ok then (s.putTxn none).queueCancel k.entry.channel k.entry.player else s.putTxn none := by
  unfold State.endTxn
  rw [CueAction.isPlay_of_ne play, withdrawn, if_pos rfl, if_pos rfl]

theorem State.endTxn_stands {s : State} {k : Txn} (play : k.entry.action ≠ .cancel) (stands : k.withdrawn = false) (ok : Bool) :
    s.endTxn k ok = if ok then s.putTxn none else (s.putTxn none).failedPlay k.entry := by
  unfold State.endTxn
  rw [CueAction.isPlay_of_ne play, stands, if_pos rfl, if_neg (by decide)]

theorem State.replyTo_sending {s : State} {k : Txn} (sending : k.isSending = true) : s.replyTo k true = (s.sendEnded k).endTxn k true := by
  rw [State.replyTo, sending]
  rfl

theorem State.replyTo_waiting {s : State} {k : Txn} (waiting : k.isSending = false) : s.replyTo k true = s.endTxn k true := by
  rw [State.replyTo, waiting]
  rfl

theorem State.putTxn_putTxn (s : State) (k l : Option Txn) : (s.putTxn k).putTxn l = s.putTxn l := rfl

theorem State.replyTo_cancel {s : State} {k : Txn} (cancel : k.entry.action = .cancel) : s.replyTo k true = s.putTxn none := by
  cases sending : k.isSending with
  | true => rw [State.replyTo_sending sending, State.sendEnded_quiet (Or.inl cancel), State.endTxn_cancel cancel, State.putTxn_putTxn]
  | false => rw [State.replyTo_waiting sending, State.endTxn_cancel cancel]

theorem State.replyTo_withdrawn {s : State} {k : Txn} (play : k.entry.action ≠ .cancel) (withdrawn : k.withdrawn = true) :
    s.replyTo k true = (s.putTxn none).queueCancel k.entry.channel k.entry.player := by
  cases sending : k.isSending with
  | true =>
    rw [State.replyTo_sending sending, State.sendEnded_quiet (Or.inr withdrawn), State.endTxn_withdrawn play withdrawn, State.putTxn_putTxn,
      if_pos rfl]
  | false => rw [State.replyTo_waiting sending, State.endTxn_withdrawn play withdrawn, if_pos rfl]

/-! ## A failed PLAY, by the channel's record and plan (R154, R155) -/

theorem State.failedPlay_armed {s : State} {x : CueEntry} {o : Origin} {plan : JoinPlan} (record : s.authority x.channel = .armed o plan) :
    s.failedPlay x = if plan.start = x.start ∧ plan.player = some x.player then s.failArmed x o plan else s.failStarted x := by
  unfold State.failedPlay
  rw [record]

theorem State.failedPlay_planned {s : State} {x : CueEntry} {g : Planned} (record : ∀ o plan, s.authority x.channel ≠ .armed o plan)
    (for' : s.plannedFor x = some g) : s.failedPlay x = s.failPlanned x g := by
  unfold State.failedPlay
  rw [for']
  split
  · next same => exact absurd same (record _ _)
  · next found _ => cases found; rfl
  · next found _ => cases found

theorem State.failedPlay_started {s : State} {x : CueEntry} (record : ∀ o plan, s.authority x.channel ≠ .armed o plan)
    (for' : s.plannedFor x = none) : s.failedPlay x = s.failStarted x := by
  unfold State.failedPlay
  rw [for']
  split
  · next same => exact absurd same (record _ _)
  · next found _ => cases found
  · rfl

theorem State.setPlayer_cue (s : State) (c : Channel) (p : Player) (x : PlayerState) :
    (s.setPlayer c p x).cue c = { s.cue c with players := (s.cue c).players.put p x } := by
  rw [State.setPlayer, State.cue_putCue, if_pos rfl]
  rfl

theorem State.uncue_cue (s : State) (c : Channel) (p : Player) : ∃ v, (s.uncue c p).cue c = { s.cue c with players := v }
    ∧ v.get p.other = (s.cue c).players.get p.other := by
  unfold State.uncue
  split
  · exact ⟨_, s.setPlayer_cue c p .idle, PerSide.get_put_ne _ _ _ _ (Side.other_ne p)⟩
  · exact ⟨_, rfl, rfl⟩

theorem State.uncue_only (s : State) (c : Channel) (p : Player) : OnlyChanges [.plan c] s (s.uncue c p) := by
  unfold State.uncue
  split
  · exact (s.putCue_acts c _).only
  · exact OnlyChanges.refl _ s

/-- R154: the retry on the other player, which is free. -/
theorem State.mayRetry_iff {s : State} {x : CueEntry} {clipId : List Byte} {media n : Nat} {e : EventId}
    (play : x.action = .play clipId media n e) : s.mayRetry x = true ↔ n = 1 ∧ s.playerState x.channel x.player.other ≠ .onAir := by
  rw [State.mayRetry, play]
  simp [State.playerFree]

theorem State.uncue_mayRetry (s : State) (x : CueEntry) : (s.uncue x.channel x.player).mayRetry x = s.mayRetry x := by
  obtain ⟨v, cue, other⟩ := s.uncue_cue x.channel x.player
  have same : (s.uncue x.channel x.player).playerState x.channel x.player.other = s.playerState x.channel x.player.other := by
    rw [State.playerState, cue]
    exact other
  rw [State.mayRetry, State.playerFree, same]
  rfl

/-! ## In ARMED (R154) -/

theorem State.failArmed_retries {s : State} {x : CueEntry} (may : s.mayRetry x = true) (o : Origin) (plan : JoinPlan) :
    Rearmed s (s.failArmed x o plan) x.channel o ((s.join x.channel).planOn x.player.other) (s.join x.channel) 2 := by
  have only := s.uncue_only x.channel x.player
  have again := (s.uncue x.channel x.player).rearmPlan_rearmed x.channel o plan x.player.other 2
  rw [only.join fun q hq => by simp [joinParts] at hq; rcases hq with rfl | rfl | rfl | rfl | rfl <;> simp] at again
  have is : s.failArmed x o plan = (s.uncue x.channel x.player).rearmPlan x.channel o plan x.player.other 2 := by
    refine if_pos ?_
    rw [State.uncue_mayRetry]
    exact may
  have routing := only.routing (by simp) (by simp)
  obtain ⟨_, txn⟩ := Prod.mk.inj (only .cueQueue (by simp))
  rw [is]
  exact ⟨again.record, again.anchor, again.of_earlier (only .settings (by simp)) routing.cadence routing.taken, again.txn.trans txn,
    fun k other => (again.flags k other).trans (State.channelFlag_eq (only (.channelFlags x.channel) (by simp)) k)⟩

/-- The join plan whose clip has failed, with filler in its place. -/
def JoinPlan.filled (plan : JoinPlan) : JoinPlan := { plan with content := .filler, player := none }

/-- What a failed PLAY that is not tried again leaves in ARMED. -/
structure ArmedFilled (s t : State) (x : CueEntry) (o : Origin) (plan : JoinPlan) : Prop where
  record : t.authority x.channel = .armed o plan.filled
  player : t.playerState x.channel x.player ≠ .cued
  handed : handedOn s t x.channel plan.filled 1
  txn : t.cus.txn = s.cus.txn
  flag : t.channelFlag .cueFailed x.channel = true

/-- The state in which the filler is handed on. -/
def State.armFiller (s : State) (x : CueEntry) (o : Origin) (plan : JoinPlan) : State :=
  (((s.uncue x.channel x.player).withdrawXp x.channel plan.start).raise .cueFailed x.channel).putAuthority x.channel (.armed o plan.filled)

theorem State.armFiller_only (s : State) (x : CueEntry) (o : Origin) (plan : JoinPlan) :
    OnlyChanges (.plan x.channel :: .authority x.channel :: .crosspoints :: flagParts x.channel) s (s.armFiller x o plan) :=
  ((((s.uncue_only x.channel x.player).mono (by simp)).trans ((State.withdrawXp_acts _ x.channel plan.start).only.mono (by simp))).trans
    ((State.raise_acts _ .cueFailed x.channel).only.mono (by intro q h; simp [h]))).trans ((State.putAuthority_only _ x.channel _).mono (by simp))

theorem State.armFiller_state (s : State) (x : CueEntry) (o : Origin) (plan : JoinPlan) :
    (s.armFiller x o plan).authority x.channel = .armed o plan.filled ∧ (s.armFiller x o plan).playerState x.channel x.player ≠ .cued
      ∧ (s.armFiller x o plan).channelFlag .cueFailed x.channel = true ∧ (s.armFiller x o plan).xps.eventTaken = s.xps.eventTaken := by
  have only := s.uncue_only x.channel x.player
  have out := s.uncue_not_cued x.channel x.player
  have routing := only.routing (by simp) (by simp)
  have taken := routing.taken
  unfold State.armFiller
  generalize s.uncue x.channel x.player = u at *
  refine ⟨?_, out, State.raise_set (u.withdrawXp x.channel plan.start) .cueFailed x.channel, taken⟩
  rw [State.authority_putAuthority, if_pos rfl]

theorem State.failArmed_fills {s : State} {x : CueEntry} (mayNot : s.mayRetry x = false) (o : Origin) (plan : JoinPlan) :
    ArmedFilled s (s.failArmed x o plan) x o plan := by
  have is : s.failArmed x o plan = (s.armFiller x o plan).handOn x.channel plan.filled 1 := by
    refine if_neg ?_
    rw [State.uncue_mayRetry, mayNot]
    decide
  have only := s.armFiller_only x o plan
  obtain ⟨record, player, flag, taken⟩ := s.armFiller_state x o plan
  have acts := (s.armFiller x o plan).handOn_acts x.channel plan.filled 1
  have cue := (s.armFiller x o plan).handOn_cue x.channel plan.filled 1
  have handed := State.handOn_handedOn (s := s.armFiller x o plan) (c := x.channel) (plan := plan.filled) (fun clip => nomatch clip) 1
  have txn := (s.armFiller x o plan).handOn_txn x.channel plan.filled 1
  obtain ⟨_, still⟩ := Prod.mk.inj (only .cueQueue (by simp [flagParts]))
  rw [is]
  refine ⟨(acts.only.authority_eq x.channel).trans record, ?_, handedOn_of_sub handed (only .settings (by simp [flagParts]))
    (only .cadence (by simp [flagParts])) taken (fun _ m => m) (fun _ m => m) fun _ m _ _ => m, txn.trans still, ?_⟩
  · rw [State.playerState, cue]
    exact player
  · rw [State.channelFlag_eq (acts.only (.channelFlags x.channel) (by simp [planParts]))]
    exact flag

end Sys2Proof.Machine

namespace Sys2Proof.Machine

/-! ## In STANDBY and RETURNING, before the segment's start (R154) -/

theorem State.planAt_flag (s : State) (c : Channel) (e : LocalFrame) (p : Player) (n : Nat) {k : ChannelFlag} (other : k ≠ .listExhausted) :
    (s.planAt c e p n).channelFlag k c = s.channelFlag k c := by
  cases found : s.lookupPlace c e with
  | none => simp only [State.planAt, found]
  | some y =>
    rw [State.planAt_eq found]
    have acts := State.appendSegment_acts (s.noteExhausted c y.exhausted) c (plannedContent y.content y.id p) y.id e
      (y.length.map fun n => e + BitVec.ofNat 32 n) n
    rw [State.channelFlag_eq (acts.only (.channelFlags c) (by simp [planParts]))]
    exact State.noteExhausted_otherFlag s c _ other

theorem State.planAt_txn (s : State) (c : Channel) (e : LocalFrame) (p : Player) (n : Nat) : (s.planAt c e p n).cus.txn = s.cus.txn := by
  cases found : s.lookupPlace c e with
  | none => simp only [State.planAt, found]
  | some y =>
    rw [State.planAt_eq found, State.appendSegment_txn]
    exact (s.noteExhausted_noted c y.exhausted).txn

/-- The player is not CUED any more, and the segment's crosspoint is withdrawn. -/
def State.failedOff (s : State) (x : CueEntry) (g : Planned) : State := (s.uncue x.channel x.player).withdrawXp x.channel g.start

/-- What a failed PLAY leaves before it is tried again or filled in for. -/
structure FailedOff (s t : State) (x : CueEntry) : Prop where
  settings : t.live = s.live
  routed : t.cdu = s.cdu ∧ t.xps.eventTaken = s.xps.eventTaken ∧ t.xps.pending ⊆ s.xps.pending
  queue : t.cus.queue = s.cus.queue
  txn : t.cus.txn = s.cus.txn
  pages : t.pages x.channel = s.pages x.channel
  cue : ∃ v, t.cue x.channel = { s.cue x.channel with players := v }
  record : t.authority x.channel = s.authority x.channel
  player : t.playerState x.channel x.player ≠ .cued
  flags : ∀ k, t.channelFlag k x.channel = s.channelFlag k x.channel

theorem State.failedOff_failedOff (s : State) (x : CueEntry) (g : Planned) : FailedOff s (s.failedOff x g) x := by
  have only := s.uncue_only x.channel x.player
  have out := s.uncue_not_cued x.channel x.player
  have routing := only.routing (by simp) (by simp)
  obtain ⟨queue, txn⟩ := Prod.mk.inj (only .cueQueue (by simp))
  obtain ⟨v, cue, _⟩ := s.uncue_cue x.channel x.player
  have sub := (s.uncue x.channel x.player).withdrawXp_sub x.channel g.start
  have flags := only (.channelFlags x.channel) (by simp)
  have pages : (s.uncue x.channel x.player).pages x.channel = s.pages x.channel := only (.pages x.channel) (by simp)
  have settings : (s.uncue x.channel x.player).live = s.live := only .settings (by simp)
  have record : (s.uncue x.channel x.player).authority x.channel = s.authority x.channel := only (.authority x.channel) (by simp)
  rw [routing.pending] at sub
  have cdu := routing.cadence
  have taken := routing.taken
  unfold State.failedOff
  generalize s.uncue x.channel x.player = u at *
  exact ⟨settings, ⟨cdu, taken, sub⟩, queue, txn, pages, ⟨v, cue⟩, record, out, fun k => State.channelFlag_eq flags k⟩

theorem FailedOff.lookup {s t : State} {x : CueEntry} (h : FailedOff s t x) (e : LocalFrame) :
    t.lookupPlace x.channel e = s.lookupPlace x.channel e := by
  obtain ⟨v, cue⟩ := h.cue
  exact State.lookupPlace_eq (by rw [cue]) h.pages h.settings h.routed.1 e

theorem FailedOff.planned {s t : State} {x : CueEntry} (h : FailedOff s t x) : (t.cue x.channel).planned = (s.cue x.channel).planned := by
  obtain ⟨v, cue⟩ := h.cue
  rw [cue]

theorem State.putPlanned_lookup (s : State) (c : Channel) (xs : List Planned) (e : LocalFrame) :
    (s.putPlanned c xs).lookupPlace c e = s.lookupPlace c e :=
  State.lookupPlace_eq (s := s) (t := s.putPlanned c xs) (by rw [State.putPlanned_cue]) rfl rfl rfl e

theorem State.failPlanned_eq (s : State) (x : CueEntry) (g : Planned) : s.failPlanned x g =
    if (s.failedOff x g).mayRetry x && ((s.failedOff x g).lookupPlace x.channel g.start).isSome then
      State.planAt ((s.failedOff x g).putPlanned x.channel (((s.failedOff x g).cue x.channel).planned.filter fun y => y.start != g.start))
        x.channel g.start x.player.other 2
    else ((s.failedOff x g).raise .cueFailed x.channel).fillInstead x.channel g := rfl

theorem State.failedOff_mayRetry (s : State) (x : CueEntry) (g : Planned) : (s.failedOff x g).mayRetry x = s.mayRetry x :=
  s.uncue_mayRetry x

/-- R154: the segment planned again on the other player. -/
theorem State.failPlanned_retries {s : State} {x : CueEntry} {g : Planned} {y : Placed} (may : s.mayRetry x = true)
    (found : s.lookupPlace x.channel g.start = some y) :
    ∃ f, ((s.failPlanned x g).cue x.channel).planned = ((s.cue x.channel).planned.filter fun z => z.start != g.start) ++ [f]
      ∧ PlannedAs s (s.failPlanned x g) x.channel y.content y.id g.start (y.length.map fun n => g.start + BitVec.ofNat 32 n) x.player.other 2 f
      ∧ (s.failPlanned x g).cus.txn = s.cus.txn
      ∧ (s.failPlanned x g).channelFlag .cueFailed x.channel = s.channelFlag .cueFailed x.channel := by
  have off := s.failedOff_failedOff x g
  have may' := (s.failedOff_mayRetry x g).trans may
  have found' := (off.lookup g.start).trans found
  rw [State.failPlanned_eq, may', found']
  have planned := off.planned
  generalize s.failedOff x g = u at *
  have put := u.putPlanned_cue x.channel ((u.cue x.channel).planned.filter fun z => z.start != g.start)
  obtain ⟨queue, txn, xps⟩ := u.putPlanned_keeps x.channel ((u.cue x.channel).planned.filter fun z => z.start != g.start)
  have lookup : (u.putPlanned x.channel ((u.cue x.channel).planned.filter fun z => z.start != g.start)).lookupPlace x.channel g.start = some y :=
    (u.putPlanned_lookup x.channel _ g.start).trans found'
  have sli : (u.putPlanned x.channel ((u.cue x.channel).planned.filter fun z => z.start != g.start)).sli = u.sli := rfl
  have live : (u.putPlanned x.channel ((u.cue x.channel).planned.filter fun z => z.start != g.start)).live = u.live := rfl
  have cdu : (u.putPlanned x.channel ((u.cue x.channel).planned.filter fun z => z.start != g.start)).cdu = u.cdu := rfl
  generalize u.putPlanned x.channel ((u.cue x.channel).planned.filter fun z => z.start != g.start) = w at *
  obtain ⟨f, cue, again, _, _⟩ := w.planAt_planned lookup x.player.other 2
  refine ⟨f, ?_, again.of_earlier (live.trans off.settings) (cdu.trans off.routed.1) ?_ fun _ z held _ _ => ?_, ?_, ?_⟩
  · show ((w.planAt x.channel g.start x.player.other 2).cue x.channel).planned = _
    rw [cue, put, planned]
  · exact (congrArg (fun k => k.eventTaken) xps).trans off.routed.2.1
  · exact off.routed.2.2 (by rw [← xps]; exact held)
  · exact (w.planAt_txn x.channel g.start x.player.other 2).trans (txn.trans off.txn)
  · exact (w.planAt_flag x.channel g.start x.player.other 2 (by decide)).trans
      ((State.channelFlag_eq (congrArg (fun k => k.channel[x.channel]) sli) _).trans (off.flags _))

theorem State.fillInstead_cue (s : State) (c : Channel) (g : Planned) : ∃ ps, (s.fillInstead c g).cue c = { s.cue c with planned := ps } := by
  have put := s.putPlanned_cue c ((s.cue c).planned.filter fun y => y.start != g.start)
  have cue := State.appendSegment_cue (s.putPlanned c ((s.cue c).planned.filter fun y => y.start != g.start)) c .fill g.id g.start g.stop 1
  rw [put] at cue
  exact ⟨_, cue⟩

theorem State.fillInstead_txn (s : State) (c : Channel) (g : Planned) : (s.fillInstead c g).cus.txn = s.cus.txn := by
  rw [State.fillInstead, State.appendSegment_txn]
  rfl

/-- R154: filler stands in for the event. -/
theorem State.failPlanned_fills {s : State} {x : CueEntry} (mayNot : s.mayRetry x = false) (g : Planned) :
    (∃ f, FilledIn s (s.failPlanned x g) x.channel g f) ∧ (s.failPlanned x g).playerState x.channel x.player ≠ .cued
      ∧ (s.failPlanned x g).cus.txn = s.cus.txn ∧ (s.failPlanned x g).channelFlag .cueFailed x.channel = true := by
  have off := s.failedOff_failedOff x g
  have mayNot' := (s.failedOff_mayRetry x g).trans mayNot
  rw [State.failPlanned_eq, mayNot', Bool.false_and, if_neg (by decide)]
  have planned := off.planned
  have out := off.player
  generalize s.failedOff x g = u at *
  have raised := u.raise_set .cueFailed x.channel
  obtain ⟨cus, pending, taken⟩ := u.raise_keeps .cueFailed x.channel
  have only := (u.raise_acts .cueFailed x.channel).only
  have cue : (u.raise .cueFailed x.channel).cue x.channel = u.cue x.channel := only (.plan x.channel) (by simp [flagParts])
  have live : (u.raise .cueFailed x.channel).live = u.live := only .settings (by simp [flagParts])
  have cdu : (u.raise .cueFailed x.channel).cdu = u.cdu := only .cadence (by simp [flagParts])
  have record : (u.raise .cueFailed x.channel).authority x.channel = u.authority x.channel := only (.authority x.channel) (by simp [flagParts])
  generalize u.raise .cueFailed x.channel = w at *
  obtain ⟨f, filled⟩ := w.fillInstead_filledIn x.channel g
  obtain ⟨ps, kept⟩ := w.fillInstead_cue x.channel g
  refine ⟨⟨f, filled.of_earlier (live.trans off.settings) (cdu.trans off.routed.1) (taken.trans off.routed.2.1)
    ((congrArg CueChannel.planned cue).trans planned) (record.trans off.record) (by rw [pending]; exact off.routed.2.2)⟩, ?_, ?_, ?_⟩
  · rw [State.playerState, kept, cue]
    exact out
  · rw [State.fillInstead_txn, cus]
    exact off.txn
  · rw [State.fillInstead_flags]
    exact raised

/-! ## After the segment's start (R155) -/

theorem State.failStarted_onAir {s : State} {x : CueEntry} {a : OnAir} (air : s.airOf x.channel = some a)
    (player : a.player = some x.player) (start : a.start = x.start) :
    s.failStarted x = (s.raise .cueFailed x.channel).failOnAir x a := by
  unfold State.failStarted
  dsimp only
  rw [show (s.raise .cueFailed x.channel).airOf x.channel = some a from air]
  exact if_pos ⟨player, start⟩

/-- The segment on air becomes FILL of the same id and end, and its player is IDLE. -/
def State.filledOnAir (s : State) (x : CueEntry) (a : OnAir) : State :=
  (s.setPlayer x.channel x.player .idle).amendAir x.channel fun _ => { a with kind := .fill, source := (s.cfg x.channel).filler, player := none }

theorem State.failOnAir_eq (s : State) (x : CueEntry) (a : OnAir) : s.failOnAir x a =
    match (s.cfg x.channel).filler with
    | some y => if s.switchTakenAt x.channel s.nextWindowFrame then s.filledOnAir x a
        else (s.filledOnAir x a).placeOnAir x.channel s.nextWindowFrame y
    | none => s.filledOnAir x a := rfl

theorem State.filledOnAir_state {s : State} {x : CueEntry} {a : OnAir} (air : s.airOf x.channel = some a) :
    (s.filledOnAir x a).authority x.channel
        = (s.authority x.channel).withAir { a with kind := .fill, source := (s.cfg x.channel).filler, player := none }
      ∧ (s.filledOnAir x a).cue x.channel = { s.cue x.channel with players := (s.cue x.channel).players.put x.player .idle }
      ∧ (s.filledOnAir x a).cus.queue = s.cus.queue ∧ (s.filledOnAir x a).cus.txn = s.cus.txn ∧ (s.filledOnAir x a).xps = s.xps
      ∧ (s.filledOnAir x a).live = s.live ∧ (s.filledOnAir x a).sli = s.sli ∧ (s.filledOnAir x a).cdu = s.cdu := by
  have put := s.setPlayer_cue x.channel x.player .idle
  have same : (s.setPlayer x.channel x.player .idle).airOf x.channel = some a := air
  unfold State.filledOnAir State.amendAir
  rw [same]
  refine ⟨?_, put, rfl, rfl, rfl, rfl, rfl, rfl⟩
  dsimp only
  rw [State.authority_putAuthority, if_pos rfl]
  rfl

theorem State.switchTakenAt_iff {s : State} {c : Channel} {f : LocalFrame} : s.switchTakenAt c f = true ↔
    (∃ g, (s.cue c).planned.head? = some g ∧ atOrAfter f g.start = true)
      ∨ ∃ pr m point a, s.authority c = .returning pr m point a ∧ atOrAfter f point = true := by
  rw [State.switchTakenAt, Bool.or_eq_true]
  refine or_congr ?_ ?_
  · cases (s.cue c).planned.head? <;> simp
  · cases s.authority c <;> simp

/-- What a PLAY that fails after its segment's start leaves (R155). -/
structure AirFilled (s t : State) (x : CueEntry) (a : OnAir) : Prop where
  record : t.authority x.channel = (s.authority x.channel).withAir { a with kind := .fill, source := (s.cfg x.channel).filler, player := none }
  cue : t.cue x.channel = { s.cue x.channel with players := (s.cue x.channel).players.put x.player .idle }
  queue : t.cus.queue = s.cus.queue
  txn : t.cus.txn = s.cus.txn
  flags : ∀ k, t.channelFlag k x.channel = s.channelFlag k x.channel
  routed : ∀ y, (s.cfg x.channel).filler = some y → s.switchTakenAt x.channel s.nextWindowFrame = false →
    s.issuesAtOnce s.nextWindowFrame = false → ⟨(s.cfg x.channel).destination, s.nextWindowFrame, y, x.channel⟩ ∈ t.xps.pending
  unrouted : (s.cfg x.channel).filler = none ∨ s.switchTakenAt x.channel s.nextWindowFrame = true →
    t.xps.pending = s.xps.pending ∧ t.xps.awaiting = s.xps.awaiting

theorem State.failOnAir_airFilled {s : State} {x : CueEntry} {a : OnAir} (air : s.airOf x.channel = some a) :
    AirFilled s (s.failOnAir x a) x a := by
  obtain ⟨record, cue, queue, txn, xps, live, sli, cdu⟩ := State.filledOnAir_state air
  have flags := State.channelFlag_eq (c := x.channel) (congrArg (fun k => k.channel[x.channel]) sli)
  rw [State.failOnAir_eq]
  generalize s.filledOnAir x a = w at *
  have quiet (routes : ∀ y, (s.cfg x.channel).filler = some y → s.switchTakenAt x.channel s.nextWindowFrame = false → False) :
      AirFilled s w x a :=
    ⟨record, cue, queue, txn, flags, fun y found out _ => absurd (routes y found out) id, fun _ => by rw [xps]; exact ⟨rfl, rfl⟩⟩
  cases filler : (s.cfg x.channel).filler with
  | none => exact quiet fun y found => by rw [filler] at found; cases found
  | some y =>
    dsimp only
    split
    · next taken => exact quiet fun z _ out => by rw [taken] at out; cases out
    · next open' =>
      have acts := w.placeOnAir_acts x.channel s.nextWindowFrame y
      have cus := w.placeXp_cus ⟨(w.cfg x.channel).destination, s.nextWindowFrame, y, x.channel⟩
      refine ⟨?_, ?_, ?_, ?_, fun k => ?_, fun z found _ waits => ?_, fun out => ?_⟩
      · exact Eq.trans (acts.only (.authority x.channel) (by simp)) record
      · rw [State.placeOnAir_cue]
        exact cue
      · rw [State.placeOnAir, cus]
        exact queue
      · rw [State.placeOnAir, cus]
        exact txn
      · exact (State.channelFlag_eq (acts.only (.channelFlags x.channel) (by simp)) k).trans (flags k)
      · rw [filler] at found
        cases found
        have here := State.placeOnAir_waits (s := w) (c := x.channel)
          ((State.issuesAtOnce_same cdu (congrArg (fun k => k.eventTaken) xps) s.nextWindowFrame).trans waits) y
        rw [State.cfg_eq live] at here
        exact here
      · rcases out with none | taken
        · rw [filler] at none; cases none
        · exact absurd taken open'

/-! ## The transaction's end as a whole -/

theorem State.putTxn_same (s : State) (k : Option Txn) : (s.putTxn k).live = s.live ∧ (s.putTxn k).cdu = s.cdu ∧ (s.putTxn k).xps = s.xps
    ∧ (s.putTxn k).cus.queue = s.cus.queue := ⟨rfl, rfl, rfl, rfl⟩

theorem State.failStarted_kept (s : State) (x : CueEntry) : (s.failStarted x).channelFlag .cueFailed x.channel = true
    ∧ (s.failStarted x).cus.txn = s.cus.txn := by
  have raised := s.raise_set .cueFailed x.channel
  have txn : (s.raise .cueFailed x.channel).cus.txn = s.cus.txn := rfl
  unfold State.failStarted
  dsimp only
  split
  · next a air =>
    split
    · have filled := State.failOnAir_airFilled (x := x) air
      exact ⟨(filled.flags _).trans raised, filled.txn.trans txn⟩
    · exact ⟨raised, txn⟩
  · exact ⟨raised, txn⟩

/-- R154, R155: CUE-FAILED is set wherever a failed PLAY is not tried again. -/
theorem State.failedPlay_kept {s : State} {x : CueEntry} (mayNot : s.mayRetry x = false) :
    (s.failedPlay x).channelFlag .cueFailed x.channel = true ∧ (s.failedPlay x).cus.txn = s.cus.txn := by
  by_cases armed : ∃ o plan, s.authority x.channel = .armed o plan
  · obtain ⟨o, plan, record⟩ := armed
    rw [State.failedPlay_armed record]
    split
    · have filled := State.failArmed_fills mayNot o plan
      exact ⟨filled.flag, filled.txn⟩
    · exact s.failStarted_kept x
  · have other : ∀ o plan, s.authority x.channel ≠ .armed o plan := fun o plan record => armed ⟨o, plan, record⟩
    cases for' : s.plannedFor x with
    | some g =>
      obtain ⟨_, _, txn, flag⟩ := State.failPlanned_fills mayNot g
      rw [State.failedPlay_planned other for']
      exact ⟨flag, txn⟩
    | none =>
      rw [State.failedPlay_started other for']
      exact s.failStarted_kept x

end Sys2Proof.Machine

namespace Sys2Proof.Machine

/-- A failed PLAY that is not withdrawn. -/
theorem State.endTxn_fails {s : State} {k : Txn} {clipId : List Byte} {media n : Nat} {e : EventId} (stands : k.withdrawn = false)
    (play : k.entry.action = .play clipId media n e) : s.endTxn k false = (s.putTxn none).failedPlay k.entry := by
  rw [State.endTxn_stands (by rw [play]; exact nofun) stands, if_neg (by decide)]

theorem airOf_not_armed {s : State} {c : Channel} {a : OnAir} (air : (s.authority c).air = some a) (o : Origin) (plan : JoinPlan) :
    s.authority c ≠ .armed o plan := fun record => by
  rw [record] at air
  cases air

/-- Settles O47, by the reply or the wait that has run out, and for a failed PLAY by the channel's record and plan. -/
theorem cueTransactionsEnd : Obligations.CueTransactionsEnd := by
  intro s k running txn
  dsimp only
  obtain ⟨settings, cadence, xps, queue⟩ := s.putTxn_same none
  have taken : (s.putTxn none).xps.eventTaken = s.xps.eventTaken := congrArg (fun k => k.eventTaken) xps
  refine ⟨fun a same => ⟨fun quiet => ?_, fun play stands sending => ?_, fun withdrawn play => ?_⟩,
    fun i fails => ⟨fun quiet => ?_, fun clipId media n e stands play => ⟨fun first free => ⟨fun o g record start player => ?_,
      fun g y other for' found => ?_⟩, fun mayNot => ?_, fun a air player start for' => ?_⟩⟩⟩
  · have run := exec_cueReply running txn same 0
    rw [show ((0 : Byte) == 0) = true from rfl] at run
    rcases quiet with cancel | ⟨stands, waiting⟩
    · rw [State.replyTo_cancel cancel] at run
      exact run
    · rw [State.replyTo_waiting waiting] at run
      by_cases cancel : k.entry.action = .cancel
      · rw [State.endTxn_cancel cancel] at run
        exact run
      · rw [State.endTxn_stands cancel stands, if_pos rfl] at run
        exact run
  · have run := exec_cueReply running txn same 0
    rw [show ((0 : Byte) == 0) = true from rfl, State.replyTo_sending sending, State.endTxn_stands play stands, if_pos rfl] at run
    have only := ((s.sendEnded_acts k).trans (State.putTxn_in _ _ none)).only
    rw [State.sendEnded_play play stands] at run only
    have sent := (s.putTxn (some { k with phase := .awaiting k.replyTimeout })).playSent_sent k.entry
    exact ⟨_, run, rfl, sent.queue, sent.player, only⟩
  · have run := exec_cueReply running txn same 0
    rw [show ((0 : Byte) == 0) = true from rfl, State.replyTo_withdrawn play withdrawn] at run
    refine ⟨_, (s.putTxn none).entryFor k.entry.channel k.entry.player s.now s.now .cancel, run, rfl, State.mem_queueCancel.mpr (Or.inl rfl),
      rfl, rfl, rfl, length_insertEntry _ _, ((s.putTxn_acts none).trans (State.putQueue_acts _ _)).only⟩
  · have run := exec_fails running txn fails
    by_cases cancel : k.entry.action = .cancel
    · rw [State.endTxn_cancel cancel] at run
      exact run
    · rw [State.endTxn_withdrawn cancel (quiet.resolve_right cancel), if_neg (by decide)] at run
      exact run
  · have run := exec_fails running txn fails
    have only := (s.endTxn_acts k false).only
    have may : (s.putTxn none).mayRetry k.entry = true := (State.mayRetry_iff play).mpr ⟨first, free⟩
    rw [State.endTxn_fails stands play, State.failedPlay_armed (s := s.putTxn none) record, if_pos ⟨start, player⟩] at run only
    have again := State.failArmed_retries may o g
    exact ⟨_, run, again.txn, again.record, again.anchor, again.of_earlier settings cadence taken, again.flags .cueFailed (by decide), only⟩
  · have run := exec_fails running txn fails
    have only := (s.endTxn_acts k false).only
    have may : (s.putTxn none).mayRetry k.entry = true := (State.mayRetry_iff play).mpr ⟨first, free⟩
    rw [State.endTxn_fails stands play, State.failedPlay_planned (s := s.putTxn none) other for'] at run only
    obtain ⟨f, planned, again, still, flag⟩ := State.failPlanned_retries (s := s.putTxn none) may found
    have from_s := again.of_earlier settings cadence taken fun _ x held _ _ => by rw [← xps]; exact held
    exact ⟨_, f, run, still, planned, from_s.start, from_s.id, from_s.stop, from_s.content, from_s.held, from_s.routed, flag, only⟩
  · have run := exec_fails running txn fails
    have only := (s.endTxn_acts k false).only
    have not' : (s.putTxn none).mayRetry k.entry = false := Bool.eq_false_iff.mpr fun may => by
      obtain ⟨first, free⟩ := (State.mayRetry_iff play).mp may
      rcases mayNot with later | onAir
      · exact later first
      · exact free onAir
    rw [State.endTxn_fails stands play] at run only
    obtain ⟨flag, still⟩ := State.failedPlay_kept not'
    refine ⟨_, run, still, flag, fun o g record start player => ?_, fun g other for' => ?_, only⟩
    · have filled := State.failArmed_fills not' o g
      rw [State.failedPlay_armed (s := s.putTxn none) record, if_pos ⟨start, player⟩]
      exact ⟨filled.record, filled.player, handedOn_of_sub filled.handed settings cadence taken (fun _ m => m) (fun _ m => m) fun _ m _ _ => m⟩
    · obtain ⟨⟨f, filled⟩, out, _, _⟩ := State.failPlanned_fills not' g
      rw [State.failedPlay_planned (s := s.putTxn none) other for']
      have from_s := filled.of_earlier (s := s) settings cadence taken rfl rfl (by rw [xps]; exact fun _ m => m)
      exact ⟨out, f, from_s.planned, from_s.content, from_s.id, from_s.start, from_s.stop, from_s.routed⟩
  · have run := exec_fails running txn fails
    have only := (s.endTxn_acts k false).only
    have still : (s.putTxn none).airOf k.entry.channel = some a := air
    rw [State.endTxn_fails stands play, State.failedPlay_started (s := s.putTxn none) (airOf_not_armed air) for',
      State.failStarted_onAir still player start] at run only
    have raised := (s.putTxn none).raise_set .cueFailed k.entry.channel
    have raise := ((s.putTxn none).raise_acts .cueFailed k.entry.channel).only
    obtain ⟨cus, pending, _⟩ := (s.putTxn none).raise_keeps .cueFailed k.entry.channel
    have routing := raise.routing (by simp [flagParts]) (by simp [flagParts])
    have live : ((s.putTxn none).raise .cueFailed k.entry.channel).live = s.live := raise .settings (by simp [flagParts])
    have cue : ((s.putTxn none).raise .cueFailed k.entry.channel).cue k.entry.channel = s.cue k.entry.channel :=
      raise (.plan k.entry.channel) (by simp [flagParts])
    have record : ((s.putTxn none).raise .cueFailed k.entry.channel).authority k.entry.channel = s.authority k.entry.channel :=
      raise (.authority k.entry.channel) (by simp [flagParts])
    have air' : ((s.putTxn none).raise .cueFailed k.entry.channel).airOf k.entry.channel = some a := still
    generalize (s.putTxn none).raise .cueFailed k.entry.channel = w at *
    have filled := State.failOnAir_airFilled (x := k.entry) air'
    have next : w.nextWindowFrame = if s.cdu.windowOpened then s.cdu.now + 1 else s.cdu.now := by
      rw [State.nextWindowFrame_eq, show w.cdu = s.cdu from routing.cadence]
    have at' := State.switchTakenAt_iff (s := w) (c := k.entry.channel) (f := w.nextWindowFrame)
    rw [cue, record] at at'
    rw [← next]
    refine ⟨_, run, filled.txn.trans (congrArg (fun k => k.txn) cus), filled.queue.trans (congrArg (fun k => k.queue) cus),
      (filled.flags _).trans raised, ?_, ?_, fun y found early before waits => ?_, fun out => ?_, only⟩
    · rw [filled.record, record, State.cfg_eq live]
    · rw [filled.cue, cue]
    · have free : w.switchTakenAt k.entry.channel w.nextWindowFrame = false := Bool.eq_false_iff.mpr fun taken' => by
        rcases at'.mp taken' with ⟨g, head, come⟩ | ⟨pr, m, point, b, returning, come⟩
        · exact absurd (early g head) (Nat.not_lt.mpr (atOrAfter_iff.mp come))
        · exact absurd (before pr m point b returning) (Nat.not_lt.mpr (atOrAfter_iff.mp come))
      have here := filled.routed y (by rw [State.cfg_eq live]; exact found) free
        ((State.issuesAtOnce_same routing.cadence routing.taken _).trans waits)
      rw [State.cfg_eq live] at here
      exact ⟨_, here, rfl, rfl, rfl, rfl⟩
    · have same := filled.unrouted (by
        rcases out with gone | ⟨g, head, start'⟩ | ⟨pr, m, b, returning⟩
        · exact Or.inl (by rw [State.cfg_eq live]; exact gone)
        · exact Or.inr (at'.mpr (Or.inl ⟨g, head, by rw [start', atOrAfter_self]⟩))
        · exact Or.inr (at'.mpr (Or.inr ⟨pr, m, _, b, returning, atOrAfter_self _⟩)))
      exact ⟨same.1.trans routing.pending, same.2.trans routing.awaiting⟩

end Sys2Proof.Machine

namespace Sys2Proof.Machine

/-! # Flips (R48, R58, R60, R150) -/

/-! ## The pages at a flip -/

/-- The pages as a flip leaves them, with an edit in progress abandoned (R58). -/
def State.swapped (s : State) (c : Channel) (g : ReadyPage) : State := State.abandonEdit (s.putPages c ⟨some g.activated, .empty⟩) c

section
variable (s : State) (c : Channel) (g : ReadyPage)

theorem State.swapped_only : OnlyChanges [.pages c, .engine, .reports] s (s.swapped c g) :=
  ((s.putPages_acts c ⟨some g.activated, .empty⟩).only.mono (by simp)).trans ((State.abandonEdit_acts _ c).only.mono (by simp))

theorem State.swapped_pages : (s.swapped c g).pages c = ⟨some g.activated, .empty⟩ :=
  Eq.trans ((State.abandonEdit_acts (s.putPages c ⟨some g.activated, .empty⟩) c).only (.pages c) (by simp)) (PerChannel.get_put_self _ _ _)

theorem State.swapped_idle (idle : ∀ op k, s.sst.engine ≠ .editing c op k) :
    s.swapped c g = s.putPages c ⟨some g.activated, .empty⟩ := by
  show State.abandonEdit (s.putPages c ⟨some g.activated, .empty⟩) c = _
  unfold State.abandonEdit
  split
  · next d op k engine =>
    refine if_neg fun same => ?_
    subst same
    exact idle op k engine
  · rfl
  · rfl

theorem State.performFlip_eq : s.performFlip c g
    = if ((s.airFirst c).swapped c g).isMain c then (s.airFirst c).swapped c g else ((s.airFirst c).swapped c g).pageChange c := rfl

end

theorem State.airFirst_unarmed {s : State} {c : Channel} (other : ∀ o plan, s.authority c ≠ .armed o plan) : s.airFirst c = s := by
  unfold State.airFirst
  split
  · next o plan record => exact absurd record (other o plan)
  all_goals rfl

theorem State.swapped_authority (s : State) (c : Channel) (g : ReadyPage) : (s.swapped c g).authority c = s.authority c :=
  (s.swapped_only c g) (.authority c) (by simp)

theorem State.isMain_of {s : State} {c : Channel} (h : (s.authority c).name ≠ .main) : s.isMain c = false :=
  beq_eq_false_iff_ne.mpr h

theorem State.performFlip_main {s : State} {c : Channel} (main : s.isMain c = true) (g : ReadyPage) : s.performFlip c g = s.swapped c g := by
  have record : s.authority c = .main := by
    rw [State.isMain, beq_iff_eq] at main
    cases h : s.authority c <;> rw [h] at main <;> first | rfl | cases main
  rw [State.performFlip_eq, State.airFirst_unarmed fun o plan armed => by rw [record] at armed; cases armed]
  refine if_pos ?_
  rw [State.isMain, State.swapped_authority]
  exact main

theorem State.performFlip_off {s : State} {c : Channel} (off : (s.authority c).name ≠ .main) (other : ∀ o plan, s.authority c ≠ .armed o plan)
    (g : ReadyPage) : s.performFlip c g = (s.swapped c g).pageChange c := by
  rw [State.performFlip_eq, State.airFirst_unarmed other]
  refine if_neg ?_
  rw [State.isMain_of (by rw [State.swapped_authority]; exact off)]
  decide

/-! ## When a flip is due (R58) -/

theorem stationAtOrAfter_iff {f : Format} {a b : Nat} : stationAtOrAfter f a b = true ↔ 2 * stationDiff f a b ≤ wf f := by
  rw [stationAtOrAfter, decide_eq_true_iff]
  omega

theorem State.flipDue_some {s : State} {c : Channel} {g : ReadyPage} {f : Nat} (ready : (s.pages c).next = .ready g) (flip : g.flip = some f)
    (set : s.stc.state ≠ .unset) (come : 2 * stationDiff s.format s.stationNow f ≤ wf s.format) : s.flipDue c = some g := by
  simp only [State.flipDue, ready, flip]
  exact if_pos ⟨set, stationAtOrAfter_iff.mpr come⟩

theorem State.flipDue_none {s : State} {c : Channel} {g : ReadyPage} {f : Nat} (ready : (s.pages c).next = .ready g) (flip : g.flip = some f)
    (early : s.stc.state = .unset ∨ wf s.format < 2 * stationDiff s.format s.stationNow f) : s.flipDue c = none := by
  simp only [State.flipDue, ready, flip]
  refine if_neg fun ⟨set, come⟩ => ?_
  rcases early with unset | before
  · exact set unset
  · exact absurd (stationAtOrAfter_iff.mp come) (Nat.not_le.mpr before)

theorem exec_flip_due {s : State} {c : Channel} {g : ReadyPage} (running : s.power = .running) (window : s.cdu.windowEvent = true)
    (due : s.flipDue c = some g) : exec (.flipPerform c) s = .next (if s.flipAllowed c then s.performFlip c g else s) := by
  show execFlipPerform c s = _
  refine whenRunning_next running ?_
  rw [due]
  dsimp only
  rw [window, Bool.true_and]

theorem exec_flip_early {s : State} {c : Channel} (running : s.power = .running) (due : s.flipDue c = none) :
    exec (.flipPerform c) s = .next s := by
  show execFlipPerform c s = _
  refine whenRunning_next running ?_
  rw [due]

theorem State.atBoundary_iff {s : State} {c : Channel} {a : OnAir} :
    s.atBoundary c a = true ↔ a.stop = none ∨ a.stop = some s.cdu.now ∨ (s.cue c).boundary = true := by
  simp only [State.atBoundary, Bool.or_eq_true, beq_iff_eq, State.now]
  tauto

/-! ## A page change off MAIN (R150) -/

theorem State.pageChange_drops {s : State} {c : Channel} (other : ∀ a, s.authority c ≠ .standby a) : s.pageChange c = s.dropAnchor c := by
  unfold State.pageChange
  split
  · next a record => exact absurd record (other a)
  all_goals rfl

theorem State.dropAnchor_cue (s : State) (c : Channel) : (s.dropAnchor c).cue c = { s.cue c with anchor := none } := by
  rw [State.dropAnchor, State.cue_putCue, if_pos rfl]

theorem State.dropAnchor_only (s : State) (c : Channel) : OnlyChanges [.plan c] s (s.dropAnchor c) := (s.putCue_acts c _).only

/-- The state at a page change once a segment that is due has been started, and whether it was late. -/
def State.dueStarted (s : State) (c : Channel) : State :=
  match s.dueSegment c with
  | some seg => s.startHead c seg
  | none => s

def State.lateDue (s : State) (c : Channel) : Bool := (s.dueSegment c).any fun seg => s.lateAtStart c seg

/-- The state in which the join on the new page is made. -/
def State.cleared (s : State) (c : Channel) : State := ((s.dueStarted c).withdrawPlan c).dropAnchor c

theorem State.pageChange_standby {s : State} {c : Channel} {a : OnAir} (record : s.authority c = .standby a) :
    s.pageChange c = (s.cleared c).planJoin c (s.lateDue c) none ((s.cleared c).join c) := by
  unfold State.pageChange
  rw [record]
  rfl

/-- What a start at a page change leaves: the segment on air, and the rest of what a join reads. -/
structure AirStarted (s t : State) (c : Channel) (air : OnAir) (late : Bool) : Prop where
  record : t.authority c = .standby air
  only : OnlyChanges (cueParts c) s t
  taken : t.xps.eventTaken = s.xps.eventTaken
  pending : late = false → t.xps.pending = s.xps.pending
  flag : late = true → t.channelFlag .cueLate c = true

theorem State.dueSegment_none {s : State} {c : Channel} {a : OnAir} (record : s.authority c = .standby a) (planned : (s.cue c).planned = []) :
    s.dueSegment c = none := by
  simp only [State.dueSegment, record, planned, List.head?_nil, Option.filter_none]

theorem State.dueSegment_head {s : State} {c : Channel} {a : OnAir} {seg : Planned} (record : s.authority c = .standby a)
    (due : s.dueSegment c = some seg) : ∃ rest, (s.cue c).planned = seg :: rest := by
  simp only [State.dueSegment, record] at due
  obtain ⟨head, _⟩ := Option.filter_eq_some_iff.mp due
  exact List.head?_eq_some_iff.mp head

theorem State.dueStarted_none {s : State} {c : Channel} (due : s.dueSegment c = none) : s.dueStarted c = s ∧ s.lateDue c = false := by
  rw [State.dueStarted, State.lateDue, due]
  exact ⟨rfl, rfl⟩

theorem State.dueStarted_some {s : State} {c : Channel} {seg : Planned} (due : s.dueSegment c = some seg) :
    s.dueStarted c = s.startHead c seg ∧ s.lateDue c = s.lateAtStart c seg := by
  rw [State.dueStarted, State.lateDue, due]
  exact ⟨rfl, rfl⟩

/-- The segment that a start at this event puts on air (R147). -/
theorem State.startHead_airStarted {s : State} {c : Channel} {a : OnAir} {seg : Planned} {rest : List Planned}
    (record : s.authority c = .standby a) (planned : (s.cue c).planned = seg :: rest) :
    AirStarted s (s.startHead c seg) c (s.startsAs c seg) (s.lateAtStart c seg) := by
  have only := (s.startHead_acts c seg).only
  cases late : s.lateAtStart c seg with
  | false =>
    obtain ⟨is, started⟩ := State.startHead_now planned late
    rw [State.startsAs, late, if_neg (by decide), State.airFrom_eq]
    rw [is] at only ⊢
    exact ⟨State.headOnAir_standby record _, only, started.routing.taken, fun _ => started.routing.pending, nofun⟩
  | true =>
    obtain ⟨is, started⟩ := State.startHead_late planned late
    rw [State.startsAs, late, if_pos rfl]
    rw [is] at only ⊢
    exact ⟨State.headOnAir_standby ((s.removeLate_authority c c seg).trans record) _, only, started.taken, nofun, fun _ => started.flag⟩

theorem State.dueStarted_airStarted {s : State} {c : Channel} {a : OnAir} (record : s.authority c = .standby a) :
    ∃ air, AirStarted s (s.dueStarted c) c air (s.lateDue c) := by
  cases due : s.dueSegment c with
  | none =>
    obtain ⟨same, late⟩ := State.dueStarted_none due
    rw [same, late]
    exact ⟨a, record, OnlyChanges.refl _ s, rfl, fun _ => rfl, nofun⟩
  | some seg =>
    obtain ⟨same, late⟩ := State.dueStarted_some due
    obtain ⟨rest, planned⟩ := State.dueSegment_head record due
    rw [same, late]
    exact ⟨_, State.startHead_airStarted record planned⟩

/-- What stands when the join on the new page is made. -/
structure ClearedFor (s t : State) (c : Channel) (air : OnAir) (late : Bool) : Prop where
  record : t.authority c = .standby air
  planned : (t.cue c).planned = []
  only : OnlyChanges (cueParts c) s t
  taken : t.xps.eventTaken = s.xps.eventTaken
  pending : late = false → t.xps.pending ⊆ s.xps.pending
  flag : late = true → t.channelFlag .cueLate c = true

theorem State.cleared_clearedFor {s : State} {c : Channel} {air : OnAir} {late : Bool} (h : AirStarted s (s.dueStarted c) c air late) :
    ClearedFor s (s.cleared c) c air late := by
  have withdrawn := ((s.dueStarted c).withdrawPlan_acts c).inCue.only
  have planned := (s.dueStarted c).withdrawPlan_planned c
  have authority := (s.dueStarted c).withdrawPlan_authority c c
  have taken := (s.dueStarted c).withdrawPlan_taken c
  have keeps := (s.dueStarted c).withdrawPlan_keeps c
  have flags := State.channelFlag_eq (((s.dueStarted c).withdrawPlan_only c) (.channelFlags c) (by simp [planParts])) .cueLate
  have record := h.record
  have air := h.pending
  have only := h.only
  unfold State.cleared
  generalize (s.dueStarted c).withdrawPlan c = w at *
  have drop := w.dropAnchor_only c
  have cue := w.dropAnchor_cue c
  have routing := drop.routing (by simp) (by simp)
  refine ⟨Eq.trans (drop (.authority c) (by simp)) (authority.trans record), by rw [cue]; exact planned,
    (only.trans withdrawn).trans (drop.mono (by simp [cueParts, planParts])), routing.taken.trans (taken.trans h.taken), fun intime => ?_, fun at' => ?_⟩
  · rw [routing.pending, ← air intime]
    exact keeps.2
  · rw [State.channelFlag_eq (drop (.channelFlags c) (by simp)), flags]
    exact h.flag at'

theorem State.bridgeTo_flipped {s : State} {c : Channel} {a : OnAir} (record : s.authority c = .standby a) (jl : LocalFrame) :
    (∃ e, a.stop = some e ∧ before e jl = true ∧ s.bridgeTo c false none jl = s.appendSegment c .gap 0 e (some jl) 1)
      ∨ s.bridgeTo c false none jl = s.endAirAt c jl := by
  have stop : (s.airOf c).bind (fun a => a.stop) = a.stop := by
    rw [show s.airOf c = some a from congrArg Authority.air record]
    rfl
  unfold State.bridgeTo
  simp only [Bool.false_eq_true, if_false, stop]
  cases a.stop with
  | none => exact Or.inr rfl
  | some e =>
    dsimp only
    split
    · next early => exact Or.inl ⟨e, rfl, early, rfl⟩
    · exact Or.inr rfl

/-- How the time up to the join on the new page is filled, and what is planned (R150). -/
structure Replanned (s t : State) (c : Channel) (air : OnAir) (late : Bool) (j : Join) : Prop where
  first : ∃ first, joinPlanned s t c j first
    ∧ ((t.cue c).planned = [first] ∧ t.authority c = .standby { air with stop := some first.start }
      ∨ late = false ∧ ∃ bridge e, air.stop = some e ∧ t.authority c = .standby air ∧ (t.cue c).planned = [bridge, first]
        ∧ bridge.content = .gap ∧ bridge.id = 0 ∧ bridge.start = e ∧ bridge.stop = some first.start
        ∧ 2147483648 < (bridge.start - first.start).toNat ∧ segmentRouted s t c bridge air.source)

theorem State.planJoin_replanned {s : State} {c : Channel} {air : OnAir} (record : s.authority c = .standby air)
    (planned : (s.cue c).planned = []) (late : Bool) (j : Join) : Replanned s (s.planJoin c late none j) c air late j := by
  have noted : (s.noteJoin c j).authority c = .standby air := ((s.noteJoin_noted c j).authority c).trans record
  cases late with
  | true =>
    obtain ⟨first, joined, same, only⟩ := State.planJoin_ends record planned (started := true) (replaced := none) (j := j) rfl
    exact ⟨first, joined, Or.inl ⟨only, by rw [same, joined.1]⟩⟩
  | false =>
    rcases State.bridgeTo_flipped noted j.plan.start with ⟨e, stop, early, bridges⟩ | ends
    · obtain ⟨bridge, first, joined, same, both, rfl, routed⟩ := State.planJoin_bridges record planned (started := false) (replaced := none)
        bridges early
      exact ⟨first, joined, Or.inr ⟨rfl, _, e, stop, same, both, rfl, rfl, rfl, by rw [joined.1]; rfl,
        by rw [joined.1]; exact before_iff.mp early, routed⟩⟩
    · obtain ⟨first, joined, same, only⟩ := State.planJoin_ends record planned (started := false) (replaced := none) ends
      exact ⟨first, joined, Or.inl ⟨only, by rw [same, joined.1]⟩⟩

end Sys2Proof.Machine

namespace Sys2Proof.Machine

/-! ## A flip seen from the state before it -/

/-- What the abandoned edit and the new page leave as they were. -/
structure SwappedOnly (s u : State) (c : Channel) : Prop where
  settings : u.live = s.live
  routing : SameRouting s u
  clock : u.stc = s.stc
  cue : u.cue c = s.cue c
  record : u.authority c = s.authority c
  queue : u.cus.queue = s.cus.queue
  txn : u.cus.txn = s.cus.txn

theorem State.swapped_swappedOnly (s : State) (c : Channel) (g : ReadyPage) : SwappedOnly s (s.swapped c g) c := by
  have only := s.swapped_only c g
  obtain ⟨queue, txn⟩ := Prod.mk.inj (only .cueQueue (by simp))
  exact ⟨only .settings (by simp), only.routing (by simp) (by simp), only .clock (by simp), only (.plan c) (by simp),
    only (.authority c) (by simp), queue, txn⟩

theorem airOfPlanned_of_settings {s u : State} (settings : u.live = s.live) (c : Channel) (g : Planned) :
    airOfPlanned u c g = airOfPlanned s c g := by
  rw [← State.airFrom_eq, ← State.airFrom_eq, State.airFrom, State.airFrom, State.routes_eq settings]

theorem SwappedOnly.unsent {s u : State} {c : Channel} (h : SwappedOnly s u c) (e : LocalFrame) : unsentPlay u c e ↔ unsentPlay s c e := by
  unfold unsentPlay
  rw [h.queue, h.txn]

section
variable {s : State} {c : Channel} {g : ReadyPage} {a : OnAir}

/-- R150 for a STANDBY channel: what the page change leaves, seen from the state before the flip. -/
structure FlippedTo (s t : State) (c : Channel) (air : OnAir) (late : Bool) (j : Join) : Prop where
  page : planOnNewPage s t c
  first : ∃ first, (t.cue c).planned.getLast? = some first ∧ (late = false → joinPlanned s t c j first)
  air : (∃ first, (t.cue c).planned = [first] ∧ t.authority c = .standby { air with stop := some first.start })
    ∨ late = false ∧ ∃ e, t.authority c = .standby { air with stop := some e }
  flag : late = true → t.channelFlag .cueLate c = true

theorem flippedTo_of {u v t : State} {air : OnAir} {late : Bool} {j : Join} {rj : Nat} (same : SwappedOnly s u c)
    (clear : ClearedFor u v c air late) (replanned : Replanned v t c air late j) (rel : j.rel = some rj) (rise : FlagsRise v t) :
    FlippedTo s t c air late j := by
  obtain ⟨first, joined, filled⟩ := replanned.first
  have anchor : (t.cue c).anchor = some (first.start, rj) := by
    rw [joined.2.2.2.1, rel, joined.1]
    rfl
  have settings : v.live = s.live := Eq.trans (clear.only .settings (by simp [cueParts, planParts, flagParts])) same.settings
  have cadence : v.cdu = s.cdu := Eq.trans (clear.only .cadence (by simp [cueParts, planParts, flagParts])) same.routing.cadence
  have taken := clear.taken.trans same.routing.taken
  have pending (intime : late = false) : v.xps.pending ⊆ s.xps.pending := by
    rw [← same.routing.pending]
    exact clear.pending intime
  have from_s (intime : late = false) : joinPlanned s t c j first := joinPlanned_from joined settings cadence taken (pending intime)
  have flag (at' : late = true) : t.channelFlag .cueLate c = true := rise.kept _ _ (clear.flag at')
  rcases filled with ⟨planned, record⟩ | ⟨intime, bridge, e, stop, record, planned, gap, id, start, ends, early, routed⟩
  · exact ⟨⟨first, rj, _, record, anchor, Or.inl ⟨planned, rfl⟩⟩, ⟨first, by rw [planned]; rfl, from_s⟩, Or.inl ⟨first, planned, record⟩, flag⟩
  · refine ⟨⟨first, rj, air, record, anchor, Or.inr ⟨bridge, planned, gap, id, by rw [stop, start], ends, early, ?_⟩⟩,
      ⟨first, by rw [planned]; rfl, from_s⟩, Or.inr ⟨intime, e, by rw [record, ← stop]⟩, flag⟩
    exact segmentRouted_from routed settings cadence taken fun _ _ held _ _ => pending intime held

theorem pageChange_flippedTo (record : s.authority c = .standby a) {air : OnAir} {late : Bool}
    (started : AirStarted (s.swapped c g) ((s.swapped c g).dueStarted c) c air late) (is : (s.swapped c g).lateDue c = late) :
    FlippedTo s ((s.swapped c g).pageChange c) c air late (((s.swapped c g).cleared c).join c) := by
  have same := s.swapped_swappedOnly c g
  have pages := s.swapped_pages c g
  have record' := same.record.trans record
  have clear := State.cleared_clearedFor started
  have change := State.pageChange_standby record'
  rw [is] at change
  rw [change]
  generalize s.swapped c g = u at *
  have active : ((u.cleared c).pages c).active = some g.activated :=
    (congrArg Pages.active (clear.only (.pages c) (by simp [cueParts, planParts, flagParts]))).trans (congrArg Pages.active pages)
  have rise := (u.cleared c).planJoin_rise c late none ((u.cleared c).join c)
  exact flippedTo_of same clear (State.planJoin_replanned clear.record clear.planned late _) (State.join_rel active) rise

/-- The join on the new page where nothing is planned. -/
theorem cleared_join (record : s.authority c = .standby a) (planned : (s.cue c).planned = []) :
    ((s.swapped c g).cleared c).join c = State.join (s.putPages c ⟨some g.activated, .empty⟩) c := by
  have same := s.swapped_swappedOnly c g
  have pages := s.swapped_pages c g
  have due := State.dueSegment_none (same.record.trans record) ((congrArg CueChannel.planned same.cue).trans planned)
  rw [State.cleared, (State.dueStarted_none due).1]
  have nothing := State.withdrawPlan_nothing ((congrArg CueChannel.planned same.cue).trans planned)
  have only := (s.swapped c g).withdrawPlan_only c
  have keeps := (s.swapped c g).withdrawPlan_keeps c
  generalize s.swapped c g = u at *
  have drop := (u.withdrawPlan c).dropAnchor_only c
  rw [drop.join fun q hq => by simp [joinParts] at hq; rcases hq with rfl | rfl | rfl | rfl | rfl <;> simp]
  have settings : (u.withdrawPlan c).live = s.live := keeps.1.settings.trans same.settings
  have clock : (u.withdrawPlan c).stc = s.stc := Eq.trans (only .clock (by simp [planParts])) same.clock
  have page : (u.withdrawPlan c).pages c = u.pages c := only (.pages c) (by simp [planParts])
  refine State.join_of_same settings (keeps.1.cadence.trans same.routing.cadence) clock ?_ (nothing.1.trans same.queue)
    (nothing.2.1.trans same.txn)
  rw [page, pages, State.pages_putPages, if_pos rfl]

theorem flip_standby (record : s.authority c = .standby a) :
    planOnNewPage s ((s.swapped c g).pageChange c) c
      ∧ ((s.cue c).planned = [] → ∃ f, (((s.swapped c g).pageChange c).cue c).planned.getLast? = some f
          ∧ joinPlanned s ((s.swapped c g).pageChange c) c (State.join (s.putPages c ⟨some g.activated, .empty⟩) c) f)
      ∧ (∀ seg rest, (s.cue c).planned = seg :: rest → seg.start = s.cdu.now →
        (seg.content.player.isSome → unsentPlay s c seg.start →
          ((s.swapped c g).pageChange c).channelFlag .cueLate c = true ∧ ∃ first, (((s.swapped c g).pageChange c).cue c).planned = [first]
            ∧ ((s.swapped c g).pageChange c).authority c = .standby ⟨.fill, seg.id, (s.cfg c).filler, none, some first.start, seg.start⟩)
        ∧ (seg.content.player = none ∨ ¬ unsentPlay s c seg.start →
          ∃ e, ((s.swapped c g).pageChange c).authority c = .standby { airOfPlanned s c seg with stop := some e })) := by
  have same := s.swapped_swappedOnly c g
  have record' := same.record.trans record
  refine ⟨?_, fun planned => ?_, fun seg rest planned now => ?_⟩
  · obtain ⟨air, started⟩ := State.dueStarted_airStarted record'
    exact (pageChange_flippedTo record started rfl).page
  · have due := State.dueSegment_none record' ((congrArg CueChannel.planned same.cue).trans planned)
    obtain ⟨air, started⟩ := State.dueStarted_airStarted record'
    obtain ⟨first, last, joined⟩ := (pageChange_flippedTo record started rfl).first
    have join := joined (State.dueStarted_none due).2
    rw [cleared_join record planned] at join
    exact ⟨first, last, join⟩
  · have planned' := (congrArg CueChannel.planned same.cue).trans planned
    have due := State.dueSegment_standby record' planned' (now.trans (congrArg Cdu.now same.routing.cadence).symm)
    have started := State.startHead_airStarted record' planned'
    obtain ⟨dueStarted, lateDue⟩ := State.dueStarted_some due
    rw [← dueStarted] at started
    have flipped := pageChange_flippedTo record started lateDue
    refine ⟨fun player unsent => ?_, fun intime => ?_⟩
    · have late : (s.swapped c g).lateAtStart c seg = true := State.lateAtStart_iff.mpr ⟨player, (same.unsent _).mpr unsent⟩
      rw [State.startsAs, late, if_pos rfl, State.lateAir, State.cfg_eq same.settings] at flipped
      rcases flipped.air with ⟨first, only, air⟩ | ⟨wrong, _⟩
      · exact ⟨flipped.flag rfl, first, only, air⟩
      · cases wrong
    · have onTime : (s.swapped c g).lateAtStart c seg = false := State.lateAtStart_false fun ⟨player, unsent⟩ => by
        rcases intime with none | sent
        · rw [none] at player; cases player
        · exact sent ((same.unsent _).mp unsent)
      rw [State.startsAs, onTime, if_neg (by decide), State.airFrom_eq, airOfPlanned_of_settings same.settings] at flipped
      rcases flipped.air with ⟨first, _, air⟩ | ⟨_, e, air⟩
      · exact ⟨_, air⟩
      · exact ⟨_, air⟩

end

/-- A page change on a channel that is not STANDBY drops its anchor. -/
theorem flip_drops {s : State} {c : Channel} (g : ReadyPage) (off : (s.authority c).name ≠ .main)
    (unarmed : ∀ o plan, s.authority c ≠ .armed o plan) (other : ∀ a, s.authority c ≠ .standby a) :
    (s.performFlip c g).pages c = ⟨some g.activated, .empty⟩ ∧ (s.performFlip c g).cue c = { s.cue c with anchor := none }
      ∧ OnlyChanges [.pages c, .engine, .reports, .plan c] s (s.performFlip c g) := by
  have same := s.swapped_swappedOnly c g
  have pages := s.swapped_pages c g
  have only := s.swapped_only c g
  rw [State.performFlip_off off unarmed, State.pageChange_drops fun a record => other a (same.record.symm.trans record)]
  generalize s.swapped c g = u at *
  exact ⟨Eq.trans (u.dropAnchor_only c (.pages c) (by simp)) pages, by rw [State.dropAnchor_cue, same.cue],
    (only.mono (by simp)).trans ((u.dropAnchor_only c).mono (by simp))⟩

theorem State.pageChange_name {s : State} {c : Channel} {a : OnAir} (record : s.authority c = .standby a) :
    ((s.pageChange c).authority c).name = .standby := by
  obtain ⟨air, started⟩ := State.dueStarted_airStarted record
  have clear := State.cleared_clearedFor started
  rw [State.pageChange_standby record]
  obtain ⟨_, _, filled⟩ := (State.planJoin_replanned clear.record clear.planned (s.lateDue c) ((s.cleared c).join c)).first
  rcases filled with ⟨_, same⟩ | ⟨_, _, _, _, same, _⟩
  · rw [same]; rfl
  · rw [same]; rfl

/-- R60: an ARMED channel whose first segment has no end goes to air before the flip. -/
theorem State.goToAir_standby (s : State) (c : Channel) (plan : JoinPlan) : ∃ a, (s.goToAir c plan).authority c = .standby a := by
  rw [State.goToAir_eq]
  have record := fun u : State => u.firstOnAir_record c (s.startsAs c plan.segment)
  cases late : s.lateAtStart c plan.segment with
  | false =>
    rw [if_neg (by decide)]
    have behind := State.planAfterStart_standby (record s)
    exact ⟨_, behind.planOnly.record.trans (record s)⟩
  | true =>
    rw [if_pos rfl]
    have plans : ((s.removeLate c plan.segment).firstOnAir c (s.startsAs c plan.segment)).planAfterStart c true
        = ((s.removeLate c plan.segment).firstOnAir c (s.startsAs c plan.segment)).freshJoin c true := by
      rw [State.planAfterStart, record]
      rfl
    rw [plans]
    obtain ⟨g, planned, joined, same⟩ := State.planJoin_joinPlanned _ c true
      (((s.removeLate c plan.segment).firstOnAir c (s.startsAs c plan.segment)).cue c).planned.head? _
    exact ⟨_, same.trans (State.clearedTo_cleared (record _)).record⟩

theorem performFlip_armed {s : State} {c : Channel} {o : Origin} {plan : JoinPlan} (record : s.authority c = .armed o plan) (stop : plan.stop = none)
    (g : ReadyPage) : (s.performFlip c g).pages c = ⟨some g.activated, .empty⟩ ∧ ((s.performFlip c g).authority c).name = .standby := by
  have first : s.airFirst c = s.goToAir c plan := by
    unfold State.airFirst
    rw [record]
    exact if_pos stop
  obtain ⟨a, air⟩ := s.goToAir_standby c plan
  rw [State.performFlip_eq, first]
  generalize s.goToAir c plan = u at *
  have same := u.swapped_swappedOnly c g
  have pages := u.swapped_pages c g
  have record' := same.record.trans air
  rw [if_neg (by rw [State.isMain_of (by rw [record']; exact nofun)]; decide)]
  exact ⟨Eq.trans ((State.pageChange_acts _ c).only (.pages c) (by simp [cueParts, planParts, flagParts])) pages, State.pageChange_name record'⟩

/-- Settles O35, by whether the flip is due, and by the channel's record and its boundary. -/
theorem flipSwapsThePages : Obligations.FlipSwapsThePages := by
  intro s c g f running window ready flip
  dsimp only
  refine ⟨fun set come => ?_, fun early => exec_flip_early running (State.flipDue_none ready flip early)⟩
  have run := exec_flip_due running window (State.flipDue_some ready flip set come)
  have stays (closed : s.flipAllowed c = false) : exec (.flipPerform c) s = .next s := by
    rw [closed, if_neg (by decide)] at run
    exact run
  have flips (allowed : s.flipAllowed c = true) : exec (.flipPerform c) s = .next (s.performFlip c g) := by
    rw [allowed, if_pos rfl] at run
    exact run
  refine ⟨fun main => ?_, fun p a record => ?_, fun a record boundary => ?_, fun pr m point a record boundary => ?_,
    fun a e record stop later inner => ?_, fun o plan record => ⟨fun e stop later => ?_, fun stop early => ?_, fun stop now => ?_⟩⟩
  · have record : s.authority c = .main := by
      rw [State.isMain, beq_iff_eq] at main
      cases h : s.authority c <;> rw [h] at main <;> first | rfl | cases main
    have moved := flips (by rw [State.flipAllowed, record])
    rw [State.performFlip_main main] at moved
    refine ⟨_, moved, s.swapped_pages c g, fun idle => ?_, s.swapped_only c g⟩
    rw [State.swapped_idle s c g idle]
    exact (s.putPages_acts c _).only
  · exact ⟨_, flips (by rw [State.flipAllowed, record]), flip_drops g (by rw [record]; exact nofun) (by rw [record]; exact nofun)
      (by rw [record]; exact nofun)⟩
  · have moved := flips (by rw [State.flipAllowed, record]; exact State.atBoundary_iff.mpr boundary)
    have only := (s.performFlip_acts c g).only
    rw [State.performFlip_off (by rw [record]; exact nofun) (by rw [record]; exact nofun)] at moved only
    have pages : ((s.swapped c g).pageChange c).pages c = ⟨some g.activated, .empty⟩ :=
      Eq.trans ((State.pageChange_acts _ c).only (.pages c) (by simp [cueParts, planParts, flagParts])) (s.swapped_pages c g)
    obtain ⟨page, join, started⟩ := flip_standby (g := g) record
    rw [← pages] at join
    exact ⟨_, moved, pages, page, join, started, only.mono (by intro q hq; simp [flipParts] at hq ⊢; tauto)⟩
  · exact ⟨_, flips (by rw [State.flipAllowed, record]; exact State.atBoundary_iff.mpr boundary),
      flip_drops g (by rw [record]; exact nofun) (by rw [record]; exact nofun) (by rw [record]; exact nofun)⟩
  · have away : s.atBoundary c a = false := Bool.eq_false_iff.mpr fun at' => by
      rcases State.atBoundary_iff.mp at' with none | now | started
      · rw [none] at stop; cases stop
      · rw [now] at stop; cases stop; exact later rfl
      · rw [started] at inner; cases inner
    refine stays ?_
    rcases record with standby | ⟨pr, m, point, returning⟩
    · rw [State.flipAllowed, standby]; exact away
    · rw [State.flipAllowed, returning]; exact away
  · refine stays ?_
    rw [State.flipAllowed, record]
    dsimp only
    rw [stop, State.now, show (some e == some s.cdu.now) = false from beq_eq_false_iff_ne.mpr fun same => later (Option.some.inj same)]
    rfl
  · refine stays ?_
    rw [State.flipAllowed, record]
    dsimp only
    rw [stop, State.now, atOrAfter_false.mpr early]
    rfl
  · have moved := flips (by
      rw [State.flipAllowed, record]
      dsimp only
      rw [stop, State.now, now, atOrAfter_self]
      rfl)
    exact ⟨_, moved, performFlip_armed record stop g⟩

end Sys2Proof.Machine

namespace Sys2Proof.Machine

/-! # Edits of the active page (R61 to R64) -/

/-! ## The edited list -/

theorem placeOf_first {pre post : List Event} {e : Event} (first : ∀ x ∈ pre, x.id ≠ e.id) : placeOf (pre ++ e :: post) e.id = some pre.length := by
  have held : (pre ++ e :: post).any (fun x => x.id == e.id) = true := by simp
  have taken : (pre ++ e :: post).takeWhile (fun x => x.id != e.id) = pre := by
    rw [List.takeWhile_append_of_pos fun x hx => bne_iff_ne.mpr (first x hx)]
    simp
  rw [placeOf, held, if_pos rfl, taken]

theorem placeOf_none {es : List Event} {id : EventId} (none : ∀ e ∈ es, e.id ≠ id) : placeOf es id = Option.none := by
  refine if_neg ?_
  rw [List.any_eq_true]
  exact fun ⟨e, held, same⟩ => none e held (beq_iff_eq.mp same)

/-- R61: the list that the model forms is the one that the edit describes. -/
theorem formEdited_of {f : Format} {page : Page} {op : EditOp} {x : Edited} (h : EditOf f page op x) : formEdited f page op = some x := by
  cases h with
  | insertHead r e formed => simp [formEdited, formed]
  | insertAfter r e a pre post formed list first other =>
    rw [formEdited, formed, list, placeOf_first first, if_neg other]
    simp [List.take_append, List.drop_append, List.take_of_length_le, List.drop_eq_nil_of_le]
  | replace r e a pre post formed list first =>
    simp [formEdited, formed, list, placeOf_first first, List.drop_append]
  | delete a pre post list first =>
    simp [formEdited, list, placeOf_first first, List.eraseIdx_append_of_length_le]

/-- R62: an edit of an id that is not in the page, or with a malformed record, cannot be formed. -/
theorem formEdited_none {f : Format} {page : Page} {op : EditOp}
    (refused : (∃ id, (op.target = some id ∨ id ≠ 0 ∧ ∃ r, op = .insertAfter id r) ∧ ∀ e ∈ page.events, e.id ≠ id)
      ∨ ∃ id r, (op = .insertAfter id r ∨ op = .replace id r) ∧ formEvent f page.baseDay r = none) : formEdited f page op = none := by
  rcases refused with ⟨id, names, absent⟩ | ⟨id, r, rfl | rfl, malformed⟩
  · have place := placeOf_none absent
    rcases names with target | ⟨other, r, rfl⟩
    · cases op with
      | insertAfter ref r => cases target
      | replace i r =>
        cases target
        simp [formEdited, place]
      | delete i =>
        cases target
        simp [formEdited, place]
    · rw [formEdited, place, if_neg other]
      cases formEvent f page.baseDay r <;> rfl
  · simp [formEdited, malformed]
  · simp [formEdited, malformed]

/-! ## The locked events (R63) -/

theorem mem_authority_lockedIds {r : Authority} {id : EventId} :
    id ∈ r.lockedIds ↔ (∃ o g, r = .armed o g ∧ g.id = id) ∨ ∃ a, r.air = some a ∧ a.id = id := by
  cases r <;> simp [Authority.lockedIds, Authority.air, eq_comm]

theorem mem_cuedIds {s : State} {c : Channel} {id : EventId} : id ∈ s.cuedIds c ↔
    ∃ x, (x ∈ s.cus.queue ∨ ∃ k, s.cus.txn = some k ∧ k.entry = x) ∧ x.channel = c
      ∧ ∃ clipId media n, x.action = .play clipId media n id := by
  have entries (x : CueEntry) : (if x.channel = c then x.action.event else none) = some id
      ↔ x.channel = c ∧ ∃ clipId media n, x.action = .play clipId media n id := by
    obtain ⟨ch, p, addr, d, st, action⟩ := x
    cases action <;> simp [CueAction.event]
  simp only [State.cuedIds, List.mem_filterMap, entries, List.mem_append, Option.mem_toList, Option.map_eq_some_iff]

theorem mem_plannedIds {s : State} {c : Channel} {id : EventId} : id ∈ s.plannedIds c ↔
    ∃ g ∈ (s.cue c).planned, g.id = id ∧ ∃ q, g.content.player = some q ∧ s.playerState c q = .cued := by
  have entries (g : Planned) : (match g.content.player with
      | some p => if s.playerState c p = .cued then some g.id else none
      | none => none) = some id ↔ g.id = id ∧ ∃ q, g.content.player = some q ∧ s.playerState c q = .cued := by
    cases g.content.player <;> simp [and_comm]
  rw [State.plannedIds, List.mem_filterMap]
  exact exists_congr fun g => and_congr_right fun _ => entries g

theorem mem_lockedIds {s : State} {c : Channel} (off : s.isMain c = false) {id : EventId} : id ∈ s.lockedIds c ↔ lockedEvent s c id := by
  rw [State.lockedIds, off, if_neg (by decide), List.mem_append, List.mem_append, mem_authority_lockedIds, mem_cuedIds, mem_plannedIds,
    or_assoc, or_assoc]
  rfl

theorem State.disturbs_iff {s : State} {c : Channel} (off : s.isMain c = false) {page : Page} {op : EditOp} {x : Edited} :
    s.disturbs c page op x = true ↔ ∃ id, lockedEvent s c id ∧ disturbedBy page op x id := by
  simp only [State.disturbs, List.any_eq_true, Bool.and_eq_true, Bool.or_eq_true, beq_iff_eq, bne_iff_ne, mem_lockedIds off, disturbedBy]

theorem State.disturbs_main {s : State} {c : Channel} (main : s.isMain c = true) (page : Page) (op : EditOp) (x : Edited) :
    s.disturbs c page op x = false := by
  rw [State.disturbs, State.lockedIds, main, if_pos rfl]
  rfl

/-! ## An edit that completes -/

/-- R62: the pool has no slot for an insertion. -/
def State.noSlot (s : State) (op : EditOp) : Bool := op.takesSlot && s.poolFull

theorem State.noSlot_iff {s : State} {op : EditOp} : s.noSlot op = true ↔ op.takesSlot = true ∧ 6144 ≤ s.slotsUsed := by
  rw [State.noSlot, Bool.and_eq_true, State.poolFull, decide_eq_true_iff]
  rfl

/-- R62: the edited list can stand, and an insertion finds a slot. -/
def fitsIn (s : State) (op : EditOp) (x : Edited) : Prop :=
  x.stands s.live.format = true ∧ (op.takesSlot = true → s.slotsUsed < 6144)

theorem fitsIn_iff {s : State} {op : EditOp} {x : Edited} : fitsIn s op x ↔ x.stands s.live.format = true ∧ s.noSlot op = false := by
  rw [fitsIn, ← Bool.not_eq_true, State.noSlot_iff]
  exact and_congr_right fun _ => ⟨fun free ⟨takes, full⟩ => absurd (free takes) (Nat.not_lt.mpr full),
    fun free takes => Nat.lt_of_not_le fun full => free ⟨takes, full⟩⟩

section
variable {s : State} {c : Channel} {page : Page} {op : EditOp} {x : Edited}

theorem State.completeEdit_formed (active : (s.pages c).active = some page) (formed : formEdited s.live.format page op = some x) :
    s.completeEdit c op = if x.stands s.live.format && !s.noSlot op && !s.disturbs c page op x then s.acceptEdit c page x.resolved
      else s.refuseEdit c (s.noSlot op) (s.disturbs c page op x) := by
  unfold State.completeEdit
  rw [active]
  dsimp only
  rw [formed]
  rfl

theorem State.completeEdit_accepts (active : (s.pages c).active = some page) (formed : formEdited s.live.format page op = some x)
    (fits : fitsIn s op x) (still : s.disturbs c page op x = false) : s.completeEdit c op = s.acceptEdit c page x.resolved := by
  obtain ⟨stands, free⟩ := fitsIn_iff.mp fits
  rw [State.completeEdit_formed active formed, stands, free, still]
  rfl

theorem State.completeEdit_refuses (active : (s.pages c).active = some page) (formed : formEdited s.live.format page op = some x)
    (out : s.disturbs c page op x = true ∨ ¬ fitsIn s op x) :
    s.completeEdit c op = s.refuseEdit c (s.noSlot op) (s.disturbs c page op x) := by
  rw [State.completeEdit_formed active formed]
  refine if_neg fun all => ?_
  rw [Bool.and_eq_true, Bool.and_eq_true, Bool.not_eq_true', Bool.not_eq_true'] at all
  rcases out with locked | misfit
  · rw [locked] at all; cases all.2
  · exact misfit (fitsIn_iff.mpr all.1)

theorem State.completeEdit_unformed (active : (s.pages c).active = some page) (unformed : formEdited s.live.format page op = none) :
    s.completeEdit c op = s.diverge c := by
  unfold State.completeEdit
  rw [active]
  dsimp only
  rw [unformed]

theorem State.completeEdit_empty (none : (s.pages c).active = Option.none) : s.completeEdit c op = s.diverge c := by
  unfold State.completeEdit
  rw [none]

theorem State.editCount_formed (active : (s.pages c).active = some page) (formed : formEdited s.live.format page op = some x) :
    s.editCount c op = x.count := by
  unfold State.editCount
  rw [active]
  dsimp only
  rw [formed]
  rfl

theorem State.takeEditOp_short (short : s.editCount c op ≤ 256) : s.takeEditOp c op = s.completeEdit c op := if_pos short

theorem State.takeEditOp_long (long : 256 < s.editCount c op) :
    s.takeEditOp c op = s.setEngine (.editing c op ((s.editCount c op + 255) / 256 - 1)) := if_neg (Nat.not_le.mpr long)

end

/-- What a refused edit leaves (R62). -/
structure EditRefused (s t : State) (c : Channel) (page : Page) (full locked : Bool) : Prop where
  pages : t.pages c = { s.pages c with active := some { page with diverged := true } }
  diverged : t.channelFlag .diverged c = true
  editLocked : t.channelFlag .editLocked c = (locked || s.channelFlag .editLocked c)
  poolFull : full = true → t.deviceFlag .poolFull = true
  record : t.authority c = s.authority c
  cue : t.cue c = s.cue c
  only : OnlyChanges (.pages c :: deviceFlagParts ++ flagParts c) s t

theorem State.diverge_only (s : State) (c : Channel) : OnlyChanges (.pages c :: flagParts c) s (s.diverge c) := (s.diverge_acts c).only

theorem State.refuseEdit_only (s : State) (c : Channel) (full locked : Bool) :
    OnlyChanges (.pages c :: deviceFlagParts ++ flagParts c) s (s.refuseEdit c full locked) := by
  have marked : OnlyChanges (.pages c :: deviceFlagParts ++ flagParts c) s ((s.diverge c).raiseIf locked .editLocked c) :=
    ((s.diverge_only c).mono (by intro q; simp; tauto)).trans ((State.raiseIf_acts _ locked .editLocked c).only.mono (by intro q; simp; tauto))
  exact OnlyChanges.ite (marked.trans ((State.raiseDevice_acts _ _).only.mono (by intro q; simp; tauto))) marked

theorem State.refuseEdit_refused {s : State} {c : Channel} {page : Page} (active : (s.pages c).active = some page) (full locked : Bool) :
    EditRefused s (s.refuseEdit c full locked) c page full locked := by
  have only := s.refuseEdit_only c full locked
  have pages := State.diverge_pages active
  have marked : ((s.diverge c).raiseIf locked .editLocked c).pages c = (s.diverge c).pages c := by
    rw [State.pages, State.sst_raiseIf]
    rfl
  have diverged : ((s.diverge c).raiseIf locked .editLocked c).channelFlag .diverged c = true := by
    rw [State.channelFlag_raiseIf, State.diverge_flag, if_pos rfl, ite_self]
  have lock : ((s.diverge c).raiseIf locked .editLocked c).channelFlag .editLocked c = (locked || s.channelFlag .editLocked c) := by
    rw [State.channelFlag_raiseIf, State.diverge_flag]
    cases locked <;> simp
  have record : (s.refuseEdit c full locked).authority c = s.authority c := only (.authority c) (by simp [deviceFlagParts, flagParts])
  have cue : (s.refuseEdit c full locked).cue c = s.cue c := only (.plan c) (by simp [deviceFlagParts, flagParts])
  cases full with
  | false => exact ⟨marked.trans pages, diverged, lock, nofun, record, cue, only⟩
  | true =>
    refine ⟨Eq.trans (State.pages_raiseDevice _ _ c) (marked.trans pages), diverged, lock, fun _ => ?_, record, cue, only⟩
    exact (State.deviceFlag_raiseDevice _ _ _).trans (if_pos rfl)

end Sys2Proof.Machine

namespace Sys2Proof.Machine

/-! ## The plan after an edit (R149) -/

theorem State.exhaustedOnAir_iff {s : State} {c : Channel} {a : OnAir} (record : s.authority c = .standby a) :
    s.exhaustedOnAir c = true ↔ (s.cue c).exhausted = true ∧ a.stop = none ∧ (a.kind = .gap ∨ a.kind = .fill) := by
  have air : s.airOf c = some a := congrArg Authority.air record
  rw [State.exhaustedOnAir, air, Bool.and_eq_true]
  simp

theorem State.reviewPlan_off {s : State} {c : Channel} (other : ∀ a, s.authority c ≠ .standby a) : s.reviewPlan c = s := by
  unfold State.reviewPlan
  split
  · next a record => exact absurd record (other a)
  all_goals rfl

theorem State.reviewPlan_exhausted {s : State} {c : Channel} {a : OnAir} (record : s.authority c = .standby a)
    (exhausted : s.exhaustedOnAir c = true) : s.reviewPlan c = s.rejoinExhausted c := by
  unfold State.reviewPlan
  rw [record]
  exact if_pos exhausted

theorem State.reviewPlan_last {s : State} {c : Channel} {a : OnAir} (record : s.authority c = .standby a)
    (exhausted : s.exhaustedOnAir c = false) : s.reviewPlan c = match (s.cue c).planned.getLast? with
      | some seg => s.replanLast c seg
      | none => s := by
  unfold State.reviewPlan
  rw [record]
  dsimp only
  rw [exhausted, if_neg (by decide)] <;> rfl

theorem State.replanLast_clip {s : State} {c : Channel} {seg : Planned} (clip : seg.content.player.isSome = true) : s.replanLast c seg = s := by
  obtain ⟨p, player⟩ := Option.isSome_iff_exists.mp clip
  unfold State.replanLast
  rw [player]

theorem State.replanLast_other {s : State} {c : Channel} {seg : Planned} {e : LocalFrame} (other : seg.content.player = none)
    (ends : s.endBeforeLast c = some e) : s.replanLast c seg
      = ((s.putPlanned c (s.cue c).planned.dropLast).withdrawXp c seg.start).planNext c e := by
  unfold State.replanLast
  rw [other, ends]

theorem State.endBeforeLast_eq {s : State} {c : Channel} {a : OnAir} {pre : List Planned} {seg : Planned} (record : s.authority c = .standby a)
    (planned : (s.cue c).planned = pre ++ [seg]) :
    s.endBeforeLast c = match pre.getLast? with | some b => b.stop | none => a.stop := by
  have air : s.airOf c = some a := congrArg Authority.air record
  rw [State.endBeforeLast, planned, List.dropLast_concat, air]
  cases pre.getLast? <;> rfl

/-- The last planned segment planned again, where it is no clip. -/
theorem State.replanLast_lookedUp {s : State} {c : Channel} {pre : List Planned} {seg : Planned} {e : LocalFrame} {y : Placed}
    (planned : (s.cue c).planned = pre ++ [seg]) (other : seg.content.player = none) (ends : s.endBeforeLast c = some e)
    (found : s.lookupPlace c e = some y) :
    ∃ g, ((s.replanLast c seg).cue c).planned = pre ++ [g] ∧ lookedUp s (s.replanLast c seg) c e y g
      ∧ (s.replanLast c seg).authority c = s.authority c := by
  rw [State.replanLast_other other ends, planned, List.dropLast_concat]
  have cue := s.putPlanned_cue c pre
  have lookup := (s.putPlanned_lookup c pre e).trans found
  have sub := (s.putPlanned c pre).withdrawXp_sub c seg.start
  have only := ((s.putPlanned c pre).withdrawXp_acts c seg.start).only
  have look : ((s.putPlanned c pre).withdrawXp c seg.start).lookupPlace c e = some y :=
    (State.lookupPlace_eq (s := s.putPlanned c pre) (t := (s.putPlanned c pre).withdrawXp c seg.start) rfl rfl rfl rfl e).trans lookup
  have same : ((s.putPlanned c pre).withdrawXp c seg.start).cue c = { s.cue c with planned := pre } := cue
  have live : ((s.putPlanned c pre).withdrawXp c seg.start).live = s.live := rfl
  have cdu : ((s.putPlanned c pre).withdrawXp c seg.start).cdu = s.cdu := rfl
  have taken : ((s.putPlanned c pre).withdrawXp c seg.start).xps.eventTaken = s.xps.eventTaken := rfl
  have record : ((s.putPlanned c pre).withdrawXp c seg.start).authority c = s.authority c := rfl
  have pending : ((s.putPlanned c pre).withdrawXp c seg.start).xps.pending ⊆ s.xps.pending := sub
  generalize (s.putPlanned c pre).withdrawXp c seg.start = w at *
  obtain ⟨g, put, looked, still⟩ := State.planNext_lookedUp look
  exact ⟨g, by rw [put, same], lookedUp_from looked live cdu taken fun _ x held _ _ => pending held, still.trans record⟩

theorem Placed.plan_exhausted {y : Placed} {jl : LocalFrame} {js : Nat} :
    (y.plan jl js).exhausted = true ↔ (y.plan jl js).stop = none := by
  cases length : y.length <;> simp [Placed.plan, Placed.exhausted, length]

theorem State.join_exhausted (s : State) (c : Channel) : (s.join c).plan.exhausted = true ↔ (s.join c).plan.stop = none := by
  unfold State.join
  dsimp only
  split
  · exact Placed.plan_exhausted
  · exact Placed.plan_exhausted

/-- R149: exhausted filler on air with nothing planned. -/
theorem State.rejoinExhausted_empty {s : State} {c : Channel} {a : OnAir} (record : s.authority c = .standby a) (planned : (s.cue c).planned = []) :
    ((s.join c).plan.stop = none → (s.rejoinExhausted c).authority c = s.authority c ∧ ((s.rejoinExhausted c).cue c).planned = []
        ∧ (s.rejoinExhausted c).channelFlag .listExhausted c = true ∧ (s.rejoinExhausted c).xps.pending = s.xps.pending)
      ∧ ((s.join c).plan.stop.isSome → (s.rejoinExhausted c).authority c = .standby { a with stop := some (s.join c).plan.start }
        ∧ ∃ g, ((s.rejoinExhausted c).cue c).planned = [g] ∧ joinPlanned s (s.rejoinExhausted c) c (s.join c) g) := by
  have nothing := State.withdrawPlan_nothing planned
  have keeps := s.withdrawPlan_keeps c
  have only := s.withdrawPlan_only c
  have authority := s.withdrawPlan_authority c c
  have cleared := s.withdrawPlan_planned c
  have join : (s.withdrawPlan c).join c = s.join c := State.join_of_same keeps.1.settings keeps.1.cadence (only .clock (by simp [planParts]))
    (only (.pages c) (by simp [planParts])) nothing.1 nothing.2.1
  unfold State.rejoinExhausted
  dsimp only
  rw [join]
  generalize s.withdrawPlan c = w at *
  refine ⟨fun none => ?_, fun ends => ?_⟩
  · rw [if_pos ((s.join_exhausted c).mpr none)]
    have noted := w.noteJoin_noted c (s.join c)
    have flag : (w.noteJoin c (s.join c)).channelFlag .listExhausted c = true := by
      rw [State.noteJoin, (s.join_exhausted c).mpr none]
      exact State.noteExhausted_flag _ c
    refine ⟨(noted.authority c).trans authority, ?_, flag, noted.routing.pending.trans nothing.2.2.pending⟩
    rw [State.noteJoin_cue]
    exact cleared
  · have inTime : ¬ (s.join c).plan.exhausted = true := fun exhausted => by
      rw [(s.join_exhausted c).mp exhausted] at ends
      cases ends
    rw [if_neg inTime]
    obtain ⟨first, joined, air, planned'⟩ := State.planJoin_ends (authority.trans record) cleared (started := true) (replaced := none)
      (j := s.join c) rfl
    exact ⟨air, first, planned', joinPlanned_from joined keeps.1.settings keeps.1.cadence nothing.2.2.taken keeps.2⟩

/-- R149: what the review of the plan leaves, in the state whose active page has been edited. -/
theorem State.reviewPlan_replanned {s : State} {c : Channel} {page : Page} :
    replanned s ((s.putPages c ⟨some page, (s.pages c).next⟩).reviewPlan c) c page := by
  refine ⟨fun other => ?_, fun a record => ?_⟩
  · rw [State.reviewPlan_off (s := s.putPages c ⟨some page, (s.pages c).next⟩) other]
    exact ⟨rfl, rfl⟩
  · dsimp only
    have record' : (s.putPages c ⟨some page, (s.pages c).next⟩).authority c = .standby a := record
    have same : (s.putPages c ⟨some page, (s.pages c).next⟩).cue c = s.cue c := rfl
    have back : ∀ t e y g, lookedUp (s.putPages c ⟨some page, (s.pages c).next⟩) t c e y g → lookedUp s t c e y g := fun t e y g looked =>
      lookedUp_from looked rfl rfl rfl fun _ x held _ _ => held
    have joined : ∀ t j g, joinPlanned (s.putPages c ⟨some page, (s.pages c).next⟩) t c j g → joinPlanned s t c j g := fun t j g h =>
      joinPlanned_from h rfl rfl rfl fun _ held => held
    have authority : (s.putPages c ⟨some page, (s.pages c).next⟩).authority c = s.authority c := rfl
    have pending : (s.putPages c ⟨some page, (s.pages c).next⟩).xps.pending = s.xps.pending := rfl
    generalize s.putPages c ⟨some page, (s.pages c).next⟩ = u at *
    have exhausts := State.exhaustedOnAir_iff record'
    rw [same] at exhausts
    refine ⟨fun out => ?_, fun exhausted planned => ?_⟩
    · have quiet : u.exhaustedOnAir c = false := Bool.eq_false_iff.mpr fun e => out (exhausts.mp e)
      have review := State.reviewPlan_last record' quiet
      refine ⟨fun planned => ?_, fun pre seg planned => ⟨fun clip => ?_, fun e y other ends found => ?_⟩⟩
      · rw [same, planned] at review
        exact ⟨(congrArg (fun t => t.authority c) review).trans authority, (congrArg (fun t => t.cue c) review).trans same⟩
      · rw [same, planned, List.getLast?_concat] at review
        rw [review]
        dsimp only
        rw [State.replanLast_clip clip]
        exact ⟨authority, same⟩
      · rw [same, planned, List.getLast?_concat] at review
        rw [review]
        obtain ⟨g, planned', looked, still⟩ := State.replanLast_lookedUp ((congrArg CueChannel.planned same).trans planned) other
          ((State.endBeforeLast_eq record' ((congrArg CueChannel.planned same).trans planned)).trans ends) found
        exact ⟨g, planned', back _ _ _ _ looked, still.trans authority⟩
    · have exhausted' := exhausts.mpr exhausted
      obtain ⟨none, ends⟩ := State.rejoinExhausted_empty record' ((congrArg CueChannel.planned same).trans planned)
      rw [State.reviewPlan_exhausted record' exhausted']
      refine ⟨fun stop => ?_, fun stop => ?_⟩
      · obtain ⟨record, planned, flag, still⟩ := none stop
        exact ⟨record.trans authority, planned, flag, still.trans pending⟩
      · obtain ⟨record, g, planned, join⟩ := ends stop
        exact ⟨record, g, planned, joined _ _ _ join⟩

end Sys2Proof.Machine

namespace Sys2Proof.Machine

/-! ## The flags after the review of a plan -/

theorem State.appendSegment_flag (s : State) (c : Channel) (x : PlannedContent) (i : EventId) (e : LocalFrame) (stop : Option LocalFrame)
    (n : Nat) (k : ChannelFlag) : (s.appendSegment c x i e stop n).channelFlag k c = s.channelFlag k c :=
  State.channelFlag_eq ((s.appendSegment_acts c x i e stop n).only (.channelFlags c) (by simp [planParts])) k

theorem Bridged.flag {s t : State} {c : Channel} {jl : LocalFrame} (h : Bridged s c jl t) (k : ChannelFlag) :
    t.channelFlag k c = s.channelFlag k c := by
  cases h with
  | ends => exact State.channelFlag_eq (s.amendAir_only c _ (.channelFlags c) (by simp)) k
  | bridge i b x _ _ => exact s.appendSegment_flag c x i b _ 1 k

theorem State.noteJoin_flag (s : State) (c : Channel) (j : Join) {k : ChannelFlag} (other : k ≠ .listExhausted) :
    (s.noteJoin c j).channelFlag k c = s.channelFlag k c := State.noteExhausted_otherFlag _ c _ other

theorem State.planJoin_flag (s : State) (c : Channel) (started : Bool) (replaced : Option Planned) (j : Join) {k : ChannelFlag}
    (other : k ≠ .listExhausted) : (s.planJoin c started replaced j).channelFlag k c = s.channelFlag k c := by
  rw [State.planJoin_eq, State.appendSegment_flag]
  exact (((s.noteJoin c j).bridgeTo_bridged c started replaced j.plan.start).flag k).trans (s.noteJoin_flag c j other)

theorem State.withdrawPlan_flag (s : State) (c : Channel) (k : ChannelFlag) : (s.withdrawPlan c).channelFlag k c = s.channelFlag k c :=
  State.channelFlag_eq (s.withdrawPlan_only c (.channelFlags c) (by simp [planParts])) k

theorem State.rejoinExhausted_flag (s : State) (c : Channel) {k : ChannelFlag} (other : k ≠ .listExhausted) :
    (s.rejoinExhausted c).channelFlag k c = s.channelFlag k c := by
  unfold State.rejoinExhausted
  dsimp only
  split
  · exact (State.noteJoin_flag _ c _ other).trans (s.withdrawPlan_flag c k)
  · exact (State.planJoin_flag _ c _ _ _ other).trans (s.withdrawPlan_flag c k)

theorem State.replanLast_flag (s : State) (c : Channel) (g : Planned) {k : ChannelFlag} (other : k ≠ .listExhausted) :
    (s.replanLast c g).channelFlag k c = s.channelFlag k c := by
  unfold State.replanLast
  split
  · exact State.planAt_flag _ c _ _ 1 other
  · rfl

/-- R149: a review sets no flag but LIST-EXHAUSTED. -/
theorem State.reviewPlan_flag (s : State) (c : Channel) {k : ChannelFlag} (other : k ≠ .listExhausted) :
    (s.reviewPlan c).channelFlag k c = s.channelFlag k c := by
  unfold State.reviewPlan
  split
  · split
    · exact s.rejoinExhausted_flag c other
    · split
      · exact s.replanLast_flag c _ other
      · rfl
  all_goals rfl

/-! ## An edit as it completes -/

/-- The page that an accepted edit leaves (R61). -/
def Edited.page (x : Edited) (page : Page) : Page :=
  { page with events := x.resolved.1, dropped := min 65535 (page.dropped + x.resolved.2) }

theorem State.acceptEdit_eq (s : State) (c : Channel) (page : Page) (x : Edited) :
    s.acceptEdit c page x.resolved = (s.putPages c ⟨some (x.page page), (s.pages c).next⟩).reviewPlan c := rfl

theorem State.acceptEdit_pages (s : State) (c : Channel) (page : Page) (x : Edited) :
    (s.acceptEdit c page x.resolved).pages c = { s.pages c with active := some (x.page page) } := by
  rw [State.acceptEdit_eq]
  exact Eq.trans ((State.reviewPlan_acts _ c).only (.pages c) (by simp [cueParts, planParts, flagParts]))
    ((State.pages_putPages _ _ _ _).trans (if_pos rfl))

/-- What an edit may change in MAIN, and elsewhere. -/
def editedParts (c : Channel) : List Part := .pages c :: deviceFlagParts ++ flagParts c

def editedCueParts (c : Channel) : List Part := .pages c :: deviceFlagParts ++ cueParts c

theorem edited_sub_cue (c : Channel) : editedParts c ⊆ editedCueParts c := by
  intro q
  simp only [editedParts, editedCueParts, cueParts, List.cons_append, List.mem_cons, List.mem_append]
  tauto

section
variable {s : State} {c : Channel} {page : Page} {op : EditOp} {x : Edited}

theorem State.completeEdit_only (s : State) (c : Channel) (op : EditOp) : OnlyChanges (editedCueParts c) s (s.completeEdit c op) := by
  have diverge := (s.diverge_only c).mono (fun q hq => edited_sub_cue c (by simp [editedParts] at hq ⊢; tauto))
  unfold State.completeEdit
  split
  · exact diverge
  · split
    · exact diverge
    · refine OnlyChanges.ite ?_ ((s.refuseEdit_only c _ _).mono (edited_sub_cue c))
      exact ((s.putPages_acts c _).only.mono (by simp [editedCueParts])).trans
        ((State.reviewPlan_acts _ c).only.mono (fun q hq => by simp only [editedCueParts, List.mem_append]; exact Or.inr hq))

/-- R61 to R63 off MAIN. -/
theorem completeEdit_offMain (off : s.isMain c = false) (active : (s.pages c).active = some page) (edit : EditOf s.live.format page op x) :
    completedOffMain s (s.completeEdit c op) c page op x := by
  have formed := formEdited_of edit
  have disturbs := State.disturbs_iff off (page := page) (op := op) (x := x)
  refine ⟨fun out => ?_, fun locked => ?_, fun still => ?_, fun still fits => ?_⟩
  · rw [State.completeEdit_refuses active formed (out.imp disturbs.mpr id)]
    have refused := State.refuseEdit_refused active (s.noSlot op) (s.disturbs c page op x)
    exact ⟨refused.pages, refused.diverged, refused.record, refused.cue⟩
  · rw [State.completeEdit_refuses active formed (Or.inl (disturbs.mpr locked))]
    have refused := State.refuseEdit_refused active (s.noSlot op) (s.disturbs c page op x)
    rw [refused.editLocked, disturbs.mpr locked]
    rfl
  · have calm : s.disturbs c page op x = false := Bool.eq_false_iff.mpr fun h => still (disturbs.mp h)
    by_cases fits : fitsIn s op x
    · rw [State.completeEdit_accepts active formed fits calm, State.acceptEdit_eq, State.reviewPlan_flag _ c (by decide)]
      rfl
    · rw [State.completeEdit_refuses active formed (Or.inr fits)]
      have refused := State.refuseEdit_refused active (s.noSlot op) (s.disturbs c page op x)
      rw [refused.editLocked, calm]
      rfl
  · have calm : s.disturbs c page op x = false := Bool.eq_false_iff.mpr fun h => still (disturbs.mp h)
    have pages := s.acceptEdit_pages c page x
    rw [State.completeEdit_accepts active formed fits calm]
    refine ⟨pages, ?_, ?_⟩
    · rw [State.acceptEdit_eq, State.reviewPlan_flag _ c (by decide)]
      rfl
    · rw [State.acceptEdit_eq]
      exact State.reviewPlan_replanned

/-- R61, R62 in MAIN. -/
structure AppliedInMain (s t : State) (c : Channel) (page : Page) (op : EditOp) (x : Edited) : Prop where
  fits : fitsIn s op x → (t.pages c).active = some (x.page page) ∧ t.sli = s.sli
  out : ¬ fitsIn s op x → (t.pages c).active = some { page with diverged := true } ∧ t.channelFlag .diverged c = true
    ∧ (op.takesSlot = true → 6144 ≤ s.slotsUsed → t.deviceFlag .poolFull = true)
  next : (t.pages c).next = (s.pages c).next

theorem completeEdit_main (main : s.isMain c = true) (active : (s.pages c).active = some page) (edit : EditOf s.live.format page op x) :
    AppliedInMain s (s.completeEdit c op) c page op x ∧ OnlyChanges (editedParts c) s (s.completeEdit c op) := by
  have formed := formEdited_of edit
  have calm := State.disturbs_main main page op x
  have other : ∀ a, (s.putPages c ⟨some (x.page page), (s.pages c).next⟩).authority c ≠ .standby a := fun a record => by
    rw [State.isMain, show s.authority c = .standby a from record] at main
    cases main
  by_cases fits : fitsIn s op x
  · rw [State.completeEdit_accepts active formed fits calm, State.acceptEdit_eq, State.reviewPlan_off other]
    have put := (s.pages_putPages c c ⟨some (x.page page), (s.pages c).next⟩).trans (if_pos rfl)
    exact ⟨⟨fun _ => ⟨congrArg Pages.active put, rfl⟩, fun out => absurd fits out, by rw [put]⟩,
      (s.putPages_acts c _).only.mono (by simp [editedParts])⟩
  · rw [State.completeEdit_refuses active formed (Or.inr fits)]
    have refused := State.refuseEdit_refused active (s.noSlot op) (s.disturbs c page op x)
    exact ⟨⟨fun h => absurd h fits, fun _ => ⟨congrArg Pages.active refused.pages, refused.diverged,
      fun takes full => refused.poolFull (State.noSlot_iff.mpr ⟨takes, full⟩)⟩, by rw [refused.pages]⟩, refused.only⟩

end

/-! ## EDIT as a frame and EDIT_COMPLETE -/

theorem editCommand_eq (c : Channel) (seq : SeqNo) (op : EditOp) : (FeedFrame.replication c seq (.edit op)).kind.command = editCommand op := by
  cases op <;> rfl

theorem exec_edit {s : State} {p : FeedPort} {n : LocalFrame} {c : Channel} {seq : SeqNo} {op : EditOp}
    (take : takesNext s p ⟨n, .replication c seq (.edit op)⟩) (accepted : acceptedNumber s c seq) :
    exec (editCommand op) s = .next ((s.received p c seq).takeEditOp c op) := by
  rw [← editCommand_eq c seq op]
  exact exec_replication take accepted

theorem exec_editComplete {s : State} {c : Channel} {op : EditOp} (running : s.power = .running) (engine : s.sst.engine = .editing c op 0) :
    exec .editComplete s = .next ((s.completeEdit c op).setEngine .idle) := by
  show execEditComplete s = _
  refine whenRunning_next running ?_
  rw [engine]

theorem State.setEngine_keeps (s : State) (e : Engine) : (s.setEngine e).sst.pages = s.sst.pages ∧ (s.setEngine e).sli = s.sli
    ∧ (s.setEngine e).aut = s.aut ∧ (s.setEngine e).cus = s.cus ∧ (s.setEngine e).xps = s.xps ∧ (s.setEngine e).live = s.live :=
  ⟨rfl, rfl, rfl, rfl, rfl, rfl⟩

/-- The end of the engine's work leaves what an edit has done. -/
theorem completedOffMain_setEngine {s t : State} {c : Channel} {page : Page} {op : EditOp} {x : Edited} (h : completedOffMain s t c page op x)
    (e : Engine) : completedOffMain s (t.setEngine e) c page op x := h

theorem AppliedInMain.setEngine {s t : State} {c : Channel} {page : Page} {op : EditOp} {x : Edited} (h : AppliedInMain s t c page op x)
    (e : Engine) : AppliedInMain s (t.setEngine e) c page op x :=
  ⟨h.fits, h.out, h.next⟩

theorem engine_of_received {ps : List Part} {s t : State} {p : FeedPort} {c : Channel} {seq : SeqNo} (h : OnlyChanges ps (s.received p c seq) t)
    (free : Part.engine ∉ ps) : t.sst.engine = s.sst.engine := (Prod.mk.inj (h .engine free)).1

/-- A longer edit occupies the engine (R64). -/
theorem takeEdit_long {s : State} {p : FeedPort} {c : Channel} {seq : SeqNo} {op : EditOp} {n : Nat}
    (count : (s.received p c seq).editCount c op = n) (long : 256 < n) :
    ((s.received p c seq).takeEditOp c op).sst.engine = .editing c op ((n + 255) / 256 - 1)
      ∧ OnlyChanges [.intake, .baseline c, .engine, .reports] s ((s.received p c seq).takeEditOp c op) := by
  subst count
  rw [State.takeEditOp_long long]
  exact ⟨rfl, (State.setEngine_acts _ _).only.of_received⟩

/-- R62: an edit that cannot be formed only marks the page, where there is one. -/
theorem takeEdit_diverges {s : State} {p : FeedPort} {c : Channel} {seq : SeqNo} {op : EditOp}
    (unformed : (s.received p c seq).completeEdit c op = (s.received p c seq).diverge c) (count : (s.received p c seq).editCount c op = 0) :
    (s.received p c seq).takeEditOp c op = (s.received p c seq).diverge c := by
  rw [State.takeEditOp_short (by rw [count]; exact Nat.zero_le _), unformed]

theorem edited_free_intake (c : Channel) : Part.intake ∉ editedCueParts c ∧ Part.baseline c ∉ editedCueParts c ∧ Part.engine ∉ editedCueParts c := by
  simp [editedCueParts, deviceFlagParts, cueParts, planParts, flagParts]

theorem received_of_edit {s t : State} {p : FeedPort} {c : Channel} {seq : SeqNo} (h : OnlyChanges (editedCueParts c) (s.received p c seq) t) :
    frameTaken s t p ∧ t.rpe.baseline[c] = some seq :=
  ⟨frameTaken_of_received h (edited_free_intake c).1, baseline_of_received h (edited_free_intake c).2.1⟩

/-- Settles O34, by MAIN or off it, by how long the edit is, and by whether it can be formed. -/
theorem editsApplyOrDiverge : Obligations.EditsApplyOrDiverge := by
  refine ⟨fun s c page op x main active edit => ?_, fun s c op p n seq take accepted => ⟨fun none => ?_, fun page active refused => ?_⟩,
    fun s c page op x off active edit => ?_⟩
  · refine ⟨fun p n seq take accepted => ?_, fun running engine => ?_⟩
    · have run := exec_edit take accepted
      have count : (s.received p c seq).editCount c op = x.count :=
        State.editCount_formed (s := s.received p c seq) active (formEdited_of edit)
      have whole := ((s.received p c seq).takeEditOp_acts c op).only
      refine ⟨_, run, frameTaken_of_received whole (by simp [editParts, deviceFlagParts, cueParts, planParts, flagParts]),
        baseline_of_received whole (by simp [editParts, deviceFlagParts, cueParts, planParts, flagParts]), fun short => ?_, takeEdit_long count⟩
      obtain ⟨applied, only⟩ := completeEdit_main (s := s.received p c seq) main active edit
      have engine := engine_of_received (only.mono (edited_sub_cue c)) (edited_free_intake c).2.2
      rw [State.takeEditOp_short (by rw [count]; exact short)]
      exact ⟨⟨applied.fits, applied.out, applied.next⟩, engine.trans take.2.1, only.of_received⟩
    · obtain ⟨applied, only⟩ := completeEdit_main main active edit
      have after := applied.setEngine .idle
      refine ⟨_, exec_editComplete running engine, ⟨after.fits, after.out, after.next⟩, rfl, ?_⟩
      refine OnlyChanges.trans (only.mono fun q hq => ?_) ((State.setEngine_acts _ _).only.mono (by intro q hq; simp at hq ⊢; tauto))
      simp [editedParts] at hq ⊢
      tauto
  · have run := exec_edit take accepted
    rw [takeEdit_diverges (State.completeEdit_empty (s := s.received p c seq) none)
      (show State.editCount (s.received p c seq) c op = 0 by unfold State.editCount; rw [show ((s.received p c seq).pages c).active = _ from none])] at run
    have only := (s.received p c seq).diverge_only c
    have marked : ((s.received p c seq).diverge c).pages c = s.pages c := by
      refine ((s.received p c seq).pages_putActive c c _).trans ((if_pos rfl).trans ?_)
      rw [show ((s.received p c seq).pages c).active = _ from none]
      show (⟨Option.none, (s.pages c).next⟩ : Pages) = s.pages c
      rw [← none]
    have flags : OnlyChanges (flagParts c) (s.received p c seq) ((s.received p c seq).diverge c) := fun q hq => by
      by_cases own : q = .pages c
      · subst own; exact marked
      · exact only q (by simp [own, hq])
    exact ⟨_, run, frameTaken_of_received flags (by simp [flagParts]), baseline_of_received flags (by simp [flagParts]), marked,
      (State.diverge_flag _ c .diverged).trans (if_pos rfl), flags.of_received⟩
  · have run := exec_edit take accepted
    have unformed := formEdited_none refused
    rw [takeEdit_diverges (State.completeEdit_unformed (s := s.received p c seq) active unformed)
      (show State.editCount (s.received p c seq) c op = 0 by
        unfold State.editCount
        rw [show ((s.received p c seq).pages c).active = _ from active]
        dsimp only
        rw [show formEdited (s.received p c seq).live.format page op = none from unformed]
        rfl)] at run
    have only := (s.received p c seq).diverge_only c
    exact ⟨_, run, frameTaken_of_received only (by simp [flagParts]), baseline_of_received only (by simp [flagParts]),
      State.diverge_pages (s := s.received p c seq) active, (State.diverge_flag _ c .diverged).trans (if_pos rfl), only.of_received⟩
  · refine ⟨fun p n seq take accepted => ?_, fun running engine => ?_⟩
    · have run := exec_edit take accepted
      have count : (s.received p c seq).editCount c op = x.count :=
        State.editCount_formed (s := s.received p c seq) active (formEdited_of edit)
      have whole := ((s.received p c seq).takeEditOp_acts c op).only
      refine ⟨_, run, frameTaken_of_received whole (by simp [editParts, deviceFlagParts, cueParts, planParts, flagParts]),
        baseline_of_received whole (by simp [editParts, deviceFlagParts, cueParts, planParts, flagParts]), fun short => ?_, takeEdit_long count⟩
      have completed := completeEdit_offMain (s := s.received p c seq) off active edit
      have only := (s.received p c seq).completeEdit_only c op
      have engine := engine_of_received only (edited_free_intake c).2.2
      rw [State.takeEditOp_short (by rw [count]; exact short)]
      exact ⟨completed, engine.trans take.2.1, only.of_received⟩
    · have completed := completeEdit_offMain off active edit
      refine ⟨_, exec_editComplete running engine, completedOffMain_setEngine completed .idle, rfl, ?_⟩
      refine OnlyChanges.trans ((s.completeEdit_only c op).mono fun q hq => ?_)
        ((State.setEngine_acts _ _).only.mono (by intro q hq; simp at hq ⊢; tauto))
      simp [editedCueParts] at hq ⊢
      tauto

end Sys2Proof.Machine

namespace Sys2Proof.Machine

/-! # The transmit side of a site port (R165, R176, R177) -/

theorem exec_answerTransmitBegin {s : State} {p : SitePort} {a : Answer} {rest : List Answer} (running : s.power = .running)
    (free : (s.site p).sending = none) (answers : (s.site p).answers = a :: rest) :
    exec (.answerTransmitBegin p) s = .next (s.putSite p { s.site p with sending := some (.answer a), answers := rest }) := by
  show execAnswerTransmitBegin p s = _
  refine whenRunning_next running ?_
  dsimp only
  rw [free, answers]

theorem exec_siteTransmitEnd {s : State} {p : SitePort} (running : s.power = .running) :
    exec (.siteTransmitEnd p) s = .next (s.putSite p { s.site p with sending := none }) := by
  show execSiteTransmitEnd p s = _
  exact whenRunning_next running rfl

theorem SitePortState.noticeReady_iff {k : SitePortState} :
    k.noticeReady = true ↔ k.sending = none ∧ k.answers = [] ∧ k.live = true ∧ k.pairs ≠ [] := by
  simp [SitePortState.noticeReady, and_assoc]

theorem exec_noticeTransmitBegin {s : State} {p : SitePort} {q : PendingPair} (running : s.power = .running)
    (first : firstPair (s.site p).pairs = some q) (ready : (s.site p).noticeReady = true) :
    exec (.noticeTransmitBegin p) s = .next (s.putSite p
      { s.site p with sending := some (.notice (s.formNotice q)), pairs := (s.site p).pairs.filter fun x => !q.sameFlag x }) := by
  show execNoticeTransmitBegin p s = _
  refine whenRunning_next running ?_
  dsimp only
  rw [first]
  exact if_pos ready

theorem exec_noticeTransmitBegin_waits {s : State} {p : SitePort} (running : s.power = .running) (waits : (s.site p).noticeReady = false) :
    exec (.noticeTransmitBegin p) s = .next s := by
  show execNoticeTransmitBegin p s = _
  refine whenRunning_next running ?_
  dsimp only
  rw [waits]
  split <;> rfl

/-- R177: the pair that is sent is the first URGENT one, or else the first. -/
theorem firstPair_eq {pre post : List PendingPair} {q : PendingPair}
    (first : q.urgent = true ∧ (∀ x ∈ pre, x.urgent = false) ∨ pre = [] ∧ ∀ x ∈ q :: post, x.urgent = false) :
    firstPair (pre ++ q :: post) = some q := by
  rw [firstPair]
  rcases first with ⟨urgent, none⟩ | ⟨rfl, none⟩
  · rw [List.find?_append, List.find?_eq_none.mpr fun x hx => by rw [none x hx]; decide, Option.none_or, List.find?_cons_of_pos urgent]
    rfl
  · rw [List.nil_append, List.find?_eq_none.mpr fun x hx => by rw [none x hx]; decide]
    rfl

theorem deviceFlagOf_kind (k : DeviceFlag) : deviceFlagOf k.kind = some k := by
  cases k <;> first | rfl | (next p => cases p <;> rfl)

theorem channelFlagOf_kind (k : ChannelFlag) : channelFlagOf k.kind = some k := by cases k <;> rfl

theorem PendingPair.sameFlag_comm (x y : PendingPair) : x.sameFlag y = (y.kind == x.kind && y.channel == x.channel) := by
  rw [PendingPair.sameFlag, BEq.comm (a := x.kind), BEq.comm (a := x.channel)]

theorem Health.code_eq (h : Health) : h.code = healthCode h := by cases h <;> rfl

theorem AuthorityName.code_eq (a : AuthorityName) : a.code = authorityCode a := by cases a <;> rfl

/-- Settles O50, by what the port has to send. -/
theorem transmitSideSendsAnswersFirst : Obligations.TransmitSideSendsAnswersFirst := by
  refine fun s p running => ⟨fun a rest free answers => ?_, fun pre post q free answers live pairs first => ?_, fun silent => ?_, fun busy => ?_⟩
  · refine ⟨_, exec_answerTransmitBegin running free answers, ?_, ?_, (s.putSite_acts_port p _ (by rfl)).only, ?_⟩
    · rw [State.site_putSite, if_pos rfl]
    · rw [State.site_putSite, if_neg (Side.other_ne p)]
    · refine exec_noticeTransmitBegin_waits running (Bool.eq_false_iff.mpr fun ready => ?_)
      rw [(SitePortState.noticeReady_iff.mp ready).2.1] at answers
      cases answers
  · have chosen : firstPair (s.site p).pairs = some q := by rw [pairs, firstPair_eq first]
    have ready : (s.site p).noticeReady = true := SitePortState.noticeReady_iff.mpr ⟨free, answers, live, by rw [pairs]; simp⟩
    have own := (s.site_putSite p p { s.site p with
      sending := some (.notice (s.formNotice q)), pairs := (s.site p).pairs.filter fun x => !q.sameFlag x }).trans (if_pos rfl)
    refine ⟨_, s.formNotice q, exec_noticeTransmitBegin running chosen ready, by rw [own], rfl, rfl, fun k kind channel => ?_,
      fun k c kind channel => ?_, rfl, fun c kind channel => ?_, fun c kind channel => ?_, fun other => ?_, ?_, by rw [own]; rfl, ?_,
      (s.putSite_acts p _).only⟩
    · show s.flagOf q.kind q.channel = _
      unfold State.flagOf
      rw [channel, kind]
      dsimp only
      rw [deviceFlagOf_kind]
      rfl
    · show s.flagOf q.kind q.channel = _
      unfold State.flagOf
      rw [channel, kind]
      dsimp only
      rw [channelFlagOf_kind]
      rfl
    · show s.noticeDetail q.kind q.channel = _
      unfold State.noticeDetail
      rw [channel, kind]
      exact Health.code_eq _
    · show s.noticeDetail q.kind q.channel = _
      unfold State.noticeDetail
      rw [channel, kind]
      exact AuthorityName.code_eq _
    · show s.noticeDetail q.kind q.channel = _
      rcases other with none | ⟨health, authority⟩
      · unfold State.noticeDetail
        rw [none]
      · unfold State.noticeDetail
        split
        · rfl
        · exact (if_neg health).trans (if_neg authority)
    · rw [own]
      exact congrArg (fun f => (s.site p).pairs.filter f) (funext fun x => congrArg not (q.sameFlag_comm x))
    · rw [State.site_putSite, if_neg (Side.other_ne p)]
  · exact exec_noticeTransmitBegin_waits running (Bool.eq_false_iff.mpr fun ready => by
      rw [(SitePortState.noticeReady_iff.mp ready).2.2.1] at silent
      cases silent)
  · refine ⟨_, exec_siteTransmitEnd running, ?_, ?_, (s.putSite_acts_port p _ (by rfl)).only⟩
    · rw [State.site_putSite, if_pos rfl]
    · rw [State.site_putSite, if_neg (Side.other_ne p)]

/-! # What the setting of a flag offers (R175, R176) -/

theorem mem_insertPair {p q : PendingPair} {xs : List PendingPair} : q ∈ insertPair p xs ↔ q = p ∨ q ∈ xs := by
  induction xs with
  | nil => simp [insertPair]
  | cons x xs ih =>
    unfold insertPair
    split
    · simp
    · simp only [List.mem_cons, ih]
      tauto

theorem length_insertPair (p : PendingPair) (xs : List PendingPair) : (insertPair p xs).length = xs.length + 1 := by
  induction xs with
  | nil => rfl
  | cons x xs ih =>
    unfold insertPair
    split
    · rfl
    · simp [ih]

theorem offer_joins {k : SitePortState} {q : PendingPair} (masked : k.mask.getLsbD q.kind = true)
    (fresh : ∀ x ∈ k.pairs, q.sameFlag x = false) : k.offer q true = { k with pairs := insertPair q k.pairs } := by
  have none : k.pairs.any q.sameFlag = false := by
    rw [List.any_eq_false]
    exact fun x hx => by rw [fresh x hx]; decide
  have held : kindIn k.mask q.kind = true := masked
  simp [SitePortState.offer, none, held]

/-- A setting that does not join the set at most promotes the pair that is there. -/
theorem offer_stays {k : SitePortState} {q : PendingPair} {rising : Bool}
    (out : rising = false ∨ k.mask.getLsbD q.kind = false ∨ ∃ x ∈ k.pairs, q.sameFlag x = true) :
    k.offer q rising = { k with pairs := k.pairs.map fun x => if q.urgent = true ∧ q.sameFlag x = true then { x with urgent := true } else x } := by
  have same (h : ∀ x ∈ k.pairs, ¬(q.urgent = true ∧ q.sameFlag x = true)) :
      k.pairs.map (fun x => if q.urgent = true ∧ q.sameFlag x = true then { x with urgent := true } else x) = k.pairs := by
    refine (List.map_congr_left fun x hx => if_neg (h x hx)).trans (List.map_id _)
  unfold SitePortState.offer
  split
  · next held =>
    split
    · next urgent => simp only [urgent, true_and]
    · next routine =>
      rw [same fun x _ both => routine both.1]
  · next fresh =>
    have none : ∀ x ∈ k.pairs, ¬(q.urgent = true ∧ q.sameFlag x = true) := fun x hx both =>
      fresh (List.any_eq_true.mpr ⟨x, hx, both.2⟩)
    rw [same none]
    split
    · next joins =>
      rw [Bool.and_eq_true] at joins
      rcases out with falling | unmasked | ⟨x, hx, held⟩
      · rw [falling] at joins; cases joins.1
      · rw [show kindIn k.mask q.kind = false from unmasked] at joins; cases joins.2
      · exact absurd (List.any_eq_true.mpr ⟨x, hx, held⟩) fresh
    · rfl

/-- R175, R176 for a state in which the port has been offered the pair. -/
theorem offered_of_offer {s t : State} {p : SitePort} {q : PendingPair} {set : Bool} (site : t.site p = (s.site p).offer q (!set)) :
    offered s t p q set := by
  refine ⟨fun unset masked fresh => ?_, fun out => ?_, ?_⟩
  · rw [site, unset, Bool.not_false, offer_joins masked fresh]
    exact ⟨length_insertPair _ _, mem_insertPair.mpr (Or.inl rfl), fun x hx => mem_insertPair.mpr (Or.inr hx)⟩
  · rw [site, offer_stays (out.imp_left fun set => by rw [set]; rfl)]
  · rw [site]
    unfold SitePortState.offer
    split
    · split <;> rfl
    · split <;> rfl

theorem State.site_raiseClassed (s : State) (k : ChannelFlag) (c : Channel) (u : Bool) (p : SitePort) :
    (s.raiseClassed k c u).site p = (s.site p).offer ⟨k.kind, some c, u⟩ (!s.channelFlag k c) := by
  cases p <;> rfl

theorem State.site_raiseDevice (s : State) (k : DeviceFlag) (p : SitePort) :
    (s.raiseDevice k).site p = (s.site p).offer ⟨k.kind, none, k.urgent⟩ (!s.deviceFlag k) := by
  cases p <;> rfl

/-- Settles O51: the flag is set, no other is, and each port is offered the pair. -/
theorem risingFlagsOfferNotices : Obligations.RisingFlagsOfferNotices := by
  refine ⟨fun s k c u p => ⟨?_, fun j d other => ?_, offered_of_offer (s.site_raiseClassed k c u p), (s.raiseClassed_acts k c u).only⟩,
    fun s k p => ⟨?_, fun j other => ?_, offered_of_offer (s.site_raiseDevice k p), (s.raiseDevice_acts k).only⟩⟩
  · rw [State.channelFlag_raiseClassed, if_pos ⟨rfl, rfl⟩]
  · exact (s.channelFlag_raiseClassed k j c d u).trans (if_neg fun same => other.elim (fun h => h same.1) fun h => h same.2)
  · rw [State.deviceFlag_raiseDevice, if_pos rfl]
  · exact (s.deviceFlag_raiseDevice k j).trans (if_neg other)

end Sys2Proof.Machine

namespace Sys2Proof.Machine

/-! # What the clearing of a flag leaves (R173) -/

theorem State.deviceFlag_clearDevice (s : State) (k j : DeviceFlag) :
    (s.clearDevice k).deviceFlag j = if j = k then false else s.deviceFlag j := by
  show (s.sli.device.set k.place.val false k.place.isLt)[j.place] = _
  split
  · next e => rw [e]; simp
  · next e =>
    have apart : k.place.val ≠ j.place.val := fun h => e (DeviceFlag.place_injective (Fin.ext h)).symm
    simp [apart, State.deviceFlag]

theorem State.channelFlag_clearFlag (s : State) (k j : ChannelFlag) (c d : Channel) :
    (s.clearFlag k c).channelFlag j d = if j = k ∧ d = c then false else s.channelFlag j d := by
  show (PerChannel.put s.sli.channel c ((s.sli.channel[c]).set k.place.val false k.place.isLt))[d][j.place] = _
  rw [PerChannel.get_put]
  by_cases hd : d = c
  · subst hd
    by_cases hj : j = k
    · subst hj; simp
    · have apart : k.place.val ≠ j.place.val := fun h => hj (ChannelFlag.place_injective (Fin.ext h)).symm
      simp [hj, apart, State.channelFlag]
  · simp [hd, State.channelFlag]

theorem State.deviceFlag_clearAllFlags (s : State) (k : DeviceFlag) : s.clearAllFlags.deviceFlag k = false := by
  show (Vector.replicate 15 false)[k.place] = false
  simp

theorem State.channelFlag_clearAllFlags (s : State) (k : ChannelFlag) (c : Channel) : s.clearAllFlags.channelFlag k c = false := by
  show (PerChannel.same (Vector.replicate 14 false))[c][k.place] = false
  simp [PerChannel.same]

/-! ## The clearing of a flag of every channel -/

theorem State.foldl_clearFlag (k : ChannelFlag) (ds : List Channel) (s : State) :
    (∀ j, (ds.foldl (fun t d => t.clearFlag k d) s).deviceFlag j = s.deviceFlag j)
    ∧ ∀ j c, (ds.foldl (fun t d => t.clearFlag k d) s).channelFlag j c = true ↔ s.channelFlag j c = true ∧ ¬(j = k ∧ c ∈ ds) := by
  induction ds generalizing s with
  | nil => simp
  | cons d ds ih =>
    obtain ⟨device, channel⟩ := ih (s.clearFlag k d)
    refine ⟨device, fun j c => ?_⟩
    rw [List.foldl_cons, channel, State.channelFlag_clearFlag]
    split
    · next h => simp [h.1, h.2]
    · next h =>
      simp only [List.mem_cons]
      tauto

/-! ## A name, and a list of names -/

theorem deviceFlagOf_iff {n : Nat} {k : DeviceFlag} : deviceFlagOf n = some k ↔ k.kind = n :=
  ⟨fun h => by simpa using List.find?_some h, fun h => h ▸ deviceFlagOf_kind k⟩

theorem channelFlagOf_iff {n : Nat} {k : ChannelFlag} : channelFlagOf n = some k ↔ k.kind = n :=
  ⟨fun h => by simpa using List.find?_some h, fun h => h ▸ channelFlagOf_kind k⟩

theorem DeviceFlag.kind_le (k : DeviceFlag) : k.kind ≤ 15 := by
  cases k with
  | feedSilent p => cases p <;> decide
  | feedOverrun p => cases p <;> decide
  | feedCheck p => cases p <;> decide
  | siteSilent p => cases p <;> decide
  | _ => decide

theorem ChannelFlag.kind_bounds (k : ChannelFlag) : 16 ≤ k.kind ∧ k.kind ≤ 29 := by
  cases k <;> decide

/-- A name of CLEAR FLAGS names a flag of a channel: its kind, and the channel or ALL-CHANNELS. -/
def namesFlag (n : FlagName) (k : ChannelFlag) (c : Channel) : Prop :=
  n.kind.toNat = k.kind ∧ (n.channel = 0xFE ∨ n.channel.toNat = c.val)

theorem State.clearName_device {s : State} {n : FlagName} (k : DeviceFlag) :
    (s.clearName n).deviceFlag k = true ↔ s.deviceFlag k = true ∧ n.kind.toNat ≠ k.kind := by
  unfold State.clearName
  split
  · next j named =>
    rw [deviceFlagOf_iff] at named
    rw [State.deviceFlag_clearDevice, ← named]
    split
    · next same => simp [same]
    · next other =>
      have apart : j.kind ≠ k.kind := fun h => other (Option.some.inj ((deviceFlagOf_kind k).symm.trans (h ▸ deviceFlagOf_kind j)))
      simp [apart]
  · next j unnamed _ =>
    have apart : n.kind.toNat ≠ k.kind := fun h => by rw [deviceFlagOf_iff.mpr h.symm] at unnamed; cases unnamed
    split
    · simp only [ne_eq, apart, not_false_eq_true, and_true]
      rfl
    · rw [State.eachChannel, (State.foldl_clearFlag _ _ _).1]
      simp [apart]
  · next unnamed _ =>
    have apart : n.kind.toNat ≠ k.kind := fun h => by rw [deviceFlagOf_iff.mpr h.symm] at unnamed; cases unnamed
    simp [apart]

theorem channelOf_of_lt {b : Byte} {c : Channel} (h : b.toNat = c.val) : channelOf b = some c := by
  have lt : b.toNat < 12 := h ▸ c.isLt
  exact (dif_pos lt).trans (congrArg some (Fin.ext h))

theorem State.clearName_channel {s : State} {n : FlagName} (legal : legalName n) (k : ChannelFlag) (c : Channel) :
    (s.clearName n).channelFlag k c = true ↔ s.channelFlag k c = true ∧ ¬ namesFlag n k c := by
  have bounds := k.kind_bounds
  unfold State.clearName
  split
  · next j named =>
    have low := j.kind_le
    rw [deviceFlagOf_iff] at named
    have apart : ¬ namesFlag n k c := fun h => by have := h.1; omega
    simp only [apart, not_false_eq_true, and_true]
    rfl
  · next j unnamed named =>
    rw [channelFlagOf_iff] at named
    have same : n.kind.toNat = k.kind ↔ k = j := by
      rw [← named]
      exact ⟨fun h => Option.some.inj ((channelFlagOf_kind k).symm.trans (h ▸ channelFlagOf_kind j)), fun h => h ▸ rfl⟩
    split
    · next d at_ =>
      have place : n.channel.toNat = d.val := by
        unfold channelOf at at_
        split at at_
        · exact congrArg Fin.val (Option.some.inj at_)
        · cases at_
      have named : n.channel ≠ 0xFE := fun h => by have := d.isLt; rw [h] at place; simp at place; omega
      rw [State.channelFlag_clearFlag, namesFlag, same, place]
      simp only [named, false_or, ← Fin.ext_iff]
      split
      · next h => simp [h.1, h.2]
      · next h => simp only [eq_comm (a := d), h, not_false_eq_true, and_true]
    · next out =>
      have all : n.channel = 0xFE := by
        rcases legal with ⟨_, low, _⟩ | ⟨_, _, all | low⟩
        · have := j.kind_bounds
          omega
        · exact all
        · rw [channelOf_of_lt (c := ⟨n.channel.toNat, by omega⟩) rfl] at out
          cases out
      rw [State.eachChannel, (State.foldl_clearFlag _ _ _).2, namesFlag, same]
      simp [all, mem_channels]
  · next unnamed =>
    have apart : ¬ namesFlag n k c := fun h => by rw [channelFlagOf_iff.mpr h.1.symm] at unnamed; cases unnamed
    simp [apart]

theorem State.foldl_clearName (xs : List FlagName) (legal : ∀ n ∈ xs, legalName n) (s : State) :
    (∀ k, (xs.foldl State.clearName s).deviceFlag k = true ↔ s.deviceFlag k = true ∧ ∀ n ∈ xs, n.kind.toNat ≠ k.kind)
    ∧ ∀ k c, (xs.foldl State.clearName s).channelFlag k c = true ↔ s.channelFlag k c = true ∧ ∀ n ∈ xs, ¬ namesFlag n k c := by
  induction xs generalizing s with
  | nil => simp
  | cons n xs ih =>
    obtain ⟨device, channel⟩ := ih (fun m hm => legal m (List.mem_cons_of_mem _ hm)) (s.clearName n)
    have first := legal n List.mem_cons_self
    refine ⟨fun k => ?_, fun k c => ?_⟩
    · rw [List.foldl_cons, device, State.clearName_device, List.forall_mem_cons, and_assoc]
    · rw [List.foldl_cons, channel, State.clearName_channel first, List.forall_mem_cons, and_assoc]

/-! ## Why a name is refused -/

theorem nameFault_eq (n : FlagName) : nameFault n =
    if n.kind.toNat = 0 ∨ 29 < n.kind.toNat then some .badValue
    else if n.kind.toNat ≤ 15 then (if n.channel.toNat = 255 then none else some .badValue)
    else if n.channel.toNat = 255 then some .badValue
    else if n.channel.toNat = 254 ∨ n.channel.toNat ≤ 11 then none
    else some .noChannel := by
  unfold nameFault
  simp only [Bool.or_eq_true, decide_eq_true_eq, BitVec.lt_def, BitVec.le_def, ← BitVec.toNat_inj, BitVec.reduceToNat]

theorem nameFault_iff {n : FlagName} : nameFault n = none ↔ legalName n := by
  rw [nameFault_eq]
  unfold legalName
  simp only [← BitVec.toNat_inj, BitVec.reduceToNat]
  split_ifs <;> simp only [false_iff, true_iff] <;> omega

theorem nameFault_badValue {n : FlagName}
    (h : n.kind = 0 ∨ 29 < n.kind.toNat ∨ n.kind.toNat ≤ 15 ∧ n.channel ≠ 0xFF ∨ 16 ≤ n.kind.toNat ∧ n.channel = 0xFF) :
    nameFault n = some .badValue := by
  rw [nameFault_eq]
  simp only [← BitVec.toNat_inj, BitVec.reduceToNat, ne_eq] at h
  by_cases out : n.kind.toNat = 0 ∨ 29 < n.kind.toNat
  · exact if_pos out
  · rw [if_neg out]
    by_cases device : n.kind.toNat ≤ 15
    · rw [if_pos device, if_neg (by omega)]
    · rw [if_neg device, if_pos (by omega)]

theorem nameFault_noChannel {n : FlagName} (low : 16 ≤ n.kind.toNat) (high : n.kind.toNat ≤ 29) (out : 11 < n.channel.toNat)
    (named : n.channel.toNat < 0xFE) : nameFault n = some .noChannel := by
  rw [nameFault_eq, if_neg (by omega), if_neg (by omega), if_neg (by omega), if_neg (by omega)]

theorem findSome_legal {xs : List FlagName} (legal : ∀ n ∈ xs, legalName n) : xs.findSome? nameFault = none :=
  List.findSome?_eq_none_iff.mpr fun n hn => nameFault_iff.mpr (legal n hn)

/-- The first name that is not legal decides how the request is refused. -/
theorem State.clearFlagsRequest_refused (s : State) {pre post : List FlagName} {n : FlagName} {k : AnswerCode}
    (legal : ∀ m ∈ pre, legalName m) (fault : nameFault n = some k) : s.clearFlagsRequest (pre ++ n :: post) = ⟨s, k, []⟩ := by
  have found : (pre ++ n :: post).findSome? nameFault = some k := by
    rw [List.findSome?_append, findSome_legal legal, Option.none_or, List.findSome?_cons, fault]
  unfold State.clearFlagsRequest
  rw [found]
  cases pre <;> rfl

theorem State.clearFlagsRequest_legal (s : State) {xs : List FlagName} (some : xs ≠ []) (legal : ∀ n ∈ xs, legalName n) :
    s.clearFlagsRequest xs = ⟨xs.foldl State.clearName s, .done, []⟩ := by
  unfold State.clearFlagsRequest
  rw [findSome_legal legal]
  cases xs with
  | nil => exact absurd rfl some
  | cons _ _ => rfl

/-! # The masks (R174, R178) -/

theorem kindMaskValid_iff {m : BitVec 32} : kindMaskValid m = true ↔ m &&& 0xC0000001 = 0 := by
  simp [kindMaskValid]

theorem codeOk_iff {v : Option Byte} : codeOk v = true ↔ ∀ b, v = some b → b.toNat ≤ 1 := by
  cases v <;> simp [codeOk, BitVec.le_def]

theorem State.putAlarm_live (s : State) (x : AlarmMaskFields) : (s.putAlarm x).live = { s.live with
    alarmMask := x.mask, almPolarity := (x.polarity.map polarityOf).getD s.live.almPolarity } := rfl

theorem State.queueAnswer_live (s : State) (p : SitePort) (a : Answer) : (s.queueAnswer p a).live = s.live :=
  (s.queueAnswer_acts p a).only .settings (by simp)

theorem State.alarmRequest_legal (s : State) {x : AlarmMaskFields} (free : s.store.save = none) (mask : x.mask &&& 0xC0000001 = 0)
    (polarity : ∀ b, x.polarity = some b → b.toNat ≤ 1) :
    s.alarmMaskRequest x = ⟨s.putAlarm x, .done, (s.putAlarm x).alarmBytes⟩ := by
  unfold State.alarmMaskRequest
  rw [State.saving, free, Option.isSome_none, if_neg Bool.false_ne_true, kindMaskValid_iff.mpr mask, codeOk_iff.mpr polarity]
  rfl

theorem State.alarmRequest_refused (s : State) {x : AlarmMaskFields} (free : s.store.save = none)
    (bad : x.mask &&& 0xC0000001 ≠ 0 ∨ ∃ b, x.polarity = some b ∧ 1 < b.toNat) : s.alarmMaskRequest x = ⟨s, .badValue, []⟩ := by
  unfold State.alarmMaskRequest
  rw [State.saving, free, Option.isSome_none, if_neg Bool.false_ne_true, if_neg]
  · rfl
  · rw [Bool.and_eq_true, kindMaskValid_iff, codeOk_iff]
    rintro ⟨mask, polarity⟩
    rcases bad with out | ⟨b, held, high⟩
    · exact out mask
    · have := polarity b held
      omega

theorem SitePortState.queueAnswer_withMask (s : State) (p : SitePort) (m : BitVec 32) (a : Answer) :
    (((s.validFrame p).putSite p (((s.validFrame p).site p).withMask m)).queueAnswer p a).site p
      = { s.site p with live := true, timer := s.live.siteTimeout, mask := m,
                        pairs := (s.site p).pairs.filter (fun q => m.getLsbD q.kind),
                        answers := (s.site p).answers ++ [a] } := by
  rw [State.queueAnswer, State.site_putSite, if_pos rfl, State.site_putSite, if_pos rfl, State.site_validFrame, if_pos rfl]
  rfl

/-- Settles O52, the three requests by what they clear or replace. -/
theorem flagAndMaskRequestsAct : Obligations.FlagAndMaskRequestsAct := by
  refine fun s p tag take => ⟨?_, fun xs some legal => ?_, fun pre post n legal => ⟨fun bad => ?_, fun low high out named => ?_⟩,
    fun m valid => ?_, fun m invalid => ?_, fun m pol free valid code => ?_, fun m pol free bad => ?_⟩
  · have run : exec (.clearFlags p (.formed tag [])) s = _ :=
      asked_next (tag := tag) (owner := owned (.formed tag []) fun names s => s.clearFlagsRequest names) rfl take rfl
    exact ⟨_, run, answered_of_only (s.validFrame p).clearAllFlags_acts.only (by simp [clearedParts, everyChannel])
      (by simp [clearedParts, everyChannel]) tag 0x34 .done [], fun k => (s.validFrame p).deviceFlag_clearAllFlags k,
      fun k c => (s.validFrame p).channelFlag_clearAllFlags k c, exec_only run⟩
  · have decided := (s.validFrame p).clearFlagsRequest_legal some legal
    have run : exec (.clearFlags p (.formed tag xs)) s = _ :=
      asked_next (tag := tag) (owner := owned (.formed tag xs) fun names s => s.clearFlagsRequest names) rfl take decided
    have only : OnlyChanges clearedParts (s.validFrame p) (xs.foldl State.clearName (s.validFrame p)) :=
      OnlyChanges.foldl (fun t n => t.clearName_only n) _ _
    obtain ⟨device, channel⟩ := State.foldl_clearName xs legal (s.validFrame p)
    exact ⟨_, run, answered_of_only only (by simp [clearedParts, everyChannel]) (by simp [clearedParts, everyChannel]) tag 0x34 .done [],
      device, channel, (exec_only run).mono (List.append_subset.mpr
        ⟨List.append_subset.mpr ⟨by simp, by simp⟩, List.subset_append_right _ _⟩)⟩
  · exact asked_refused (tag := tag) (owner := owned (.formed tag (pre ++ n :: post)) fun names s => s.clearFlagsRequest names) rfl take
      ((s.validFrame p).clearFlagsRequest_refused legal (nameFault_badValue bad))
  · exact asked_refused (tag := tag) (owner := owned (.formed tag (pre ++ n :: post)) fun names s => s.clearFlagsRequest names) rfl take
      ((s.validFrame p).clearFlagsRequest_refused legal (nameFault_noChannel low high out named))
  · have run : exec (.setNoticeMask p (.formed tag m)) s = _ :=
      asked_next (tag := tag) rfl take (if_pos (kindMaskValid_iff.mpr valid))
    refine ⟨_, run, ?_, ?_, (exec_only run).mono (by simp [Instr.reach])⟩
    · refine (SitePortState.queueAnswer_withMask s p m _).trans ?_
      rw [State.maskBytes, State.site_putSite, if_pos rfl]
      rfl
    · rw [State.queueAnswer, State.site_putSite, if_neg (Side.other_ne p), State.site_putSite, if_neg (Side.other_ne p),
        State.site_validFrame, if_neg (Side.other_ne p)]
  · exact asked_refused (tag := tag) rfl take (if_neg fun h => invalid (kindMaskValid_iff.mp h))
  · have decided := (s.validFrame p).alarmRequest_legal (x := ⟨m, pol⟩) free valid code
    have run : exec (.setAlarmMask p (.formed tag ⟨m, pol⟩)) s = _ :=
      asked_next (tag := tag) (owner := owned (.formed tag (AlarmMaskFields.mk m pol)) fun x s => s.alarmMaskRequest x) rfl take decided
    refine ⟨_, run, ?_, ?_, ((State.queueAnswer_acts _ p _).lawful.alarm (State.evalAlarm_alarmLaw _)), (exec_only run).mono (by simp [Instr.reach])⟩
    · have answer := answered_of_only ((s.validFrame p).putAlarm_only ⟨m, pol⟩) (by simp) (by simp) tag 0x36 .done
        ((s.validFrame p).putAlarm ⟨m, pol⟩).alarmBytes
      rw [State.queueAnswer_live]
      refine Eq.mp (congrArg (answered s _ p tag 0x36 .done) ?_) answer
      rw [State.alarmBytes]
      cases ((s.validFrame p).putAlarm ⟨m, pol⟩).live.almPolarity <;> rfl
    · rw [State.queueAnswer_live, State.putAlarm_live]
      cases pol <;> rfl
  · exact asked_refused (tag := tag) (owner := owned (.formed tag (AlarmMaskFields.mk m pol)) fun x s => s.alarmMaskRequest x) rfl take
      ((s.validFrame p).alarmRequest_refused (x := ⟨m, pol⟩) free bad)

end Sys2Proof.Machine

namespace Sys2Proof.Machine

/-! # The resets (R186, R187) -/

theorem lastAckOf_none (t : State) (none : t.xps.lastAck = Vector.replicate 64 none) (n : Nat) : t.lastAckOf n = .none := by
  rw [State.lastAckOf, none, Vector.getElem?_replicate]
  split <;> rfl

/-- Settles O57: every block stands at its reset values, over the settings that `loaded` takes from the banks. -/
theorem resetsReturnEveryBlock : Obligations.ResetsReturnEveryBlock := by
  refine ⟨fun s i reset => ?_, fun s held => ?_⟩
  · obtain ⟨nrst, run⟩ := exec_reset (s := s) reset
    have perChannel {α : Type} (x : α) (c : Channel) : (PerChannel.same x)[c] = x := PerChannel.get_same x c
    refine ⟨_, run, rfl, rfl, rfl, rfl, rfl, rfl, rfl, rfl, rfl, rfl, perChannel _, rfl, rfl, PerSide.get_same _, rfl, perChannel _, rfl,
      PerSide.get_same _, rfl, rfl, perChannel _, perChannel _, rfl, rfl, fun c => ?_, rfl, rfl, lastAckOf_none _ rfl, perChannel _, rfl,
      PerSide.get_same _, fun k => ?_, fun k c => ?_, rfl, rfl, rfl, fun l => ?_, fun c => rfl, rfl, rfl, rfl⟩
    · rw [show (s.heldInReset nrst).cue c = CueChannel.reset from perChannel _ c]
      exact ⟨rfl, rfl, rfl, rfl, rfl⟩
    · show (Vector.replicate 15 false)[k.place] = false
      simp
    · show ((PerChannel.same (Vector.replicate 14 false))[c])[k.place] = false
      rw [perChannel]
      simp
    · cases l <;> rfl
  · show execResetEnd s = _
    rw [execResetEnd, held]
    rfl

/-! # The ranges of the settings (R171, R180, R194) -/

/-- R181, R184: a channel's settings within their ranges. -/
structure ChannelRanges (k : ChannelSettings) : Prop where
  destination : k.destination ≤ 63
  mainSource : k.mainSource ≤ 255
  filler : ∀ x, k.filler = some x → x ≤ 255
  addressA : 1 ≤ k.players.a.address ∧ k.players.a.address ≤ 31
  sourceA : k.players.a.source ≤ 255
  addressB : 1 ≤ k.players.b.address ∧ k.players.b.address ≤ 31
  sourceB : k.players.b.source ≤ 255
  apart : k.players.a.address ≠ k.players.b.address
  cueLead : 2 ≤ k.cueLead ∧ k.cueLead ≤ 250
  minRemain : k.minRemain ≤ 250
  threshold : k.threshold ≤ 65535
  absenceCount : 1 ≤ k.absenceCount ∧ k.absenceCount ≤ 8
  confirm : 25 ≤ k.confirm ∧ k.confirm ≤ 3000

theorem channelSettingsValid_iff {k : ChannelSettings} : channelSettingsValid k = true ↔ ChannelRanges k := by
  have filler : (match k.filler with | none => true | some s => decide (s ≤ 255)) = true ↔ ∀ x, k.filler = some x → x ≤ 255 := by
    cases k.filler <;> simp
  unfold channelSettingsValid
  simp only [Bool.and_eq_true, decide_eq_true_eq, bne_iff_ne]
  constructor
  · rintro ⟨⟨⟨⟨⟨⟨⟨⟨⟨⟨⟨⟨⟨⟨⟨⟨⟨h1, h2⟩, h3⟩, h4⟩, h5⟩, h6⟩, h7⟩, h8⟩, h9⟩, h10⟩, h11⟩, h12⟩, h13⟩, h14⟩, h15⟩, h16⟩, h17⟩, h18⟩
    exact ⟨h1, h2, filler.mp h3, ⟨h4, h5⟩, h6, ⟨h7, h8⟩, h9, h10, ⟨h11, h12⟩, h13, h14, ⟨h15, h16⟩, ⟨h17, h18⟩⟩
  · rintro ⟨h1, h2, h3, ⟨h4, h5⟩, h6, ⟨h7, h8⟩, h9, h10, ⟨h11, h12⟩, h13, h14, ⟨h15, h16⟩, ⟨h17, h18⟩⟩
    exact ⟨⟨⟨⟨⟨⟨⟨⟨⟨⟨⟨⟨⟨⟨⟨⟨⟨h1, h2⟩, filler.mpr h3⟩, h4⟩, h5⟩, h6⟩, h7⟩, h8⟩, h9⟩, h10⟩, h11⟩, h12⟩, h13⟩, h14⟩, h15⟩, h16⟩, h17⟩, h18⟩

/-- R180, R184: the settings within their ranges. -/
structure SettingsRanges (l : Settings) : Prop where
  swFirst : 2 ≤ l.swFirst
  swLast : l.swLast ≤ 20
  window : l.swFirst ≤ l.swLast
  scanResolution : 9 ≤ l.scanResolution ∧ l.scanResolution ≤ 16
  hbTimeout : 10 ≤ l.hbTimeout ∧ l.hbTimeout ≤ 1000
  feedDelay : l.feedDelay ≤ 15
  siteTimeout : 25 ≤ l.siteTimeout ∧ l.siteTimeout ≤ 1500
  replyTimeout : 1 ≤ l.replyTimeout ∧ l.replyTimeout ≤ 8
  alarmMask : l.alarmMask &&& 0xC0000001 = 0
  channel : ∀ c : Channel, ChannelRanges l.channel[c]

theorem PerChannel.all_list {α : Type} {p : α → Bool} {v : PerChannel α} : (PerChannel.list v).all p = true ↔ ∀ c : Channel, p v[c] = true := by
  rw [PerChannel.list, List.all_eq_true]
  constructor
  · intro h c
    exact h _ (Array.mem_toList_iff.mpr (Array.getElem_mem _))
  · intro h x hx
    obtain ⟨i, lt, rfl⟩ := List.getElem_of_mem hx
    have small : i < 12 := by simpa using lt
    simpa using h ⟨i, small⟩

theorem settingsValid_iff {l : Settings} : settingsValid l = true ↔ SettingsRanges l := by
  unfold settingsValid
  simp only [Bool.and_eq_true, decide_eq_true_eq, kindMaskValid_iff, PerChannel.all_list, channelSettingsValid_iff]
  constructor
  · rintro ⟨⟨⟨⟨⟨⟨⟨⟨⟨⟨⟨⟨⟨h1, h2⟩, h3⟩, h4⟩, h5⟩, h6⟩, h7⟩, h8⟩, h9⟩, h10⟩, h11⟩, h12⟩, h13⟩, h14⟩
    exact ⟨h1, h2, h3, ⟨h4, h5⟩, ⟨h6, h7⟩, h8, ⟨h9, h10⟩, ⟨h11, h12⟩, h13, h14⟩
  · rintro ⟨h1, h2, h3, ⟨h4, h5⟩, ⟨h6, h7⟩, h8, ⟨h9, h10⟩, ⟨h11, h12⟩, h13, h14⟩
    exact ⟨⟨⟨⟨⟨⟨⟨⟨⟨⟨⟨⟨⟨h1, h2⟩, h3⟩, h4⟩, h5⟩, h6⟩, h7⟩, h8⟩, h9⟩, h10⟩, h11⟩, h12⟩, h13⟩, h14⟩

/-! ## What is stored is loaded again -/

theorem fillerOf_stored {k : ChannelSettings} (range : ∀ x, k.filler = some x → x ≤ 255) : fillerOf (storeChannel k).filler = k.filler := by
  unfold storeChannel
  cases held : k.filler with
  | none => rfl
  | some x =>
    have small := range x held
    have value : (BitVec.ofNat 16 x).toNat = x := by
      rw [BitVec.toNat_ofNat]
      omega
    have named : BitVec.ofNat 16 x ≠ 0xFFFF := fun h => by
      have : x = 65535 := value.symm.trans (congrArg BitVec.toNat h)
      omega
    dsimp only
    rw [fillerOf, if_neg named, value]

theorem policyOf_code (p : Policy) : policyOf (BitVec.ofNat 8 (Policy.code p)) = p := by cases p <;> rfl

theorem polarityOf_code (p : Polarity) : polarityOf (BitVec.ofNat 8 (Polarity.code p)) = p := by cases p <;> rfl

theorem toNat_ofNat_le {w n k : Nat} (h : n ≤ k) (fits : k < 2 ^ w) : (BitVec.ofNat w n).toNat = n := by
  rw [BitVec.toNat_ofNat, Nat.mod_eq_of_lt (by omega)]

theorem loadChannel_storeChannel {k : ChannelSettings} (r : ChannelRanges k) : loadChannel (storeChannel k) = k := by
  have on : ((if k.enabled then (1 : Byte) else 0) == 1) = k.enabled := by cases k.enabled <;> rfl
  have loaded : loadChannel (storeChannel k) =
      ⟨(if k.enabled then (1 : Byte) else 0) == 1, policyOf (BitVec.ofNat 8 (Policy.code k.policy)), (BitVec.ofNat 8 k.destination).toNat,
        (BitVec.ofNat 16 k.mainSource).toNat, fillerOf (storeChannel k).filler,
        ⟨⟨(BitVec.ofNat 8 k.players.a.address).toNat, (BitVec.ofNat 16 k.players.a.source).toNat⟩,
         ⟨(BitVec.ofNat 8 k.players.b.address).toNat, (BitVec.ofNat 16 k.players.b.source).toNat⟩⟩,
        (BitVec.ofNat 8 k.cueLead).toNat, (BitVec.ofNat 8 k.minRemain).toNat, (BitVec.ofNat 16 k.threshold).toNat,
        (BitVec.ofNat 8 k.absenceCount).toNat, (BitVec.ofNat 16 k.confirm).toNat, polarityOf (BitVec.ofNat 8 (Polarity.code k.tallyPolarity))⟩ :=
    rfl
  rw [loaded, on, policyOf_code, polarityOf_code, fillerOf_stored r.filler, toNat_ofNat_le r.destination (by decide),
    toNat_ofNat_le r.mainSource (by decide), toNat_ofNat_le r.addressA.2 (by decide), toNat_ofNat_le r.sourceA (by decide),
    toNat_ofNat_le r.addressB.2 (by decide), toNat_ofNat_le r.sourceB (by decide), toNat_ofNat_le r.cueLead.2 (by decide),
    toNat_ofNat_le r.minRemain (by decide), toNat_ofNat_le r.threshold (by decide), toNat_ofNat_le r.absenceCount.2 (by decide),
    toNat_ofNat_le r.confirm.2 (by decide)]

theorem PerChannel.build_at {α : Type} (f : Channel → α) (c : Channel) : (PerChannel.build f)[c] = f c := PerChannel.get_build f c

theorem PerChannel.ext {α : Type} {v w : PerChannel α} (same : ∀ c : Channel, v[c] = w[c]) : v = w :=
  Vector.ext fun i h => same ⟨i, h⟩

theorem loadImage_storeImage {l : Settings} (r : SettingsRanges l) : loadImage (storeImage l) = l := by
  have channel : (PerChannel.build fun c => loadChannel (PerChannel.build fun d => storeChannel l.channel[d])[c]) = l.channel :=
    PerChannel.ext fun c => by rw [PerChannel.build_at, PerChannel.build_at, loadChannel_storeChannel (r.channel c)]
  rw [loadImage, storeImage, imageMap, imageMap]
  dsimp only
  rw [channel]

theorem storedCodesValid_storeChannel (k : ChannelSettings) : storedCodesValid (storeChannel k) = true := by
  have on : ((if k.enabled then (1 : Byte) else 0) ≤ 1) := by cases k.enabled <;> decide
  have policy : BitVec.ofNat 8 (Policy.code k.policy) ≤ 2 := by cases k.policy <;> decide
  have level : BitVec.ofNat 8 (Polarity.code k.tallyPolarity) ≤ 1 := by cases k.tallyPolarity <;> decide
  rw [storedCodesValid, Bool.and_eq_true, Bool.and_eq_true]
  exact ⟨⟨decide_eq_true on, decide_eq_true policy⟩, decide_eq_true level⟩

theorem imageValid_storeImage {l : Settings} (r : SettingsRanges l) : imageValid (storeImage l) = true := by
  rw [imageValid, Bool.and_eq_true, PerChannel.all_list, loadImage_storeImage r]
  refine ⟨fun c => ?_, settingsValid_iff.mpr r⟩
  exact (congrArg storedCodesValid (PerChannel.build_at _ c)).trans (storedCodesValid_storeChannel _)

/-! # SAVE (R182, R183) -/

theorem exec_saveComplete {s : State} {j : SaveJob} (running : s.power = .running) (saving : s.store.save = some j) (ended : j.left = 0)
    (r : Option Bank) : exec (.saveComplete r) s = .next { s with store := s.store.completed j r } := by
  show execSaveComplete r s = _
  refine whenRunning_next running ?_
  rw [saving]
  exact if_pos ended

theorem PerSide.get_put_other {α : Type} (v : PerSide α) (p : Side) (x : α) : (v.put p x).get p.other = v.get p.other :=
  PerSide.get_put_ne _ _ _ _ (Side.other_ne p)

theorem State.queueAnswer_store (s : State) (p : SitePort) (a : Answer) : (s.queueAnswer p a).store = s.store :=
  (s.queueAnswer_acts p a).only .store (by simp)

/-- Settles O56: what `saveTarget` names, and what `completed` makes of the read-back. -/
theorem saveWritesTheOtherBank : Obligations.SaveWritesTheOtherBank := by
  refine fun s p tag => ⟨fun take free => ?_, fun j running saving ended => ⟨?_, fun r differs => ?_⟩⟩
  · have decided : (s.validFrame p).saveRequest = ⟨(s.validFrame p).beginSave, .done, []⟩ := by
      unfold State.saveRequest
      rw [show (s.validFrame p).saving = false from congrArg Option.isSome free]
      rfl
    have run : exec (.save p (.formed tag ())) s = _ :=
      asked_next (tag := tag) (owner := owned (.formed tag ()) fun _ s => s.saveRequest) rfl take decided
    have only : OnlyChanges [.store] (s.validFrame p) (s.validFrame p).beginSave := fun q hq => by
      cases q <;> first | rfl | simp at hq
    have target : (s.validFrame p).saveTarget = s.saveTarget := rfl
    refine ⟨_, ⟨s.saveTarget.1, ⟨s.saveTarget.2, storeImage s.live⟩, 50⟩, run,
      answered_of_only only (by simp) (by simp) tag 0x37 .done [], ?_, rfl, rfl, fun legal => ?_, fun none => ?_, fun b k current bank => ?_,
      (exec_only run).mono (by simp [Instr.reach, requestParts])⟩
    · rw [State.queueAnswer_store]
      rfl
    · exact ⟨imageValid_storeImage (settingsValid_iff.mp legal), loadImage_storeImage (settingsValid_iff.mp legal)⟩
    · rw [State.saveTarget, none]
      exact ⟨rfl, rfl⟩
    · rw [State.saveTarget, current]
      dsimp only
      rw [bank]
      exact ⟨rfl, rfl⟩
  · have run := exec_saveComplete running saving ended (some j.content)
    rw [Store.completed, if_pos rfl] at run
    exact ⟨_, run, rfl, PerSide.get_put_self _ _ _, PerSide.get_put_other _ _ _, rfl, rfl, rfl, exec_only run⟩
  · have run := exec_saveComplete running saving ended r
    rw [Store.completed, if_neg differs] at run
    exact ⟨_, run, rfl, rfl, rfl, rfl, PerSide.get_put_other _ _ _, exec_only run⟩

end Sys2Proof.Machine

namespace Sys2Proof.Machine

/-! # FEED ENABLE (R74, R75) -/

theorem State.rxWait_get (s : State) (l : LineId) : (s.rxWait l).rx.get l = .waiting := by
  rw [State.rxWait, RxStages.get_put, if_pos rfl]

/-- R74: the port's setting is made; where it is disabled, its waiting report goes. -/
theorem State.setFeedEnabled_feed (s : State) (q : FeedPort) (on : Bool) :
    (s.setFeedEnabled q on).feed q = { s.feed q with
      enabled := on
      tx := if on = false ∧ (s.feed q).enabled = true then { (s.feed q).tx with waiting := none } else (s.feed q).tx } := by
  unfold State.setFeedEnabled
  by_cases same : (s.feed q).enabled = on
  · rw [if_pos same, ← same, if_neg (by simp +contextual)]
  · rw [if_neg same]
    cases on with
    | true =>
      rw [if_pos rfl, State.rxWait_feed, State.feed_putFeed, if_pos rfl, if_neg (by simp)]
    | false =>
      have enabled : (s.feed q).enabled = true := by simpa using same
      rw [if_neg Bool.false_ne_true, State.feed_putFeed, if_pos rfl, if_pos ⟨rfl, enabled⟩]

theorem State.setFeedEnabled_other (s : State) (q : FeedPort) (on : Bool) : (s.setFeedEnabled q on).feed q.other = s.feed q.other := by
  have others (k : FeedPortState) : (s.putFeed q k).feed q.other = s.feed q.other := by
    rw [State.feed_putFeed, if_neg (Side.other_ne q)]
  unfold State.setFeedEnabled
  dsimp only
  split
  · rfl
  · split
    · exact others _
    · exact others _

theorem State.setFeedEnabled_waits {s : State} {q : FeedPort} (disabled : (s.feed q).enabled = false) :
    (s.setFeedEnabled q true).rx.get (feedLine q) = .waiting := by
  unfold State.setFeedEnabled
  dsimp only
  rw [disabled, if_neg Bool.false_ne_true, if_pos rfl]
  exact State.rxWait_get _ _

/-- R171: FEED ENABLE answers with the port named and the setting that it has now. -/
theorem State.setFeedEnabled_bytes (s : State) (q : FeedPort) (on : Bool) :
    (s.setFeedEnabled q on).enableBytes q = nat8 (sideCode q) ++ flag8 on := by
  rw [State.enableBytes, State.setFeedEnabled_feed]

theorem State.feedEnableRequest_legal (s : State) {q : FeedPort} {pb v : Byte} (port : feedPortOf pb = some q) (code : v.toNat ≤ 1) :
    s.feedEnableRequest ⟨pb, v⟩ = ⟨s.setFeedEnabled q (v == 1), .done, nat8 (sideCode q) ++ flag8 (v == 1)⟩ := by
  unfold State.feedEnableRequest
  rw [port]
  dsimp only
  rw [if_pos (BitVec.le_def.mpr code), s.setFeedEnabled_bytes]
  rfl

theorem State.feedEnableRequest_refused (s : State) {pb v : Byte} (bad : 1 < pb.toNat ∨ 1 < v.toNat) :
    s.feedEnableRequest ⟨pb, v⟩ = ⟨s, .badValue, []⟩ := by
  unfold State.feedEnableRequest
  split
  · next q port =>
    have low : pb.toNat ≤ 1 := by
      unfold feedPortOf at port
      split at port
      · next h => rw [show pb = 0 from h]; decide
      · split at port
        · next h => rw [show pb = 1 from h]; decide
        · cases port
    refine if_neg fun code => ?_
    have small : v.toNat ≤ 1 := BitVec.le_def.mp code
    omega
  · rfl

/-- A byte that holds 0 or 1 is the one or the other. -/
theorem byte_cases {v : Byte} (code : v.toNat ≤ 1) : v = 0 ∨ v = 1 := by
  rcases Nat.le_one_iff_eq_zero_or_eq_one.mp code with h | h
  · exact .inl (BitVec.eq_of_toNat_eq h)
  · exact .inr (BitVec.eq_of_toNat_eq h)

/-! # CLEAR CHANNEL (R138) -/

/-- R67, R110, R138: a channel is cleared before SUP is told: its baseline and its pages. -/
def State.pagesCleared (s : State) (c : Channel) : State := (s.putBaseline c none).emptyPages c

theorem State.pagesCleared_only (s : State) (c : Channel) :
    OnlyChanges [.engine, .reports, .pages c, .baseline c] s (s.pagesCleared c) :=
  ((s.putBaseline_acts c none).only.mono (by simp)).trans ((State.emptyPages_acts _ c).only.mono (by simp))

theorem State.emptyPages_queue (s : State) (c : Channel) : (s.emptyPages c).sst.queue = s.sst.queue.filter (· != c) := by
  unfold State.emptyPages State.abandonOn
  split <;> rfl

theorem State.emptyPages_pages (s : State) (c : Channel) : (s.emptyPages c).pages c = ⟨none, .empty⟩ := by
  unfold State.emptyPages State.abandonOn
  split <;> exact PerChannel.get_put_self _ _ _

/-- A channel in MAIN that does not become FAILED changes its health alone (R118). -/
theorem State.setHealth_main_only {s : State} {c : Channel} {h : Health} (main : s.isMain c = true) (live : h ≠ .failed) :
    OnlyChanges (.watched c :: flagParts c) s (s.setHealth c h) := by
  by_cases same : (s.watched c).health = h
  · rw [State.setHealth_same same]
    exact OnlyChanges.refl _ s
  · rw [State.setHealth_reacts same, State.healthReaction_main (s := s.withHealth c h) main live]
    exact s.withHealth_only c h

/-- R110: the channel is not heard, before its health becomes UNKNOWN. -/
def State.notHeard (s : State) (c : Channel) : State := s.putWatched c { s.watched c with heard := false }

theorem State.notHeard_only (s : State) (c : Channel) : OnlyChanges [.watched c] s (s.notHeard c) := fun q hq => by
  cases q with
  | watched d => exact PerChannel.get_put_ne _ _ _ _ (by simpa using hq)
  | _ => rfl

theorem State.notHeard_watched (s : State) (c : Channel) : (s.notHeard c).watched c = { s.watched c with heard := false } :=
  (s.watched_putWatched c c _).trans (if_pos rfl)

theorem State.unhear_eq (s : State) (c : Channel) : s.unhear c = (s.notHeard c).setHealth c .unknown := rfl

theorem State.unhear_only {s : State} {c : Channel} (main : s.isMain c = true) : OnlyChanges (.watched c :: flagParts c) s (s.unhear c) :=
  ((s.notHeard_only c).mono (by simp)).trans (State.setHealth_main_only (s := s.notHeard c) main (by decide))

theorem State.unhear_watched (s : State) (c : Channel) : (s.unhear c).watched c = { s.watched c with
    heard := false, health := .unknown, confirm := if (s.watched c).health = .unknown then (s.watched c).confirm else 0 } := by
  have before := s.notHeard_watched c
  rw [State.unhear_eq]
  by_cases same : (s.watched c).health = .unknown
  · rw [State.setHealth_same (s := s.notHeard c) (by rw [before, same]), before, if_pos same, ← same]
  · rw [(State.setHealth_changes (s := s.notHeard c) (n := 0) (by rw [before]; exact same) rfl).1, before, if_neg same]

theorem State.withHealth_channelFlag (s : State) (c : Channel) (h : Health) (k : ChannelFlag) :
    (s.withHealth c h).channelFlag k c = if k = .healthChange then true else s.channelFlag k c := by
  rw [State.withHealth, State.evalAlarm_channelFlag, State.raiseHealth, State.channelFlag_raiseClassed]
  simp only [and_true]
  rfl

theorem State.channelFlag_setHealth_main {s : State} {c : Channel} {h : Health} (main : s.isMain c = true) (live : h ≠ .failed)
    {k : ChannelFlag} (other : k ≠ .healthChange) : (s.setHealth c h).channelFlag k c = s.channelFlag k c := by
  by_cases same : (s.watched c).health = h
  · rw [State.setHealth_same same]
  · rw [State.setHealth_reacts same, State.healthReaction_main (s := s.withHealth c h) main live, State.withHealth_channelFlag, if_neg other]

theorem State.channelFlag_unhear {s : State} {c : Channel} (main : s.isMain c = true) {k : ChannelFlag} (other : k ≠ .healthChange) :
    (s.unhear c).channelFlag k c = s.channelFlag k c :=
  State.channelFlag_setHealth_main (s := s.notHeard c) main (by decide) other

/-- R67, R81, R110, R138: what CLEAR CHANNEL makes of a channel in MAIN. -/
structure ChannelCleared (s t : State) (c : Channel) : Prop where
  pages : t.pages c = ⟨none, .empty⟩
  baseline : t.rpe.baseline[c] = none
  queue : t.sst.queue = s.sst.queue.filter (· != c)
  watched : t.watched c = { s.watched c with
    heard := false, health := .unknown, confirm := if (s.watched c).health = .unknown then (s.watched c).confirm else 0 }
  main : t.authority c = .main
  missed : t.channelFlag .flipMissed c = s.channelFlag .flipMissed c

theorem State.clearChannel_shows {s : State} {c : Channel} (main : s.isMain c = true) :
    OnlyChanges ([.engine, .reports, .pages c, .baseline c, .watched c] ++ flagParts c) s (s.clearChannel c) ∧ ChannelCleared s (s.clearChannel c) c := by
  have first := s.pagesCleared_only c
  have same {q : Part} (free : q ∉ [Part.engine, .reports, .pages c, .baseline c]) : q.same s (s.pagesCleared c) := first q free
  have record : (s.pagesCleared c).authority c = s.authority c := same (q := .authority c) (by simp)
  have flags : (s.pagesCleared c).sli.channel[c] = s.sli.channel[c] := same (q := .channelFlags c) (by simp)
  have health : (s.pagesCleared c).watched c = s.watched c := same (q := .watched c) (by simp)
  have here : (s.pagesCleared c).isMain c = true := State.isMain_iff.mpr (record.trans (State.isMain_iff.mp main))
  have second := State.unhear_only here
  have kept {q : Part} (free : q ∉ Part.watched c :: flagParts c) : q.same (s.pagesCleared c) (s.clearChannel c) := second q free
  have engine : ((s.pagesCleared c).unhear c).sst.queue = (s.pagesCleared c).sst.queue :=
    (Prod.mk.inj (Prod.mk.inj (kept (q := .engine) (by simp [flagParts]))).2).1
  refine ⟨(first.mono (by simp)).trans (second.mono fun q hq => by
    simp only [List.mem_cons, List.mem_append] at hq ⊢; tauto), ?_, ?_, ?_, ?_, ?_, ?_⟩
  · exact Eq.trans (kept (q := .pages c) (by simp [flagParts])) ((s.putBaseline c none).emptyPages_pages c)
  · refine Eq.trans (kept (q := .baseline c) (by simp [flagParts])) ?_
    exact Eq.trans ((State.emptyPages_acts (s.putBaseline c none) c).only (.baseline c) (by simp)) (PerChannel.get_put_self _ c none)
  · exact engine.trans ((s.putBaseline c none).emptyPages_queue c)
  · exact ((s.pagesCleared c).unhear_watched c).trans (by rw [health])
  · exact Eq.trans (kept (q := .authority c) (by simp [flagParts])) (record.trans (State.isMain_iff.mp main))
  · exact (State.channelFlag_unhear here (by decide)).trans (State.channelFlag_eq flags _)

/-! # The requests (R97, R103, R74, R138) -/

theorem State.putScan_only (s : State) (k : Scan) : OnlyChanges [.scan] s (s.putScan k) := fun q hq => by
  cases q <;> first | rfl | simp at hq

theorem State.queueAnswer_same (s : State) (p : SitePort) (a : Answer) {q : Part} (own : q ≠ .sitePorts) :
    q.same s (s.queueAnswer p a) := (s.queueAnswer_acts p a).only q (by simpa using own)

theorem State.scanStart_decided (s : State) : s.scanStartRequest =
    if s.sup.scan ≠ .idle then ⟨s, .busy, []⟩ else if s.live.scanMask = 0 then ⟨s, .notReady, []⟩ else ⟨s.putScan (.starting false), .done, []⟩ :=
  rfl

/-- Settles O55, request by request. -/
theorem scanFeedAndClearRequestsAct : Obligations.ScanFeedAndClearRequestsAct := by
  refine fun s p tag take => ⟨fun idle masked => ?_, fun busy => ?_, fun idle unmasked => ?_, ?_, fun q pb v port code => ?_, fun pb v bad => ?_,
    fun ch c names main => ?_, fun ch c names off => ?_⟩
  · have run : exec (.scanStart p (.formed tag ())) s = _ := asked_next (tag := tag)
      (owner := owned (.formed tag ()) fun _ s => s.scanStartRequest) rfl take
      (((s.validFrame p).scanStart_decided.trans (if_neg (not_not_intro idle))).trans (if_neg masked))
    exact ⟨_, run, answered_of_only (State.putScan_only _ _) (by simp) (by simp) tag 0x30 .done [], rfl,
      (exec_only run).mono (by simp [Instr.reach, requestParts])⟩
  · exact asked_refused (tag := tag) (owner := owned (.formed tag ()) fun _ s => s.scanStartRequest) rfl take
      ((s.validFrame p).scanStart_decided.trans (if_pos busy))
  · exact asked_refused (tag := tag) (owner := owned (.formed tag ()) fun _ s => s.scanStartRequest) rfl take
      (((s.validFrame p).scanStart_decided.trans (if_neg (not_not_intro idle))).trans (if_pos unmasked))
  · have run : exec (.scanStop p (.formed tag ())) s = _ := asked_next (tag := tag)
      (owner := owned (.formed tag ()) fun _ s => (s.putScan .idle).done []) rfl take rfl
    exact ⟨_, run, answered_of_only (State.putScan_only _ _) (by simp) (by simp) tag 0x31 .done [], rfl,
      (exec_only run).mono (by simp [Instr.reach, requestParts])⟩
  · have named : feedPortOf pb = some q := by
      rcases port with ⟨rfl, rfl⟩ | ⟨rfl, rfl⟩ <;> rfl
    have run : exec (.feedEnable p (.formed tag ⟨pb, v⟩)) s = _ := asked_next (tag := tag)
      (owner := owned (.formed tag (FeedEnableFields.mk pb v)) fun x s => s.feedEnableRequest x) rfl take
      ((s.validFrame p).feedEnableRequest_legal named code)
    have only : OnlyChanges [.intake, .reports, .rx] (s.validFrame p) ((s.validFrame p).setFeedEnabled q (v == 1)) :=
      (s.validFrame p).setFeedEnabled_only q _
    have bytes : nat8 (sideCode q) ++ flag8 (v == 1) = [pb, v] := by
      rcases port with ⟨rfl, rfl⟩ | ⟨rfl, rfl⟩ <;> rcases byte_cases code with rfl | rfl <;> rfl
    have own := (s.validFrame p).setFeedEnabled_feed q (v == 1)
    have others := (s.validFrame p).setFeedEnabled_other q (v == 1)
    have site := State.site_withoutPairs only (by simp) p
    have answers : (((s.validFrame p).setFeedEnabled q (v == 1)).site p).answers = (s.site p).answers := by
      refine (SitePortState.mk.inj site).2.2.1.trans ?_
      rw [State.site_validFrame, if_pos rfl]
    have waits (on : v = 1) (disabled : (s.feed q).enabled = false) :
        ((s.validFrame p).setFeedEnabled q (v == 1)).rx.get (feedLine q) = .waiting := by
      subst on
      exact State.setFeedEnabled_waits (s := s.validFrame p) disabled
    rw [bytes] at run
    generalize (s.validFrame p).setFeedEnabled q (v == 1) = u at *
    refine ⟨_, run, ?_, ?_, ?_, ?_, ?_, others, ?_, (exec_only run).mono (by simp [Instr.reach, requestParts])⟩
    · rw [State.queueAnswer, State.site_putSite, if_pos rfl, answers]
    · show (u.feed q).enabled = true ↔ v = 1
      rw [own]
      exact beq_iff_eq
    · show (u.feed q).queue = _
      rw [own]
      rfl
    · show (u.feed q).tx.sending = _
      rw [own]
      dsimp only
      split <;> rfl
    · show (u.feed q).tx.waiting = _
      rw [own]
      rcases byte_cases code with rfl | rfl
      · dsimp only
        split
        · next h => exact (if_pos ⟨rfl, h.2⟩).symm
        · next h => exact (if_neg fun k => h ⟨rfl, k.2⟩).symm
      · rfl
    · exact waits
  · exact asked_refused (tag := tag) (owner := owned (.formed tag (FeedEnableFields.mk pb v)) fun x s => s.feedEnableRequest x) rfl take
      ((s.validFrame p).feedEnableRequest_refused bad)
  · have here : (s.validFrame p).isMain c = true := main
    have decided := (owned_channel (tag := tag) names (fun s c => if s.isMain c then (s.clearChannel c).done [] else
      s.refuse .wrongState) (s.validFrame p)).trans (if_pos here)
    have run : exec (.clearChannel p (.formed tag ch)) s = _ := asked_next (tag := tag) rfl take decided
    obtain ⟨only, shown⟩ := State.clearChannel_shows here
    exact ⟨_, run, answered_of_only only (by simp [flagParts]) (by simp [flagParts]) tag 0x33 .done [], shown.1, shown.2, shown.3, shown.4, shown.5,
      shown.6, (request_only only _).mono (by simp [requestParts, flagParts])⟩
  · exact asked_refused rfl take ((owned_channel (tag := tag) names (fun s c => if s.isMain c then (s.clearChannel c).done [] else
      s.refuse .wrongState) (s.validFrame p)).trans (if_neg (by rw [show (s.validFrame p).isMain c = false from off]; decide)))

end Sys2Proof.Machine

namespace Sys2Proof.Machine

/-! # Values that are carried, and their clamping (R171) -/

theorem clamp_same {lo hi x : Nat} : clamp lo hi x = x ↔ lo ≤ x ∧ x ≤ hi := by
  unfold clamp
  split_ifs <;> omega

theorem clamp_bounds {lo hi : Nat} (order : lo ≤ hi) (x : Nat) : lo ≤ clamp lo hi x ∧ clamp lo hi x ≤ hi := by
  unfold clamp
  split_ifs <;> omega

theorem outside_eq_false {lo hi : Nat} {v : Option Nat} :
    outside lo hi v = false ↔ ∀ x, v = some x → lo ≤ x ∧ x ≤ hi := by
  cases v with
  | none => simp [outside]
  | some x =>
    simp only [outside, Option.any_some, bne_eq_false_iff_eq, Option.some.injEq, forall_eq', clamp_same]

theorem timing_none (lo hi old : Nat) : timing lo hi none old = old := rfl

theorem timing_some (lo hi x old : Nat) : timing lo hi (some x) old = clamp lo hi x := rfl

/-! # CONFIGURE CADENCE (R10 to R12) -/

/-- R10 step 4: the format that a request carries, where its code is one. -/
def formatCarried (x : CadenceItems) : Option Format := (num8 x.format).bind formatOf

/-- R10 step 5: the window that a request comes to. -/
def State.windowAsked (s : State) (x : CadenceItems) : Nat × Nat :=
  (timing 2 20 (num8 x.swFirst) (s.windowBase (formatCarried x)).1, timing 2 20 (num8 x.swLast) (s.windowBase (formatCarried x)).2)

/-- R10, R11: the manual lock that a request comes to. -/
def State.lockAsked (s : State) (x : CadenceItems) : Bool := (x.manualLock.map fun b => b == 1).getD s.cdu.manualLock

/-- R10: the state that an accepted request makes. -/
def State.cadenceTaken (s : State) (x : CadenceItems) : State :=
  (s.takeFormat (formatCarried x)).putWindow (s.windowAsked x).1 (s.windowAsked x).2 (s.lockAsked x)

theorem State.configureCadence_decided (s : State) (x : CadenceItems) : s.configureCadenceRequest x =
    if s.saving then ⟨s, .busy, []⟩
    else if (cadenceCarriesTiming x && s.cadenceLocked) = true then ⟨s, .locked, []⟩
    else if cadenceBadCode x then ⟨s, .badValue, []⟩
    else if (s.windowAsked x).2 < (s.windowAsked x).1 then ⟨s, .badValue, []⟩
    else ⟨s.cadenceTaken x, if outside 2 20 (num8 x.swFirst) || outside 2 20 (num8 x.swLast) then .clamped else .done,
      (s.cadenceTaken x).cadenceBytes⟩ := rfl

theorem State.cadenceLocked_iff {s : State} : s.cadenceLocked = true ↔ s.cdu.manualLock = true ∨ ∃ c, s.isMain c = false := by
  simp [State.cadenceLocked, List.all_eq_false, mem_channels]

theorem State.configureCadence_open {s : State} {x : CadenceItems} (free : s.store.save = none)
    (unlocked : cadenceCarriesTiming x = true → s.cadenceLocked = false) (codes : cadenceBadCode x = false) :
    s.configureCadenceRequest x = if (s.windowAsked x).2 < (s.windowAsked x).1 then ⟨s, .badValue, []⟩
      else ⟨s.cadenceTaken x, if outside 2 20 (num8 x.swFirst) || outside 2 20 (num8 x.swLast) then .clamped else .done,
        (s.cadenceTaken x).cadenceBytes⟩ := by
  have idle : s.saving = false := congrArg Option.isSome free
  rw [s.configureCadence_decided, idle, if_neg Bool.false_ne_true, if_neg, codes, if_neg Bool.false_ne_true]
  rw [Bool.and_eq_true]
  rintro ⟨carries, locked⟩
  rw [unlocked carries] at locked
  cases locked

theorem formatOf_code (f : Format) : formatOf (formatCode f) = some f := by cases f <;> rfl

theorem presetWindow_order (f : Format) : (presetWindow f).1 ≤ (presetWindow f).2 := by cases f <;> decide

/-! ## A format change (R12) -/

/-- R12: what a format change makes of the part, before a window is set. -/
structure Reformatted (s t : State) (f : Format) : Prop where
  live : t.live = { s.live with format := f }
  pages : ∀ c, t.pages c = ⟨none, .empty⟩
  baseline : ∀ c : Channel, t.rpe.baseline[c] = none
  engine : t.sst.engine = .idle
  queue : t.sst.queue = []
  cadence : t.cdu = s.cdu.reformatted
  clock : t.stc = ⟨s.stc.offset, .unset, none, none, 0, none⟩

theorem State.changeFormat_reformatted (s : State) (f : Format) : Reformatted s (s.changeFormat f) f := by
  unfold State.changeFormat State.abandonAny
  dsimp only
  have perChannel {α : Type} (x : α) (c : Channel) : (PerChannel.same x)[c] = x := PerChannel.get_same x c
  split
  · exact ⟨rfl, perChannel _, perChannel _, rfl, rfl, rfl, rfl⟩
  · next idle =>
    refine ⟨rfl, perChannel _, perChannel _, ?_, rfl, rfl, rfl⟩
    simpa [State.engineRunning] using idle

theorem State.cadenceTaken_format {s : State} {f : Format} {x : CadenceItems} (format : formatCarried x = some f) (change : f ≠ s.live.format) :
    s.cadenceTaken x = (s.changeFormat f).putWindow (s.windowAsked x).1 (s.windowAsked x).2 (s.lockAsked x) := by
  unfold State.cadenceTaken State.takeFormat
  rw [format]
  dsimp only
  rw [if_neg change]

theorem State.putWindow_live (s : State) (a b : Nat) (l : Bool) : (s.putWindow a b l).live = { s.live with swFirst := a, swLast := b } := rfl

theorem State.putWindow_cdu (s : State) (a b : Nat) (l : Bool) : (s.putWindow a b l).cdu = { s.cdu with manualLock := l } := rfl

theorem State.putWindow_parts (s : State) (a b : Nat) (l : Bool) :
    (s.putWindow a b l).sst = s.sst ∧ (s.putWindow a b l).rpe = s.rpe ∧ (s.putWindow a b l).stc = s.stc := ⟨rfl, rfl, rfl⟩

theorem State.cadenceTaken_only (s : State) (x : CadenceItems) : OnlyChanges formatParts s (s.cadenceTaken x) :=
  (s.takeFormat_only _).trans ((State.putWindow_only _ _ _ _).mono (by simp [formatParts]))

theorem outside_byte {lo hi : Nat} {v : Byte} : outside lo hi (num8 (some v)) = false ↔ lo ≤ v.toNat ∧ v.toNat ≤ hi := by
  rw [outside_eq_false]
  simp [num8]

/-- R171: the answer to a window says whether an end of it was clamped. -/
theorem windowCode (a b : Byte) : (if outside 2 20 (num8 (some a)) || outside 2 20 (num8 (some b)) then AnswerCode.clamped else .done)
    = if 2 ≤ a.toNat ∧ a.toNat ≤ 20 ∧ 2 ≤ b.toNat ∧ b.toNat ≤ 20 then .done else .clamped := by
  by_cases inside : 2 ≤ a.toNat ∧ a.toNat ≤ 20 ∧ 2 ≤ b.toNat ∧ b.toNat ≤ 20
  · rw [if_pos inside, outside_byte.mpr ⟨inside.1, inside.2.1⟩, outside_byte.mpr inside.2.2]
    rfl
  · rw [if_neg inside, if_pos]
    rw [Bool.or_eq_true]
    by_contra both
    rw [not_or, Bool.not_eq_true, Bool.not_eq_true, outside_byte, outside_byte] at both
    exact inside ⟨both.1.1, both.1.2, both.2⟩

/-- Settles O53, refusal by refusal in the order of R10's steps. -/
theorem configureCadenceActs : Obligations.ConfigureCadenceActs := by
  refine fun s p tag x take => ⟨fun saving => ?_, fun free carries locked => ?_, fun free unlocked main => ?_, fun free b only legal order => ?_⟩
  · exact asked_refused (tag := tag) (owner := owned (.formed tag x) fun x s => s.configureCadenceRequest x) rfl take
      (((s.validFrame p).configureCadence_decided x).trans (if_pos saving))
  · have idle : ¬ (s.validFrame p).saving = true := by
      rw [show (s.validFrame p).saving = false from congrArg Option.isSome free]
      decide
    have both : (cadenceCarriesTiming x && (s.validFrame p).cadenceLocked) = true := by
      rw [Bool.and_eq_true]
      refine ⟨?_, State.cadenceLocked_iff.mpr locked⟩
      rw [cadenceCarriesTiming, Bool.or_eq_true, Bool.or_eq_true, or_assoc]
      exact carries
    exact asked_refused (tag := tag) (owner := owned (.formed tag x) fun x s => s.configureCadenceRequest x) rfl take
      ((((s.validFrame p).configureCadence_decided x).trans (if_neg idle)).trans (if_pos both))
  · have notLocked : (s.validFrame p).cadenceLocked = false := by
      refine Bool.eq_false_iff.mpr fun locked => ?_
      rcases State.cadenceLocked_iff.mp locked with manual | ⟨c, off⟩
      · exact absurd (unlocked.symm.trans manual) Bool.false_ne_true
      · exact absurd (off.symm.trans (main c)) Bool.false_ne_true
    have free' : (s.validFrame p).store.save = none := free
    refine ⟨fun a b held order => ?_, fun a b held order => ?_, fun b held high => ?_, fun b f held code change => ?_⟩
    · subst held
      have decided := (State.configureCadence_open (x := ⟨none, some a, some b, none⟩) free' (fun _ => notLocked) rfl).trans
        (if_neg (Nat.not_lt.mpr order))
      have run : exec (.configureCadence p (.formed tag ⟨none, some a, some b, none⟩)) s = _ := asked_next (tag := tag)
        (owner := owned (.formed tag (CadenceItems.mk none (some a) (some b) none)) fun x s => s.configureCadenceRequest x) rfl take decided
      have only : OnlyChanges [.settings] (s.validFrame p) ((s.validFrame p).cadenceTaken ⟨none, some a, some b, none⟩) := fun q hq => by
        cases q <;> first | rfl | simp at hq
      refine ⟨_, ((s.validFrame p).cadenceTaken ⟨none, some a, some b, none⟩).cadenceBytes, run, ?_, ?_, (request_only only _).mono (by simp [requestParts])⟩
      · have answer := answered_of_only only (by simp) (by simp) tag 0x2D
          (if outside 2 20 (num8 (some a)) || outside 2 20 (num8 (some b)) then .clamped else .done)
          ((s.validFrame p).cadenceTaken ⟨none, some a, some b, none⟩).cadenceBytes
        rw [← windowCode]
        exact answer
      · rw [State.queueAnswer_live]
        rfl
    · subst held
      exact asked_refused (tag := tag)
        (owner := owned (.formed tag (CadenceItems.mk none (some a) (some b) none)) fun x s => s.configureCadenceRequest x) rfl take
        ((State.configureCadence_open (x := ⟨none, some a, some b, none⟩) free' (fun _ => notLocked) rfl).trans (if_pos order))
    · have bad : cadenceBadCode x = true := by
        rw [cadenceBadCode, held, Option.any_some, decide_eq_true (show (2 : Byte) < b from BitVec.lt_def.mpr high)]
        rfl
      have decided : (s.validFrame p).configureCadenceRequest x = ⟨s.validFrame p, .badValue, []⟩ := by
        rw [State.configureCadence_decided, show (s.validFrame p).saving = false from congrArg Option.isSome free,
          if_neg Bool.false_ne_true, notLocked, Bool.and_false, if_neg Bool.false_ne_true, bad, if_pos rfl]
      exact asked_refused (tag := tag) (owner := owned (.formed tag x) fun x s => s.configureCadenceRequest x) rfl take decided
    · subst held
      have format : formatCarried ⟨some b, none, none, none⟩ = some f := by
        show formatOf b.toNat = some f
        rw [code, formatOf_code]
      have asked : (s.validFrame p).windowAsked ⟨some b, none, none, none⟩ = presetWindow f := by
        unfold State.windowAsked
        rw [format]
        rfl
      have codes : cadenceBadCode ⟨some b, none, none, none⟩ = false := by
        rw [cadenceBadCode, Option.any_some, decide_eq_false]
        · rfl
        · rw [BitVec.lt_def, code]
          cases f <;> decide
      have decided := (State.configureCadence_open (x := ⟨some b, none, none, none⟩) free' (fun _ => notLocked) codes).trans
        (if_neg (by rw [asked]; exact Nat.not_lt.mpr (presetWindow_order f)))
      have run : exec (.configureCadence p (.formed tag ⟨some b, none, none, none⟩)) s = _ := asked_next (tag := tag)
        (owner := owned (.formed tag (CadenceItems.mk (some b) none none none)) fun x s => s.configureCadenceRequest x) rfl take decided
      have only := (s.validFrame p).cadenceTaken_only ⟨some b, none, none, none⟩
      have made := (s.validFrame p).changeFormat_reformatted f
      have taken := State.cadenceTaken_format (s := s.validFrame p) format change
      rw [asked, show (s.validFrame p).lockAsked ⟨some b, none, none, none⟩ = s.cdu.manualLock from rfl] at taken
      obtain ⟨sst, rpe, stc⟩ := ((s.validFrame p).changeFormat f).putWindow_parts (presetWindow f).1 (presetWindow f).2 s.cdu.manualLock
      have answer := answered_of_only only (by simp [formatParts, everyChannel]) (by simp [formatParts, everyChannel]) tag 0x2D .done
        ((s.validFrame p).cadenceTaken ⟨some b, none, none, none⟩).cadenceBytes
      have live : ((s.validFrame p).cadenceTaken ⟨some b, none, none, none⟩).live
          = { s.live with format := f, swFirst := (presetWindow f).1, swLast := (presetWindow f).2 } := by
        rw [taken, State.putWindow_live, made.live]
        rfl
      have cadence : ((s.validFrame p).cadenceTaken ⟨some b, none, none, none⟩).cdu = { s.cdu.reformatted with manualLock := s.cdu.manualLock } := by
        rw [taken, State.putWindow_cdu, made.cadence]
        rfl
      have pages (c : Channel) : ((s.validFrame p).cadenceTaken ⟨some b, none, none, none⟩).pages c = ⟨none, .empty⟩ := by
        rw [taken]
        exact made.pages c
      have baseline (c : Channel) : ((s.validFrame p).cadenceTaken ⟨some b, none, none, none⟩).rpe.baseline[c] = none := by
        rw [taken, rpe]
        exact made.baseline c
      have engine : ((s.validFrame p).cadenceTaken ⟨some b, none, none, none⟩).sst.engine = .idle := by
        rw [taken, sst]
        exact made.engine
      have queue : ((s.validFrame p).cadenceTaken ⟨some b, none, none, none⟩).sst.queue = [] := by
        rw [taken, sst]
        exact made.queue
      have clock : ((s.validFrame p).cadenceTaken ⟨some b, none, none, none⟩).stc = ⟨s.stc.offset, .unset, none, none, 0, none⟩ := by
        rw [taken, stc]
        exact made.clock
      generalize (s.validFrame p).cadenceTaken ⟨some b, none, none, none⟩ = u at *
      have now : u.cdu.now = s.cdu.now := by rw [cadence]; rfl
      have frame : u.cdu.frame = s.cdu.frame := by rw [cadence]; rfl
      exact ⟨_, _, run, answer, live, fun c => ⟨pages c, baseline c⟩, engine, queue, congrArg Cdu.refState cadence, congrArg Cdu.qualifying cadence,
        congrArg Cdu.refLine cadence, congrArg Cdu.phase cadence, now, frame, congrArg FrameTiming.format frame, clock, exec_only run⟩
  · subst only
    have codes : cadenceBadCode ⟨none, none, none, some b⟩ = false := by
      show (!codeOk (some b)) = false
      rw [codeOk_iff.mpr fun v h => by rw [← Option.some.inj h]; exact legal]
      rfl
    have decided := (State.configureCadence_open (s := s.validFrame p) (x := ⟨none, none, none, some b⟩) free nofun codes).trans
      (if_neg (Nat.not_lt.mpr order))
    have run : exec (.configureCadence p (.formed tag ⟨none, none, none, some b⟩)) s = _ := asked_next (tag := tag)
      (owner := owned (.formed tag (CadenceItems.mk none none none (some b))) fun x s => s.configureCadenceRequest x) rfl take decided
    have only : OnlyChanges [.cadence] (s.validFrame p) ((s.validFrame p).cadenceTaken ⟨none, none, none, some b⟩) := fun q hq => by
      cases q <;> first | rfl | simp at hq
    exact ⟨_, _, run, answered_of_only only (by simp) (by simp) tag 0x2D .done _, rfl, (request_only only _).mono (by simp [requestParts])⟩

end Sys2Proof.Machine

namespace Sys2Proof.Machine

/-! # The answer of a configure request (R171) -/

/-- R171: the code of an accepted configure request. -/
def configuredCode (clamped : Bool) : AnswerCode := if clamped then .clamped else .done

theorem configuredCode_cases (b : Bool) : configuredCode b = .clamped ∨ configuredCode b = .done := by
  cases b
  · exact .inr rfl
  · exact .inl rfl

theorem configuredCode_done {b : Bool} : configuredCode b = .done ↔ b = false := by
  cases b <;> simp [configuredCode]

theorem num8_some {v : Option Byte} {x : Nat} : num8 v = some x ↔ ∃ b, v = some b ∧ b.toNat = x := by
  cases v <;> simp [num8]

theorem inside_byte {lo hi : Nat} {v : Option Byte} :
    outside lo hi (num8 v) = false ↔ ∀ b, v = some b → lo ≤ b.toNat ∧ b.toNat ≤ hi := by
  rw [outside_eq_false]
  cases v <;> simp [num8]

theorem inside_word {lo hi : Nat} {v : Option (BitVec 16)} :
    outside lo hi (num16 v) = false ↔ ∀ b, v = some b → lo ≤ b.toNat ∧ b.toNat ≤ hi := by
  rw [outside_eq_false]
  cases v <;> simp [num16]

/-! # CONFIGURE PORTS (R170) -/

theorem portsClamped_iff {x : PortItems} : portsClamped x = false ↔
    (∀ v, x.hbTimeout = some v → 10 ≤ v.toNat ∧ v.toNat ≤ 1000) ∧ (∀ v, x.feedDelay = some v → v.toNat ≤ 15)
      ∧ (∀ v, x.siteTimeout = some v → 25 ≤ v.toNat ∧ v.toNat ≤ 1500) ∧ (∀ v, x.replyTimeout = some v → 1 ≤ v.toNat ∧ v.toNat ≤ 8) := by
  simp only [portsClamped, Bool.or_eq_false_iff, inside_byte, inside_word, Nat.zero_le, true_and, and_assoc]

theorem State.configurePorts_decided {s : State} (free : s.store.save = none) (x : PortItems) :
    s.configurePortsRequest x = ⟨s.putPorts x, configuredCode (portsClamped x), (s.putPorts x).portBytes⟩ := by
  have idle : s.saving = false := congrArg Option.isSome free
  unfold State.configurePortsRequest
  rw [idle]
  rfl

theorem timing_byte (lo hi : Nat) (v : Option Byte) (old : Nat) :
    timing lo hi (num8 v) old = match v with | some b => clamp lo hi b.toNat | none => old := by cases v <;> rfl

theorem timing_word (lo hi : Nat) (v : Option (BitVec 16)) (old : Nat) :
    timing lo hi (num16 v) old = match v with | some b => clamp lo hi b.toNat | none => old := by cases v <;> rfl

theorem State.putPorts_live (s : State) (x : PortItems) : (s.putPorts x).live = { s.live with
    hbTimeout := (match x.hbTimeout with | some v => clamp 10 1000 v.toNat | none => s.live.hbTimeout)
    feedDelay := (match x.feedDelay with | some v => clamp 0 15 v.toNat | none => s.live.feedDelay)
    siteTimeout := (match x.siteTimeout with | some v => clamp 25 1500 v.toNat | none => s.live.siteTimeout)
    replyTimeout := (match x.replyTimeout with | some v => clamp 1 8 v.toNat | none => s.live.replyTimeout) } := by
  obtain ⟨hb, delay, site, reply⟩ := x
  cases hb <;> cases delay <;> cases site <;> cases reply <;> rfl

/-! # CONFIGURE SCAN (R96) -/

theorem scanBadCode_iff {x : ScanItems} : scanBadCode x = true ↔
    (∃ v, x.mode = some v ∧ 1 < v.toNat) ∨ (∃ v, x.sweepRepeat = some v ∧ 1 < v.toNat) ∨ (∃ m, x.mask = some m ∧ 4096 ≤ m.toNat) := by
  have code (v : Option Byte) : (!codeOk v) = true ↔ ∃ b, v = some b ∧ 1 < b.toNat := by
    rw [Bool.not_eq_true', ← Bool.not_eq_true, codeOk_iff]
    simp only [not_forall, Nat.not_le, exists_prop]
  have mask : (x.mask.any fun m => (0x0FFF : BitVec 16) < m) = true ↔ ∃ m, x.mask = some m ∧ 4096 ≤ m.toNat := by
    cases x.mask with
    | none => simp
    | some m =>
      simp only [Option.any_some, decide_eq_true_eq, BitVec.lt_def, Option.some.injEq, exists_eq_left', BitVec.reduceToNat]
      omega
  rw [scanBadCode, Bool.or_eq_true, Bool.or_eq_true, code, code, mask, or_assoc]

theorem State.configureScan_decided {s : State} (free : s.store.save = none) (x : ScanItems) : s.configureScanRequest x =
    if s.sup.scan ≠ .idle then ⟨s, .busy, []⟩
    else if scanBadCode x then ⟨s, .badValue, []⟩
    else ⟨s.applyScan x, configuredCode (outside 9 16 (num8 x.resolution)), (s.applyScan x).scanSettings⟩ := by
  have idle : s.saving = false := congrArg Option.isSome free
  unfold State.configureScanRequest
  rw [idle]
  rfl

theorem State.putScanItems_live (s : State) (x : ScanItems) : (s.putScanItems x).live = { s.live with
    scanResolution := (match x.resolution with | some v => clamp 9 16 v.toNat | none => s.live.scanResolution)
    scanMode := (match x.mode with | some v => if v = 0 then .sequential else .parallel | none => s.live.scanMode)
    scanRepeat := (match x.sweepRepeat with | some v => v == 1 | none => s.live.scanRepeat)
    scanMask := (match x.mask with | some m => m.setWidth 12 | none => s.live.scanMask) } := by
  obtain ⟨resolution, mode, rpt, mask⟩ := x
  cases resolution <;> cases mode <;> cases rpt <;> cases mask <;> rfl

/-- R96: the turn of one channel after new scan settings. -/
def unscanIf (s : State) (t : State) (c : Channel) : State := if s.masked c && !t.masked c then t.unscan c else t

theorem State.applyScan_eq (s : State) (x : ScanItems) : s.applyScan x = (s.putScanItems x).eachChannel (unscanIf s) := rfl

theorem unscanIf_only (s t : State) (c : Channel) : OnlyChanges (healthParts c) t (unscanIf s t c) :=
  (t.unscan_acts c).only.ite (OnlyChanges.refl _ t)

theorem State.applyScan_live (s : State) (x : ScanItems) : (s.applyScan x).live = (s.putScanItems x).live := by
  rw [State.applyScan_eq]
  refine State.eachChannel_ind (P := fun u => u.live = (s.putScanItems x).live) (fun u d same => ?_) rfl
  exact Eq.trans (unscanIf_only s u d .settings (by simp [healthParts, authorityParts, cueParts, planParts, flagParts])) same

/-- A request that takes no channel out of the mask changes the settings alone. -/
theorem State.applyScan_keeps {s : State} {x : ScanItems} (kept : ∀ c, s.masked c = true → (s.putScanItems x).masked c = true) :
    s.applyScan x = s.putScanItems x := by
  rw [State.applyScan_eq]
  refine State.eachChannel_ind (P := fun u => u = s.putScanItems x) (fun u d same => ?_) rfl
  subst same
  refine if_neg fun out => ?_
  rw [Bool.and_eq_true, Bool.not_eq_true'] at out
  rw [kept d out.1] at out
  cases out.2

theorem unscanIf_sameFor {s t : State} {c d : Channel} (other : d ≠ c) : SameFor c t (unscanIf s t d) := by
  unfold unscanIf
  split
  · exact ((t.unscan_acts d).only.mono (List.subset_cons_self _ _)).sameFor (concerns_free other)
  · exact SameFor.refl c t

theorem SameFor.masked {c : Channel} {s t : State} (h : SameFor c s t) (d : Channel) : t.masked d = s.masked d := by
  rw [State.masked, h.live]
  rfl

theorem State.unscan_watched (t : State) (c : Channel) :
    ((t.unscan c).watched c).presence = .unscanned ∧ ((t.unscan c).watched c).run = none ∧ ((t.unscan c).watched c).lastCount = none := by
  have put := (t.watched_putWatched c c { t.watched c with presence := .unscanned, run := none, lastCount := none }).trans (if_pos rfl)
  unfold State.unscan
  dsimp only
  split
  · rw [put]
    exact ⟨rfl, rfl, rfl⟩
  · rw [State.evaluate_eq, State.setHealth_watched_eq, put]
    exact ⟨rfl, rfl, rfl⟩

/-- R96: a channel that leaves the mask is UNSCANNED. -/
theorem State.applyScan_removed {s : State} {x : ScanItems} {c : Channel} (held : s.masked c = true)
    (out : (s.putScanItems x).masked c = false) :
    ((s.applyScan x).watched c).presence = .unscanned ∧ ((s.applyScan x).watched c).run = none
      ∧ ((s.applyScan x).watched c).lastCount = none := by
  obtain ⟨u, first, last⟩ := foldl_turn (c := c) (f := unscanIf s) (fun d other t => unscanIf_sameFor other) (mem_channels c)
    channels_nodup (s.putScanItems x)
  have turn : unscanIf s u c = u.unscan c := if_pos (by rw [held, first.masked c, out]; rfl)
  rw [State.applyScan_eq, State.eachChannel, last.watched, turn]
  exact u.unscan_watched c

/-! # CONFIGURE CHANNEL (R181, R194) -/

theorem itemsOk_iff {x : ChannelItems} : itemsOk x = true ↔ itemsLegal x := by
  simp only [itemsOk, codeOk_iff, Bool.and_eq_true, Option.all_eq_true, Bool.or_eq_true, decide_eq_true_eq, beq_iff_eq, BitVec.le_def,
    BitVec.reduceToNat, itemsLegal]
  constructor
  · rintro ⟨⟨⟨⟨⟨⟨⟨⟨⟨enable, policy⟩, destination⟩, main⟩, filler⟩, addressA⟩, sourceA⟩, addressB⟩, sourceB⟩, polarity⟩
    exact ⟨enable, policy, destination, main, filler, fun v h => h.elim (addressA v) (addressB v), fun v h => h.elim (sourceA v) (sourceB v),
      polarity⟩
  · rintro ⟨enable, policy, destination, main, filler, address, source, polarity⟩
    exact ⟨⟨⟨⟨⟨⟨⟨⟨⟨enable, policy⟩, destination⟩, main⟩, filler⟩, fun v h => address v (.inl h)⟩, fun v h => source v (.inl h)⟩,
      fun v h => address v (.inr h)⟩, fun v h => source v (.inr h)⟩, polarity⟩

/-- T has the range of its field. -/
theorem threshold_inside (v : Option (BitVec 16)) : outside 0 65535 (num16 v) = false :=
  inside_word.mpr fun b _ => ⟨Nat.zero_le _, by omega⟩

theorem itemsClamped_iff {x : ChannelItems} : itemsClamped x = false ↔ itemsInRange x := by
  simp only [itemsClamped, Bool.or_eq_false_iff, threshold_inside, and_true, inside_byte, inside_word, Nat.zero_le, true_and, and_assoc,
    itemsInRange]

theorem clamp_eq {lo hi : Nat} (order : lo ≤ hi) (x : Nat) : clamp lo hi x = max lo (min hi x) := by
  unfold clamp
  split_ifs <;> omega

theorem playerAfter_eq (k : PlayerSetting) (a : Option Byte) (x : Option (BitVec 16)) : playerAfter k a x =
    ⟨match a with | some v => v.toNat | none => k.address, match x with | some v => v.toNat | none => k.source⟩ := by
  cases a <;> cases x <;> rfl

theorem applyItems_eq (k : ChannelSettings) (x : ChannelItems) : applyItems k x = itemsApplied k x := by
  unfold applyItems itemsApplied
  rw [playerAfter_eq, playerAfter_eq, timing_byte, timing_byte, timing_word, timing_byte, timing_word]
  simp only [clamp_eq (show 2 ≤ 250 by decide), clamp_eq (show 0 ≤ 250 by decide), clamp_eq (show 1 ≤ 8 by decide),
    clamp_eq (show 25 ≤ 3000 by decide), Nat.zero_max]
  rw [ChannelSettings.mk.injEq]
  refine ⟨?_, ?_, ?_, ?_, ?_, rfl, rfl, rfl, ?_, rfl, rfl, ?_⟩
  · cases x.enable <;> rfl
  · cases x.policy <;> rfl
  · cases x.destination <;> rfl
  · cases x.mainSource <;> rfl
  · cases x.filler <;> rfl
  · cases x.threshold with
    | none => rfl
    | some v => exact clamp_same.mpr ⟨Nat.zero_le _, by omega⟩
  · cases x.tallyPolarity <;> rfl

theorem State.configureChannel_decided {s : State} {c : Channel} {x : ChannelItems} (free : s.store.save = none) :
    s.configureChannelRequest c x =
      if s.isMain c = false then ⟨s, .wrongState, []⟩
      else if itemsOk x = false ∨ (itemsApplied (s.cfg c) x).players.a.address = (itemsApplied (s.cfg c) x).players.b.address then
        ⟨s, .badValue, []⟩
      else ⟨s.applyChannel c (itemsApplied (s.cfg c) x), configuredCode (itemsClamped x),
        (s.applyChannel c (itemsApplied (s.cfg c) x)).cfgBytes c⟩ := by
  have idle : s.saving = false := congrArg Option.isSome free
  unfold State.configureChannelRequest
  rw [idle, applyItems_eq]
  dsimp only
  rw [if_neg Bool.false_ne_true]
  refine if_congr (by simp) rfl (if_congr ?_ rfl rfl)
  rw [Bool.or_eq_true, beq_iff_eq, Bool.not_eq_true']

/-! ## What the settings do to health (R105) -/

theorem State.applyChannel_only (s : State) (c : Channel) (k : ChannelSettings) :
    OnlyChanges (.settings :: healthParts c) s (s.applyChannel c k) :=
  ((s.putCfg_only c k).mono (by simp)).ite (((s.putCfg_only c k).mono (by simp)).trans
    ((State.enableChanged_acts _ c).only.mono (List.subset_cons_self _ _)))

theorem State.applyChannel_live (s : State) (c : Channel) (k : ChannelSettings) : (s.applyChannel c k).live = (s.putCfg c k).live := by
  unfold State.applyChannel
  split
  · rfl
  · exact (State.enableChanged_acts (s.putCfg c k) c).only .settings (by simp [healthParts, authorityParts, cueParts, planParts, flagParts])

theorem State.applyChannel_cfg (s : State) (c d : Channel) (k : ChannelSettings) :
    (s.applyChannel c k).cfg d = if d = c then k else s.cfg d :=
  (State.cfg_eq (s := s.putCfg c k) (s.applyChannel_live c k) d).trans (s.cfg_putCfg c d k)

theorem State.applyChannel_disabled {s : State} {c : Channel} {k : ChannelSettings} (off : k.enabled = false) (on : (s.cfg c).enabled = true) :
    ((s.applyChannel c k).watched c).health = .unknown := by
  have own : ((s.putCfg c k).cfg c).enabled = false := by rw [State.cfg_putCfg, if_pos rfl, off]
  unfold State.applyChannel State.enableChanged
  rw [if_neg (by rw [off, on]; decide), own, if_neg Bool.false_ne_true, State.setHealth_watched_eq]

theorem State.applyChannel_enabled {s : State} {c : Channel} {k : ChannelSettings} (on : k.enabled = true) (off : (s.cfg c).enabled = false) :
    ((s.applyChannel c k).watched c).health = if (s.watched c).heard = true then
      (classOf s.linkUp (s.watched c).latestAir (s.watched c).presence).health (s.watched c).health else (s.watched c).health := by
  have own : ((s.putCfg c k).cfg c).enabled = true := by rw [State.cfg_putCfg, if_pos rfl, on]
  unfold State.applyChannel State.enableChanged
  rw [if_neg (by rw [off, on]; decide), own, if_pos rfl, State.evaluate_eq, State.setHealth_watched_eq]
  dsimp only
  unfold State.evaluatedHealth
  rw [own]
  simp only [and_true]
  rfl

/-! # The configure requests (R171, R182) -/

theorem onlyAnswered_of {i : Instr} {p : SitePort} {code : Byte} {tag : Tag} {ps : List Part} {owner : State → Verdict} {s : State}
    {k : AnswerCode} (ask : askingOf i = some ⟨p, code, tag, ps, owner⟩) (take : canTake s p)
    (decided : owner (s.validFrame p) = ⟨s.validFrame p, k, []⟩) : onlyAnswered i s p tag code k := asked_refused ask take decided

theorem owned_record {tag : Tag} {ch : Byte} {c : Channel} {w : ChannelItems} (names : ch.toNat = c.val) (s : State) :
    owned (.formed tag (ConfigureChannelFields.mk ch w)) (fun x s => s.onChannel x.channel fun c => s.configureChannelRequest c x.items) s
      = s.configureChannelRequest c w := State.onChannel_of names _

/-- Settles O54, request by request. -/
theorem configureRequestsApplyAndClamp : Obligations.ConfigureRequestsApplyAndClamp := by
  refine fun s p tag take => ⟨fun x free => ?_, fun x free idle => ⟨fun mode rpt mask => ?_, fun bad => ?_⟩, fun x free sweeps => ?_,
    fun ch c x names free => ⟨fun main legal apart => ?_, fun off => ?_, fun main bad => ?_⟩, fun saving ch c w x y z => ⟨fun names => ?_, ?_, ?_, ?_, ?_⟩⟩
  · have run : exec (.configurePorts p (.formed tag x)) s = _ := asked_next (tag := tag)
      (owner := owned (.formed tag x) fun x s => s.configurePortsRequest x) rfl take (State.configurePorts_decided (s := s.validFrame p) free x)
    refine ⟨_, _, _, run, answered_of_only ((s.validFrame p).putPorts_only x) (by simp) (by simp) tag 0x2E _ _, ?_, configuredCode_cases _,
      configuredCode_done.trans portsClamped_iff, (request_only ((s.validFrame p).putPorts_only x) _).mono (by simp [requestParts])⟩
    rw [State.queueAnswer_live, State.putPorts_live]
    rfl
  · have good : scanBadCode x = false := by
      refine Bool.eq_false_iff.mpr fun bad => ?_
      rcases scanBadCode_iff.mp bad with ⟨v, held, high⟩ | ⟨v, held, high⟩ | ⟨m, held, high⟩
      · exact absurd (mode v held) (Nat.not_le.mpr high)
      · exact absurd (rpt v held) (Nat.not_le.mpr high)
      · exact absurd (mask m held) (Nat.not_lt.mpr high)
    have decided := (State.configureScan_decided (s := s.validFrame p) free x).trans ((if_neg (not_not_intro idle)).trans
      (if_neg (by rw [good]; decide)))
    have run : exec (.configureScan p (.formed tag x)) s = _ := asked_next (tag := tag)
      (owner := owned (.formed tag x) fun x s => s.configureScanRequest x) rfl take decided
    have only := (s.validFrame p).applyScan_only x
    have live := (s.validFrame p).applyScan_live x
    have masks (d : Channel) : ((s.validFrame p).putScanItems x).masked d = ((match x.mask with | some m => m.setWidth 12 | none => s.live.scanMask)
        : BitVec 12).getLsbD d.val := by
      rw [State.masked, State.putScanItems_live]
      rfl
    refine ⟨_, _, _, run, answered_of_only only (by simp [settingsParts, everyChannel, healthParts, authorityParts, cueParts, planParts, flagParts])
      (by simp [settingsParts, everyChannel, healthParts, authorityParts, cueParts, planParts, flagParts]) tag 0x2F _ _,
      configuredCode_cases _, configuredCode_done.trans inside_byte, ?_, fun m c held was out => ?_, fun kept => ?_, exec_only run⟩
    · rw [State.queueAnswer_live, live, State.putScanItems_live]
      rfl
    · refine State.applyScan_removed (s := s.validFrame p) (c := c) was ?_
      rw [masks, held]
      simp [out]
    · have same : (s.validFrame p).applyScan x = (s.validFrame p).putScanItems x := State.applyScan_keeps fun c was => by
        rw [masks]
        have held : s.live.scanMask.getLsbD c.val = true := was
        cases mask : x.mask with
        | none => exact held
        | some m =>
          have gone := congrArg (fun b : BitVec 12 => b.getLsbD c.val) (kept m mask)
          simp only [BitVec.getLsbD_and, held, Bool.true_and, BitVec.getLsbD_not] at gone
          simpa using gone
      rw [same]
      exact (request_only ((s.validFrame p).putScanItems_only x) _).mono (by simp [requestParts])
  · exact onlyAnswered_of (tag := tag) (owner := owned (.formed tag x) fun x s => s.configureScanRequest x) rfl take
      ((State.configureScan_decided (s := s.validFrame p) free x).trans ((if_neg (not_not_intro idle)).trans (if_pos (scanBadCode_iff.mpr bad))))
  · exact onlyAnswered_of (tag := tag) (owner := owned (.formed tag x) fun x s => s.configureScanRequest x) rfl take
      ((State.configureScan_decided (s := s.validFrame p) free x).trans (if_pos sweeps))
  · have here : ¬ (s.validFrame p).isMain c = false := by rw [show (s.validFrame p).isMain c = true from main]; decide
    have good : ¬ (itemsOk x = false ∨ (itemsApplied ((s.validFrame p).cfg c) x).players.a.address
        = (itemsApplied ((s.validFrame p).cfg c) x).players.b.address) := by
      rintro (bad | same)
      · exact absurd (itemsOk_iff.mpr legal) (by rw [bad]; decide)
      · exact apart same
    have decided := (owned_record (tag := tag) (w := x) names (s.validFrame p)).trans
      ((State.configureChannel_decided (s := s.validFrame p) free).trans ((if_neg here).trans (if_neg good)))
    have run : exec (.configureChannel p (.formed tag ⟨ch, x⟩)) s = _ := asked_next (tag := tag) rfl take decided
    have only := (s.validFrame p).applyChannel_only c (itemsApplied ((s.validFrame p).cfg c) x)
    have cfg (d : Channel) := (s.validFrame p).applyChannel_cfg c d (itemsApplied ((s.validFrame p).cfg c) x)
    have settings (u : State) (a : Answer) (d : Channel) : (u.queueAnswer p a).cfg d = u.cfg d := State.cfg_eq (u.queueAnswer_live p a) d
    refine ⟨_, _, _, run, answered_of_only only (by simp [healthParts, authorityParts, cueParts, planParts, flagParts])
      (by simp [healthParts, authorityParts, cueParts, planParts, flagParts]) tag 0x2C _ _,
      configuredCode_cases _, configuredCode_done.trans itemsClamped_iff, ?_, fun d other => ?_, fun off on => ?_, fun on off => ?_, fun same => ?_,
      (request_only only _).mono ?_⟩
    · exact (settings _ _ _).trans ((cfg c).trans (if_pos rfl))
    · exact (settings _ _ _).trans ((cfg d).trans (if_neg other))
    · exact State.applyChannel_disabled (s := s.validFrame p) off on
    · exact State.applyChannel_enabled (s := s.validFrame p) on off
    · have put : (s.validFrame p).applyChannel c (itemsApplied ((s.validFrame p).cfg c) x)
          = (s.validFrame p).putCfg c (itemsApplied ((s.validFrame p).cfg c) x) := if_pos same
      rw [put]
      exact (request_only ((s.validFrame p).putCfg_only c _) _).mono (by simp [requestParts])
    · intro q hq
      simp only [List.mem_cons, List.mem_append] at hq ⊢
      tauto
  · exact onlyAnswered_of (tag := tag) rfl take ((owned_record (tag := tag) (w := x) names (s.validFrame p)).trans
      ((State.configureChannel_decided (s := s.validFrame p) free).trans (if_pos off)))
  · have here : ¬ (s.validFrame p).isMain c = false := by rw [show (s.validFrame p).isMain c = true from main]; decide
    refine onlyAnswered_of (tag := tag) rfl take ((owned_record (tag := tag) (w := x) names (s.validFrame p)).trans
      ((State.configureChannel_decided (s := s.validFrame p) free).trans ((if_neg here).trans (if_pos ?_))))
    exact bad.imp (fun illegal => Bool.eq_false_iff.mpr fun ok => illegal (itemsOk_iff.mp ok)) id
  · exact onlyAnswered_of (tag := tag) rfl take ((owned_record (tag := tag) (w := w) names (s.validFrame p)).trans (if_pos saving))
  · exact onlyAnswered_of (tag := tag) (owner := owned (.formed tag x) fun x s => s.configurePortsRequest x) rfl take (if_pos saving)
  · exact onlyAnswered_of (tag := tag) (owner := owned (.formed tag y) fun x s => s.configureScanRequest x) rfl take (if_pos saving)
  · exact onlyAnswered_of (tag := tag) (owner := owned (.formed tag z) fun x s => s.alarmMaskRequest x) rfl take (if_pos saving)
  · exact onlyAnswered_of (tag := tag) (owner := owned (.formed tag ()) fun _ s => s.saveRequest) rfl take (if_pos saving)

end Sys2Proof.Machine

namespace Sys2Proof.Machine

/-! # Fields decode as encoded (R190) -/

theorem u16_bytes16 (w : BitVec 16) : u16 (w.extractLsb' 8 8) (w.extractLsb' 0 8) = w := by
  unfold u16
  ext i hi
  simp only [BitVec.getElem_append, BitVec.getElem_extractLsb']
  split
  · simp [← BitVec.getLsbD_eq_getElem]
  · rw [← BitVec.getLsbD_eq_getElem]
    congr 1
    omega

theorem u24_bytes24 (w : BitVec 24) : u24 (w.extractLsb' 16 8) (w.extractLsb' 8 8) (w.extractLsb' 0 8) = w := by
  unfold u24
  ext i hi
  simp only [BitVec.getElem_append, BitVec.getElem_extractLsb']
  split
  · simp [← BitVec.getLsbD_eq_getElem]
  · split <;> rw [← BitVec.getLsbD_eq_getElem] <;> congr 1 <;> omega

theorem u32_bytes32 (w : BitVec 32) :
    u32 (w.extractLsb' 24 8) (w.extractLsb' 16 8) (w.extractLsb' 8 8) (w.extractLsb' 0 8) = w := by
  unfold u32
  ext i hi
  simp only [BitVec.getElem_append, BitVec.getElem_extractLsb']
  split
  · split <;> rw [← BitVec.getLsbD_eq_getElem] <;> congr 1 <;> omega
  · split <;> rw [← BitVec.getLsbD_eq_getElem] <;> congr 1 <;> omega

@[simp] theorem take8_byte (b : Byte) (rest : List Byte) : take8 (b :: rest) = some (b, rest) := rfl

@[simp] theorem take16_bytes (w : BitVec 16) (rest : List Byte) : take16 (bytes16 w ++ rest) = some (w, rest) :=
  congrArg (fun x => some (x, rest)) (u16_bytes16 w)

@[simp] theorem take16_all (w : BitVec 16) : take16 (bytes16 w) = some (w, []) := take16_bytes w []

@[simp] theorem take24_bytes (w : BitVec 24) (rest : List Byte) : take24 (bytes24 w ++ rest) = some (w, rest) :=
  congrArg (fun x => some (x, rest)) (u24_bytes24 w)

@[simp] theorem take32_bytes (w : BitVec 32) (rest : List Byte) : take32 (bytes32 w ++ rest) = some (w, rest) :=
  congrArg (fun x => some (x, rest)) (u32_bytes32 w)

@[simp] theorem takeTime_bytes (t : TimeBytes) (rest : List Byte) : takeTime (timeBytes t ++ rest) = some (t, rest) := rfl

theorem takeOptional_bytes {α : Type} {p : List Byte → Option (α × List Byte)} {enc : α → List Byte}
    (reads : ∀ x rest, p (enc x ++ rest) = some (x, rest)) (v : Option α) (rest : List Byte) :
    takeOptional p (optional enc v ++ rest) = some (v, rest) := by
  cases v with
  | none => rfl
  | some x =>
    show (match p (enc x ++ rest) with | some (x, r) => some (some x, r) | none => none) = _
    rw [reads]

@[simp] theorem takeOptional_byte (v : Option Byte) (rest : List Byte) : takeOptional take8 (opt8 v ++ rest) = some (v, rest) :=
  takeOptional_bytes (fun _ _ => rfl) v rest

@[simp] theorem takeOptional_word (v : Option (BitVec 16)) (rest : List Byte) : takeOptional take16 (opt16 v ++ rest) = some (v, rest) :=
  takeOptional_bytes take16_bytes v rest

@[simp] theorem takeIf_byte (v : Option Byte) (rest : List Byte) : takeIf v.isSome take8 (v.toList ++ rest) = some (v, rest) := by
  cases v <;> rfl

@[simp] theorem takeIf_word (v : Option (BitVec 16)) (rest : List Byte) :
    takeIf v.isSome take16 (v.toList.flatMap bytes16 ++ rest) = some (v, rest) := by
  cases v with
  | none => rfl
  | some w =>
    show (match take16 (bytes16 w ++ rest) with | some (x, r) => some (some x, r) | none => none) = _
    rw [take16_bytes]

theorem takeBytes_append (xs rest : List Byte) : takeBytes xs.length (xs ++ rest) = some (xs, rest) := by
  induction xs with
  | nil => rfl
  | cons x xs ih =>
    show (match takeBytes xs.length (xs ++ rest) with | some (y, r) => some (x :: y, r) | none => none) = _
    rw [ih]

/-- A form that is read off the front of any bytes is the whole of its own bytes. -/
theorem whole_of_reads {α : Type} {p : List Byte → Option (α × List Byte)} {bs : List Byte} {x : α}
    (reads : ∀ rest, p (bs ++ rest) = some (x, rest)) : whole p bs = some x := by
  have all := reads []
  rw [List.append_nil] at all
  rw [whole, all]

/-! # Replication frames and heartbeats (10.2) -/

theorem nat8_toNat {n : Nat} (fits : n ≤ 255) : (BitVec.ofNat 8 n).toNat = n := toNat_ofNat_le fits (by decide)

theorem takeRecord_bytes {r : EventRecord} (fits : r.clipId.length ≤ 255) (rest : List Byte) :
    takeRecord (recordBytes r ++ rest) = some (r, rest) := by
  have start (bs : List Byte) := takeOptional_bytes takeTime_bytes r.start bs
  have trim (bs : List Byte) := takeOptional_bytes take24_bytes r.trim bs
  have live (bs : List Byte) := takeOptional_bytes (p := take8) (enc := fun b => [b]) (fun _ _ => rfl) r.live bs
  unfold takeRecord recordBytes
  simp only [List.append_assoc, List.cons_append, List.nil_append, take32_bytes, Option.bind_eq_bind, Option.bind_some, take8_byte, start, trim,
    live, nat8, nat8_toNat fits, takeBytes_append]

theorem takeEdit_bytes {op : EditOp} (fits : clipsFit (.replication 0 0 (.edit op))) (rest : List Byte) :
    takeEdit (editBytes op ++ rest) = some (op, rest) := by
  unfold takeEdit
  cases op with
  | insertAfter id r =>
    simp [editBytes, takeRecord_bytes (r := r) fits]
  | replace id r =>
    simp [editBytes, takeRecord_bytes (r := r) fits]
  | delete id => simp [editBytes]

theorem takeFeedBody_bytes {b : FeedBody} (fits : clipsFit (.replication 0 0 b)) :
    takeFeedBody (feedBodyBytes b).1 (feedBodyBytes b).2 = some b := by
  cases b with
  | listBegin serial day n =>
    simp [takeFeedBody, feedBodyBytes, whole]
  | event r => exact congrArg (Option.map FeedBody.event) (whole_of_reads (takeRecord_bytes (r := r) fits))
  | listEnd serial n =>
    simp [takeFeedBody, feedBodyBytes, whole]
  | listAbort => rfl
  | edit op => exact congrArg (Option.map FeedBody.edit) (whole_of_reads (takeEdit_bytes (op := op) fits))
  | flip t => exact congrArg (Option.map FeedBody.flip) (whole_of_reads (takeTime_bytes t))

/-! ## Heartbeats -/

theorem takeItem_bytes (x : HeartbeatItem) (rest : List Byte) :
    takeItem (statusByte x :: bytes32 x.onAir ++ rest) = some (x, rest) := by
  have air : airOf (statusByte x) = x.air := by
    cases h : x.air <;> cases r : x.resumeReady <;> simp only [statusByte, h, r] <;> decide
  have resume : (statusByte x).getLsbD 2 = x.resumeReady := by
    cases h : x.air <;> cases r : x.resumeReady <;> simp only [statusByte, h, r] <;> decide
  simp only [takeItem, List.cons_append, take8_byte, take32_bytes, Option.bind_eq_bind, Option.bind_some, air, resume]

theorem takeItems_bytes (xs : List HeartbeatItem) (rest : List Byte) :
    takeItems xs.length ((xs.flatMap fun x => statusByte x :: bytes32 x.onAir) ++ rest) = some (xs, rest) := by
  induction xs with
  | nil => rfl
  | cons x xs ih =>
    have first := takeItem_bytes x ((xs.flatMap fun x => statusByte x :: bytes32 x.onAir) ++ rest)
    simp only [List.length_cons, takeItems, List.flatMap_cons, List.append_assoc, first, Option.bind_eq_bind, Option.bind_some, ih]

theorem takeHeartbeat_bytes (h : Heartbeat) (rest : List Byte) :
    takeHeartbeat (bytes32 h.stamp ++ h.format :: (PerChannel.list h.items).flatMap (fun x => statusByte x :: bytes32 x.onAir) ++ rest)
      = some (h, rest) := by
  have twelve : (PerChannel.list h.items).length = 12 := by simp [PerChannel.list]
  have items := takeItems_bytes (PerChannel.list h.items) rest
  rw [twelve] at items
  unfold takeHeartbeat
  simp only [List.append_assoc, List.cons_append, take32_bytes, Option.bind_eq_bind, Option.bind_some, take8_byte, items, twelve, dite_true]
  rfl

theorem channelOf_ofNat (c : Channel) : channelOf (BitVec.ofNat 8 c.val) = some c :=
  channelOf_of_lt (nat8_toNat (by omega))

/-- Settles O60: a heartbeat by its items, a replication frame by its body. -/
theorem feedFramesDecodeAsEncoded : Obligations.FeedFramesDecodeAsEncoded := by
  intro x fits
  cases x with
  | heartbeat h => exact congrArg (Option.map FeedFrame.heartbeat) (whole_of_reads (takeHeartbeat_bytes h))
  | replication c seq b =>
    have body : takeFeedBody (feedBodyBytes b).1 (feedBodyBytes b).2 = some b := takeFeedBody_bytes (by
      cases b with
      | edit op => cases op <;> exact fits
      | _ => exact fits)
    have other : (feedBodyBytes b).1 ≠ 0x08 := by cases b <;> simp [feedBodyBytes]
    show feedFrame (feedBodyBytes b).1 (BitVec.ofNat 8 c.val :: (bytes16 seq ++ (feedBodyBytes b).2)) = _
    unfold feedFrame
    rw [if_neg other]
    simp only [bytes16, List.cons_append, List.nil_append, channelOf_ofNat, body, u16_bytes16]

end Sys2Proof.Machine

namespace Sys2Proof.Machine

/-! # The presence mask of a channel settings record (R194) -/

/-- The mask of a list of items, the first of them at bit 0. -/
def presenceMask (present : List Bool) : Nat := present.foldr Nat.bit 0

theorem testBit_presenceMask (present : List Bool) (i : Nat) : (presenceMask present).testBit i = present[i]?.getD false := by
  induction present generalizing i with
  | nil => simp [presenceMask]
  | cons b bs ih =>
    cases i with
    | zero => exact Nat.testBit_bit_zero b _
    | succ i => exact (Nat.testBit_bit_succ i b _).trans (ih i)

theorem getLsbD_presenceMask {present : List Bool} (short : present.length ≤ 16) (i : Nat) :
    (BitVec.ofNat 16 (presenceMask present)).getLsbD i = present[i]?.getD false := by
  rw [BitVec.getLsbD_ofNat, testBit_presenceMask]
  by_cases low : i < 16
  · rw [decide_eq_true low, Bool.true_and]
  · rw [decide_eq_false low, Bool.false_and, List.getElem?_eq_none (by omega)]
    rfl

/-- Which items of a record are present, in their order. -/
def itemsPresent (x : ChannelItems) : List Bool :=
  [x.enable.isSome, x.policy.isSome, x.destination.isSome, x.mainSource.isSome, x.filler.isSome, x.addressA.isSome, x.sourceA.isSome,
    x.addressB.isSome, x.sourceB.isSome, x.cueLead.isSome, x.minRemain.isSome, x.threshold.isSome, x.absenceCount.isSome, x.confirm.isSome,
    x.tallyPolarity.isSome]

theorem bit_toNat (b : Bool) (i : Nat) : (if b then 2 ^ i else 0) = b.toNat * 2 ^ i := by cases b <;> simp

theorem itemsRecordBytes_eq (x : ChannelItems) : itemsRecordBytes x =
    bytes16 (BitVec.ofNat 16 (presenceMask (itemsPresent x))) ++ x.enable.toList ++ x.policy.toList ++ x.destination.toList
      ++ x.mainSource.toList.flatMap bytes16 ++ x.filler.toList.flatMap bytes16 ++ x.addressA.toList ++ x.sourceA.toList.flatMap bytes16
      ++ x.addressB.toList ++ x.sourceB.toList.flatMap bytes16 ++ x.cueLead.toList ++ x.minRemain.toList
      ++ x.threshold.toList.flatMap bytes16 ++ x.absenceCount.toList ++ x.confirm.toList.flatMap bytes16 ++ x.tallyPolarity.toList := by
  unfold itemsRecordBytes nat16
  simp only [bit_toNat, presenceMask, itemsPresent, List.foldr_cons, List.foldr_nil, Nat.bit_val]
  congr 17
  ring

theorem bind_byte {β : Type} {present : Bool} {v : Option Byte} (held : present = v.isSome) (rest : List Byte)
    (k : Option Byte × List Byte → Option β) : (takeIf present take8 (v.toList ++ rest) >>= k) = k (v, rest) := by
  rw [held, takeIf_byte]
  rfl

theorem bind_word {β : Type} {present : Bool} {v : Option (BitVec 16)} (held : present = v.isSome) (rest : List Byte)
    (k : Option (BitVec 16) × List Byte → Option β) : (takeIf present take16 (v.toList.flatMap bytes16 ++ rest) >>= k) = k (v, rest) := by
  rw [held, takeIf_word]
  rfl

theorem takeItemsRecord_bytes (x : ChannelItems) (rest : List Byte) : takeItemsRecord (itemsRecordBytes x ++ rest) = some (x, rest) := by
  have bits (i : Nat) : (BitVec.ofNat 16 (presenceMask (itemsPresent x))).getLsbD i = (itemsPresent x)[i]?.getD false :=
    getLsbD_presenceMask (by simp [itemsPresent]) i
  rw [itemsRecordBytes_eq]
  simp only [List.append_assoc]
  unfold takeItemsRecord
  rw [take16_bytes]
  refine (if_neg (by rw [bits 15]; exact Bool.false_ne_true)).trans ?_
  exact (bind_byte (bits 0) _ _).trans <|
    (bind_byte (bits 1) _ _).trans <|
    (bind_byte (bits 2) _ _).trans <|
    (bind_word (bits 3) _ _).trans <|
    (bind_word (bits 4) _ _).trans <|
    (bind_byte (bits 5) _ _).trans <|
    (bind_word (bits 6) _ _).trans <|
    (bind_byte (bits 7) _ _).trans <|
    (bind_word (bits 8) _ _).trans <|
    (bind_byte (bits 9) _ _).trans <|
    (bind_byte (bits 10) _ _).trans <|
    (bind_word (bits 11) _ _).trans <|
    (bind_byte (bits 12) _ _).trans <|
    (bind_word (bits 13) _ _).trans <|
    (bind_byte (bits 14) _ _).trans rfl

/-! # Site requests (10.3) -/

theorem takeNames_bytes (xs : List FlagName) (rest : List Byte) :
    takeNames xs.length ((xs.flatMap fun n => [n.kind, n.channel]) ++ rest) = some (xs, rest) := by
  induction xs with
  | nil => rfl
  | cons n xs ih =>
    simp only [List.length_cons, takeNames, List.flatMap_cons, List.cons_append, List.nil_append, take8_byte,
      Option.bind_eq_bind, Option.bind_some, ih]

theorem takeClearFlags_bytes {xs : List FlagName} (fits : xs.length ≤ 254) (rest : List Byte) :
    takeClearFlags ((nat16 xs.length ++ xs.flatMap fun n => [n.kind, n.channel]) ++ rest) = some (xs, rest) := by
  have count : (BitVec.ofNat 16 xs.length).toNat = xs.length := toNat_ofNat_le fits (by decide)
  unfold takeClearFlags nat16
  rw [List.append_assoc, take16_bytes]
  simp only [Option.bind_eq_bind, Option.bind_some, count, takeNames_bytes]

theorem requestOf_whole {α : Type} {parse : List Byte → Option (α × List Byte)} {bs : List Byte} {x : α} (reads : whole parse bs = some x)
    (tag : Tag) : requestOf parse tag bs = .formed tag x := by
  rw [requestOf, reads]

theorem siteCommand_tagged (q : SitePort) (code : Byte) (tag : Tag) (rest : List Byte) :
    siteCommand q code (bytes16 tag ++ rest) = siteRequest q code tag rest :=
  congrArg (fun t => siteRequest q code t rest) (u16_bytes16 tag)

/-- A command is spelled by a code and a body: they are decoded to it at some port, and at every port to a command that they spell. -/
def spelledBy (i : Instr) (code : Byte) (body : List Byte) : Prop :=
  (∃ p, siteCommand p code body = i) ∧ ∀ q, siteBytes (siteCommand q code body) = some (code, body)

/-- A request that has a code and a form of its own is spelled by its encoding, where its fields are read off their bytes. -/
theorem spelledBy_of_form {α : Type} {p : SitePort} {r : Request α} (mk : SitePort → Request α → Instr) {own code : Byte} {body : List Byte}
    {parse : List Byte → Option (α × List Byte)} {enc : α → List Byte}
    (decodes : ∀ q tag rest, siteRequest q own tag rest = mk q (requestOf parse tag rest))
    (encodes : ∀ q r, siteBytes (mk q r) = (formedBody enc r).map (own, ·))
    (reads : ∀ tag x, r = .formed tag x → ∀ rest, parse (enc x ++ rest) = some (x, rest))
    (spelled : siteBytes (mk p r) = some (code, body)) : spelledBy (mk p r) code body := by
  cases r with
  | malformed tag => rw [encodes] at spelled; cases spelled
  | formed tag x =>
    rw [encodes] at spelled
    obtain ⟨rfl, rfl⟩ := Prod.mk.inj (Option.some.inj spelled)
    have decoded (q : SitePort) : siteCommand q own (bytes16 tag ++ enc x) = mk q (.formed tag x) := by
      rw [siteCommand_tagged, decodes, requestOf_whole (whole_of_reads (reads tag x rfl))]
    exact ⟨⟨p, decoded p⟩, fun q => by rw [decoded q, encodes]; rfl⟩

theorem takeRequest_byte (q : SitePort) (tag : Tag) (ch : Byte) :
    siteRequest q 0x25 tag [ch] = if ch = 0xFF then .takeAll q tag else .take q (.formed tag ch) := rfl

/-- TAKE shares its code with TAKE ALL, which the channel byte FFh names. -/
theorem spelledBy_take {p : SitePort} {tag : Tag} {ch : Byte} (one : ch ≠ 0xFF) :
    spelledBy (.take p (.formed tag ch)) 0x25 (bytes16 tag ++ [ch]) := by
  have decoded (q : SitePort) : siteCommand q 0x25 (bytes16 tag ++ [ch]) = .take q (.formed tag ch) := by
    rw [siteCommand_tagged, takeRequest_byte, if_neg one]
  exact ⟨⟨p, decoded p⟩, fun q => by rw [decoded q]; rfl⟩

theorem spelledBy_takeAll (p : SitePort) (tag : Tag) : spelledBy (.takeAll p tag) 0x25 (bytes16 tag ++ [0xFF]) := by
  have decoded (q : SitePort) : siteCommand q 0x25 (bytes16 tag ++ [0xFF]) = .takeAll q tag := by
    rw [siteCommand_tagged, takeRequest_byte, if_pos rfl]
  exact ⟨⟨p, decoded p⟩, fun q => by rw [decoded q]; rfl⟩

/-- Settles O59: each form is read off the front of its own bytes. -/
theorem siteRequestsDecodeAsEncoded : Obligations.SiteRequestsDecodeAsEncoded := by
  intro i code body formed spelled
  cases i with
  | status p r => exact spelledBy_of_form .status (fun _ _ _ => rfl) (fun _ _ => rfl) (fun _ _ _ _ => rfl) spelled
  | channel p r => exact spelledBy_of_form .channel (fun _ _ _ => rfl) (fun _ _ => rfl) (fun _ _ _ _ => rfl) spelled
  | eventRead p r => exact spelledBy_of_form .eventRead (fun _ _ _ => rfl) (fun _ _ => rfl) (fun _ x _ rest => by simp [takeEventRead]) spelled
  | clock p r => exact spelledBy_of_form .clock (fun _ _ _ => rfl) (fun _ _ => rfl) (fun _ _ _ _ => rfl) spelled
  | flags p r => exact spelledBy_of_form .flags (fun _ _ _ => rfl) (fun _ _ => rfl) (fun _ _ _ _ => rfl) spelled
  | take p r =>
    cases r with
    | malformed tag => cases spelled
    | formed tag ch =>
      obtain ⟨rfl, rfl⟩ := Prod.mk.inj (Option.some.inj spelled)
      exact spelledBy_take (bne_iff_ne.mp formed)
  | takeAll p tag =>
    obtain ⟨rfl, rfl⟩ := Prod.mk.inj (Option.some.inj spelled)
    exact spelledBy_takeAll p tag
  | cancel p r => exact spelledBy_of_form .cancel (fun _ _ _ => rfl) (fun _ _ => rfl) (fun _ _ _ _ => rfl) spelled
  | hold p r => exact spelledBy_of_form .hold (fun _ _ _ => rfl) (fun _ _ => rfl) (fun _ _ _ _ => rfl) spelled
  | release p r => exact spelledBy_of_form .release (fun _ _ _ => rfl) (fun _ _ => rfl) (fun _ _ _ _ => rfl) spelled
  | returnToMain p r =>
    exact spelledBy_of_form .returnToMain (fun _ _ _ => rfl) (fun _ _ => rfl) (fun _ x _ rest => by simp [takeReturn]) spelled
  | route p r => exact spelledBy_of_form .route (fun _ _ _ => rfl) (fun _ _ => rfl) (fun _ x _ rest => by simp [takeRoute]) spelled
  | setTime p r => exact spelledBy_of_form .setTime (fun _ _ _ => rfl) (fun _ _ => rfl) (fun _ x _ rest => takeTime_bytes x rest) spelled
  | configureChannel p r =>
    exact spelledBy_of_form .configureChannel (fun _ _ _ => rfl) (fun _ _ => rfl)
      (fun _ x _ rest => by simp [takeConfigureChannel, takeItemsRecord_bytes]) spelled
  | configureCadence p r =>
    exact spelledBy_of_form .configureCadence (fun _ _ _ => rfl) (fun _ _ => rfl) (fun _ x _ rest => by simp [takeCadence]) spelled
  | configurePorts p r =>
    exact spelledBy_of_form .configurePorts (fun _ _ _ => rfl) (fun _ _ => rfl) (fun _ x _ rest => by simp [takePorts]) spelled
  | configureScan p r =>
    exact spelledBy_of_form .configureScan (fun _ _ _ => rfl) (fun _ _ => rfl) (fun _ x _ rest => by simp [takeScan]) spelled
  | scanStart p r => exact spelledBy_of_form .scanStart (fun _ _ _ => rfl) (fun _ _ => rfl) (fun _ _ _ _ => rfl) spelled
  | scanStop p r => exact spelledBy_of_form .scanStop (fun _ _ _ => rfl) (fun _ _ => rfl) (fun _ _ _ _ => rfl) spelled
  | feedEnable p r =>
    exact spelledBy_of_form .feedEnable (fun _ _ _ => rfl) (fun _ _ => rfl) (fun _ x _ rest => by simp [takeFeedEnable]) spelled
  | clearChannel p r => exact spelledBy_of_form .clearChannel (fun _ _ _ => rfl) (fun _ _ => rfl) (fun _ _ _ _ => rfl) spelled
  | clearFlags p r =>
    refine spelledBy_of_form .clearFlags (fun _ _ _ => rfl) (fun _ _ => rfl) (fun tag x held rest => takeClearFlags_bytes ?_ rest) spelled
    subst held
    exact of_decide_eq_true formed
  | setNoticeMask p r => exact spelledBy_of_form .setNoticeMask (fun _ _ _ => rfl) (fun _ _ => rfl) (fun _ x _ rest => take32_bytes x rest) spelled
  | setAlarmMask p r =>
    exact spelledBy_of_form .setAlarmMask (fun _ _ _ => rfl) (fun _ _ => rfl) (fun _ x _ rest => by simp [takeAlarmMask]) spelled
  | save p r => exact spelledBy_of_form .save (fun _ _ _ => rfl) (fun _ _ => rfl) (fun _ _ _ _ => rfl) spelled
  | keepalive p r => exact spelledBy_of_form .keepalive (fun _ _ _ => rfl) (fun _ _ => rfl) (fun _ _ _ _ => rfl) spelled
  | _ => cases spelled

end Sys2Proof.Machine

namespace Sys2Proof.Machine

/-! # What every step keeps -/

/-- A condition on the state that reads certain parts of it: it carries over to every state that agrees on them. -/
def ReadsOnly (reads : Part → Prop) (P : State → Prop) : Prop := ∀ s t, (∀ q, reads q → q.same s t) → P s → P t

theorem readsOnly_keeps {reads : Part → Prop} {P : State → Prop} (frame : ReadsOnly reads P) {ps : List Part} {s t : State}
    (only : OnlyChanges ps s t) (free : ∀ q, reads q → q ∉ ps) (h : P s) : P t :=
  frame s t (fun q hq => only q (free q hq)) h

theorem exec_keeps {reads : Part → Prop} {P : State → Prop} (frame : ReadsOnly reads P) {i : Instr} {s t : State}
    (free : ∀ q, reads q → q ∉ i.reach) (run : exec i s = .next t) (h : P s) : P t :=
  readsOnly_keeps frame (exec_only run) free h

theorem whenRunning_keeps {P : State → Prop} {s t : State} {f : State → State} (run : whenRunning s f = .next t)
    (act : P s → P (f s)) (h : P s) : P t := by
  rcases whenRunning_cases run with rfl | rfl
  · exact act h
  · exact h

/-- A request keeps a condition that the taking of its frame, its owner and the queueing of its answer keep. -/
theorem asked_keeps {P : State → Prop} {i : Instr} {p : SitePort} {code : Byte} {tag : Tag} {ps : List Part} {owner : State → Verdict}
    {s t : State} (run : exec i s = .next t) (ask : askingOf i = some ⟨p, code, tag, ps, owner⟩)
    (taken : ∀ s p, P s → P (s.validFrame p)) (decided : ∀ s, P s → P (owner s).state) (answer : ∀ s p x, P s → P (s.queueAnswer p x))
    (h : P s) : P t := by
  rw [exec_asking ask] at run
  refine whenRunning_keeps run (fun h => ?_) h
  unfold Asking.result State.answerBy
  dsimp only
  split
  · exact answer _ _ _ (decided _ (taken _ _ h))
  · exact taken _ _ h

theorem takeKind_keeps {P : State → Prop} {k : FeedKind} (dropped : ∀ s p, P s → P (s.dropHead p))
    (handled : ∀ s q, q.frame.kind = k → P s → P (s.handleFrame q)) {s t : State} (run : whenRunning s (fun s => s.takeKind k) = .next t)
    (h : P s) : P t := by
  refine whenRunning_keeps run (fun h => ?_) h
  unfold State.takeKind
  split
  · next p q _ =>
    split
    · next here => exact handled _ _ here.2 (dropped _ _ h)
    · exact h
  · exact h

/-- A step keeps a condition that every command keeps, and an abandoned frame and a line period with them, where it reads nothing of the
queue of commands, the input levels, the bytes to come and the receive stages. -/
theorem step_keeps {reads : Part → Prop} {P : State → Prop} (frame : ReadsOnly reads P)
    (outside : ∀ q, reads q → q ∉ [Part.pins, .incoming, .rx, .pending]) (abandon : ∀ s l, P s → P (s.abandonPartial l))
    (tick : ∀ s, P s → P s.lineTick) (command : ∀ i s t, exec i s = .next t → P s → P t) {s t : State} (run : step s = .next t) (h : P s) :
    P t := by
  have around {u : State} (only : OnlyChanges [.pins, .incoming, .rx, .pending] s u) : P u := readsOnly_keeps frame only outside h
  unfold step at run
  split at run
  · next i rest _ =>
    exact command _ _ _ run (around (u := { s with pending := rest }) fun q hq => by cases q <;> first | rfl | simp at hq)
  · unfold idle at run
    split at run
    · unfold idleHeld at run
      dsimp only at run
      split at run
      · next rest _ =>
        cases run
        exact around fun q hq => by cases q <;> first | rfl | simp at hq
      · have line : P { s with pins := s.pins.nextLine } := around fun q hq => by cases q <;> first | rfl | simp at hq
        split at run
        · cases run
          exact line
        · exact command _ _ _ run line
    · split at run
      · exact command _ _ _ run h
      · next l b rest _ _ =>
        have received : P { s with incoming := rest, rx := s.rx.put l ((s.rx.get l).byte b).1 } :=
          around fun q hq => by cases q <;> first | rfl | simp at hq
        unfold State.takeByte at run
        dsimp only at run
        split at run
        · cases run
          exact received
        · cases run
          exact abandon _ _ received
        · split at run
          · exact command _ _ _ run received
          · cases run
            exact received
      · cases run
        exact tick _ h

/-! # The settings (R171, R180, R181) -/

theorem settingsLegal_iff {s : State} : s.SettingsLegal ↔ SettingsRanges s.live := settingsValid_iff

theorem settingsLegal_reads : ReadsOnly (· = .settings) State.SettingsLegal := fun s t same h => by
  have live : t.live = s.live := same .settings rfl
  rw [State.SettingsLegal, live]
  exact h

theorem validBank_valid {k : Option Bank} {x : Bank} (held : validBank k = some x) : imageValid x.image = true := by
  cases k with
  | none => cases held
  | some y =>
    by_cases valid : imageValid y.image = true
    · rw [validBank_of_valid valid] at held
      exact Option.some.inj held ▸ valid
    · rw [validBank_of_invalid fun z hz => by rw [← Option.some.inj hz]; exact Bool.eq_false_iff.mpr valid] at held
      cases held

theorem chooseBank_valid {banks : PerSide (Option Bank)} {b : BankId} {x : Bank} (chosen : chooseBank banks = some (b, x)) :
    imageValid x.image = true := by
  unfold chooseBank at chosen
  split at chosen
  · next held other =>
    split at chosen
    · exact (Prod.mk.inj (Option.some.inj chosen)).2 ▸ validBank_valid other
    · exact (Prod.mk.inj (Option.some.inj chosen)).2 ▸ validBank_valid held
  · next held _ => exact (Prod.mk.inj (Option.some.inj chosen)).2 ▸ validBank_valid held
  · next _ held => exact (Prod.mk.inj (Option.some.inj chosen)).2 ▸ validBank_valid held
  · cases chosen

/-- R184: a reset loads settings that are within their ranges. -/
theorem loadedSettings_ranges (banks : PerSide (Option Bank)) : SettingsRanges (loadedSettings banks) := by
  unfold loadedSettings
  split
  · next chosen =>
    have valid := chooseBank_valid chosen
    rw [imageValid, Bool.and_eq_true] at valid
    exact settingsValid_iff.mp valid.2
  · exact settingsValid_iff.mp (by decide)

theorem timing_bounds {lo hi : Nat} (order : lo ≤ hi) (v : Option Nat) {old : Nat} (old_in : lo ≤ old ∧ old ≤ hi) :
    lo ≤ timing lo hi v old ∧ timing lo hi v old ≤ hi := by
  cases v with
  | none => exact old_in
  | some x => exact clamp_bounds order x

theorem State.putPorts_ranges {s : State} (r : SettingsRanges s.live) (x : PortItems) : SettingsRanges (s.putPorts x).live :=
  { r with
    hbTimeout := timing_bounds (by decide) _ r.hbTimeout
    feedDelay := (timing_bounds (by decide) _ ⟨Nat.zero_le _, r.feedDelay⟩).2
    siteTimeout := timing_bounds (by decide) _ r.siteTimeout
    replyTimeout := timing_bounds (by decide) _ r.replyTimeout }

theorem State.putScanItems_ranges {s : State} (r : SettingsRanges s.live) (x : ScanItems) : SettingsRanges (s.putScanItems x).live :=
  { r with scanResolution := timing_bounds (by decide) _ r.scanResolution }

theorem State.putAlarm_ranges {s : State} (r : SettingsRanges s.live) {x : AlarmMaskFields} (valid : kindMaskValid x.mask = true) :
    SettingsRanges (s.putAlarm x).live := { r with alarmMask := kindMaskValid_iff.mp valid }

/-- R181: the values that a request may carry keep a channel's settings within their ranges. -/
theorem itemsApplied_ranges {k : ChannelSettings} {x : ChannelItems} (r : ChannelRanges k) (legal : itemsLegal x)
    (apart : (itemsApplied k x).players.a.address ≠ (itemsApplied k x).players.b.address) : ChannelRanges (itemsApplied k x) := by
  obtain ⟨-, -, destination, mainSource, filler, address, source, -⟩ := legal
  refine ⟨?_, ?_, fun y held => ?_, ?_, ?_, ?_, ?_, apart, ?_, ?_, ?_, ?_, ?_⟩
  all_goals simp only [itemsApplied] at *
  · split
    · next v h => exact destination v h
    · exact r.destination
  · split
    · next v h => exact mainSource v h
    · exact r.mainSource
  · split at held
    · next v h =>
      split at held
      · cases held
      · next named =>
        cases held
        exact (filler v h).resolve_right named
    · exact r.filler y held
  · split
    · next v h => exact address v (.inl h)
    · exact r.addressA
  · split
    · next v h => exact source v (.inl h)
    · exact r.sourceA
  · split
    · next v h => exact address v (.inr h)
    · exact r.addressB
  · split
    · next v h => exact source v (.inr h)
    · exact r.sourceB
  · split
    · omega
    · exact r.cueLead
  · split
    · omega
    · exact r.minRemain
  · split
    · omega
    · exact r.threshold
  · split
    · omega
    · exact r.absenceCount
  · split
    · omega
    · exact r.confirm

theorem State.putCfg_ranges {s : State} {c : Channel} {k : ChannelSettings} (r : SettingsRanges s.live) (own : ChannelRanges k) :
    SettingsRanges (s.putCfg c k).live :=
  { r with
    channel := fun d => by
      have at_ : (s.putCfg c k).live.channel[d] = if d = c then k else s.live.channel[d] := s.cfg_putCfg c d k
      rw [at_]
      split
      · exact own
      · exact r.channel d }

theorem State.configureChannel_legal {s : State} (h : s.SettingsLegal) (c : Channel) (x : ChannelItems) :
    (s.configureChannelRequest c x).state.SettingsLegal := by
  have r := settingsLegal_iff.mp h
  unfold State.configureChannelRequest
  dsimp only
  rw [applyItems_eq]
  split
  · exact h
  · split
    · exact h
    · split
      · exact h
      · next good =>
        rw [Bool.or_eq_true, not_or, Bool.not_eq_true', Bool.not_eq_false, beq_iff_eq] at good
        refine settingsLegal_iff.mpr ?_
        show SettingsRanges (s.applyChannel c (itemsApplied (s.cfg c) x)).live
        rw [State.applyChannel_live]
        exact State.putCfg_ranges r (itemsApplied_ranges (r.channel c) (itemsOk_iff.mp good.1) good.2)

theorem State.configureCadence_legal {s : State} (h : s.SettingsLegal) (x : CadenceItems) :
    (s.configureCadenceRequest x).state.SettingsLegal := by
  have r := settingsLegal_iff.mp h
  have base : 2 ≤ (s.windowBase (formatCarried x)).1 ∧ (s.windowBase (formatCarried x)).1 ≤ 20
      ∧ 2 ≤ (s.windowBase (formatCarried x)).2 ∧ (s.windowBase (formatCarried x)).2 ≤ 20 := by
    unfold State.windowBase
    split
    · next f _ => cases f <;> decide
    · exact ⟨r.swFirst, Nat.le_trans r.window r.swLast, Nat.le_trans r.swFirst r.window, r.swLast⟩
  have first := timing_bounds (lo := 2) (hi := 20) (by decide) (num8 x.swFirst) ⟨base.1, base.2.1⟩
  have last := timing_bounds (lo := 2) (hi := 20) (by decide) (num8 x.swLast) base.2.2
  rw [State.configureCadence_decided]
  split
  · exact h
  · split
    · exact h
    · split
      · exact h
      · split
        · exact h
        · next order =>
          have window : (s.windowAsked x).1 ≤ (s.windowAsked x).2 := Nat.not_lt.mp order
          have format : SettingsRanges (s.takeFormat (formatCarried x)).live := by
            unfold State.takeFormat
            split
            · split
              · exact r
              · next f _ _ =>
                rw [(s.changeFormat_reformatted f).live]
                exact { r with }
            · exact r
          exact settingsLegal_iff.mpr { format with swFirst := first.1, swLast := last.2, window := window }

theorem State.applyScan_legal {s : State} (h : s.SettingsLegal) (x : ScanItems) : (s.applyScan x).SettingsLegal := by
  rw [settingsLegal_iff, State.applyScan_live]
  exact State.putScanItems_ranges (settingsLegal_iff.mp h) x

theorem exec_settingsLegal {i : Instr} {s t : State} (run : exec i s = .next t) (h : s.SettingsLegal) : t.SettingsLegal := by
  have taken (s : State) (p : SitePort) (h : s.SettingsLegal) : (s.validFrame p).SettingsLegal := h
  have answer (s : State) (p : SitePort) (x : Answer) (h : s.SettingsLegal) : (s.queueAnswer p x).SettingsLegal := h
  have free {ps : List Part} (hp : Part.settings ∉ ps) : ∀ q, q = .settings → q ∉ ps := fun q hq => hq ▸ hp
  have reset (nrst : Bool) : (s.heldInReset nrst).SettingsLegal := settingsLegal_iff.mpr (loadedSettings_ranges _)
  cases i
  case powerOnReset => cases run; exact reset _
  case nrstAccepted => cases run; exact reset _
  case configureChannel p r =>
    exact asked_keeps run rfl taken (fun s h => owned_ind (P := fun v => v.state.SettingsLegal) r h fun x =>
      State.onChannel_ind (P := fun v => v.state.SettingsLegal) _ h fun c => State.configureChannel_legal h c x.items) answer h
  case configureCadence p r =>
    exact asked_keeps run rfl taken (fun s h => owned_ind (P := fun v => v.state.SettingsLegal) r h fun x =>
      State.configureCadence_legal h x) answer h
  case configurePorts p r =>
    refine asked_keeps run rfl taken (fun s h => owned_ind (P := fun v => v.state.SettingsLegal) r h fun x => ?_) answer h
    unfold State.configurePortsRequest
    split
    · exact h
    · exact settingsLegal_iff.mpr (State.putPorts_ranges (settingsLegal_iff.mp h) x)
  case configureScan p r =>
    refine asked_keeps run rfl taken (fun s h => owned_ind (P := fun v => v.state.SettingsLegal) r h fun x => ?_) answer h
    unfold State.configureScanRequest
    split
    · exact h
    · split
      · exact h
      · split
        · exact h
        · exact State.applyScan_legal h x
  case setAlarmMask p r =>
    refine asked_keeps run rfl taken (fun s h => owned_ind (P := fun v => v.state.SettingsLegal) r h fun x => ?_) answer h
    unfold State.alarmMaskRequest
    split
    · exact h
    · split
      · next valid =>
        rw [Bool.and_eq_true] at valid
        exact settingsLegal_iff.mpr (State.putAlarm_ranges (settingsLegal_iff.mp h) valid.1)
      · exact h
  all_goals
    exact exec_keeps settingsLegal_reads (free (by
      simp [Instr.reach, requestParts, everyChannel, deviceFlagParts, flagParts, planParts, cueParts, authorityParts, healthParts])) run h

/-! # The station offset (R14 to R18, R20) -/

/-- An offset is a residue of the week in force or of the week to come (log 6). -/
def offsetFits (f g : Format) (o : Nat) : Prop := o < wf f ∨ o < wf g

theorem offsetLegal_iff {s : State} : s.OffsetLegal ↔ (s.stc.state ≠ .unset → offsetFits s.format s.live.format s.stc.offset) := Iff.rfl

/-- The condition on the offset reads the clock, the format in force and the format of the settings. -/
theorem offsetLegal_of_same {s t : State} (clock : t.stc = s.stc) (frame : t.cdu.frame = s.cdu.frame)
    (format : t.live.format = s.live.format) (h : s.OffsetLegal) : t.OffsetLegal := by
  have inForce : t.format = s.format := congrArg FrameTiming.format frame
  rw [State.OffsetLegal, clock, inForce, format]
  exact h

theorem offsetLegal_reads : ReadsOnly (fun q => q ∈ [Part.clock, .cadence, .settings]) State.OffsetLegal := fun s t same h =>
  offsetLegal_of_same (same .clock (by simp)) (congrArg Cdu.frame (same .cadence (by simp))) (congrArg SettingsOf.format (same .settings (by simp))) h

/-- A clock with a fitting offset, in the formats as they stand. -/
theorem offsetLegal_of_fits {s t : State} (only : OnlyChanges (.clock :: deviceFlagParts) s t)
    (fits : t.stc.state ≠ .unset → offsetFits s.format s.live.format t.stc.offset) : t.OffsetLegal := by
  have cadence : t.cdu = s.cdu := only .cadence (by simp [deviceFlagParts])
  have settings : t.live = s.live := only .settings (by simp [deviceFlagParts])
  have inForce : t.format = s.format := congrArg (fun k : Cdu => k.frame.format) cadence
  rw [offsetLegal_iff, inForce, settings]
  exact fits

/-! ## Heartbeats -/

theorem slewed_lt (f : Format) (o : Nat) (d : SlewDir) : slewed f o d < wf f := by
  cases d <;> exact Nat.mod_lt _ (wf_pos f)

theorem State.track_fits {s : State} {m : Nat} (measured : m < wf s.live.format)
    (h : offsetFits s.format s.live.format s.stc.offset) : offsetFits s.format s.live.format (s.track m).stc.offset := by
  have slew (d : SlewDir) : offsetFits s.format s.live.format (s.slewStep d).stc.offset := by
    unfold State.slewStep
    dsimp only
    split <;> exact .inr (slewed_lt _ _ _)
  unfold State.track
  dsimp only
  split
  · unfold State.candidate
    dsimp only
    split
    · exact .inr measured
    · exact h
  · split
    · exact slew .up
    · split
      · exact slew .down
      · exact h

theorem State.measured_lt (s : State) (stamp : Nat) (n : LocalFrame) : s.measured stamp n < wf s.live.format := Nat.mod_lt _ (wf_pos _)

theorem State.takeStamp_legal {s : State} (h : s.OffsetLegal) (stamp : Nat) (n : LocalFrame) : (s.takeStamp stamp n).OffsetLegal := by
  refine offsetLegal_of_fits (s.takeStamp_acts stamp n).only fun _ => ?_
  have measured := s.measured_lt stamp n
  unfold State.takeStamp
  dsimp only
  split
  · exact .inr measured
  · exact .inr measured
  · next state => exact State.track_fits (s := s.putStc { s.stc with state := .locked }) measured (h (by rw [state]; decide))
  · next state => exact State.track_fits measured (h (by rw [state]; decide))

theorem State.heartbeat_legal {s : State} (h : s.OffsetLegal) (x : Heartbeat) (n : LocalFrame) : (s.takeHeartbeatFrame x n).OffsetLegal := by
  by_cases format : x.format.toNat = formatCode s.live.format
  · rw [State.takeHeartbeatFrame_match format]
    refine readsOnly_keeps offsetLegal_reads (State.hearAndCheck_only _ x) (fun q hq => shared_free fun c => ?_) (State.takeStamp_legal h _ n)
    simp only [List.mem_cons, List.not_mem_nil, or_false] at hq
    rcases hq with rfl | rfl | rfl <;> simp [turnPartsOf, healthParts, authorityParts, cueParts, planParts, flagParts]
  · rw [State.takeHeartbeatFrame_mismatch format]
    exact h

/-! ## Pulses and lines keep the timing of the frame in progress -/

theorem Cdu.nextLine_frame (k : Cdu) : k.nextLine.frame = k.frame := by
  unfold Cdu.nextLine
  split
  · rfl
  · split <;> rfl

theorem Cdu.wakened_frame (k : Cdu) : k.wakened.frame = k.frame := by
  unfold Cdu.wakened
  split <;> rfl

theorem Cdu.qualify_frame (k : Cdu) (p : PulsePlace) : (k.qualify p).frame = k.frame := by
  unfold Cdu.qualify
  split
  · split <;> rfl
  · rfl
  · rfl

theorem Cdu.rephase_frame (k : Cdu) (d : Nat) (quiet : Bool) : (k.rephase d quiet).frame = k.frame := by
  unfold Cdu.rephase
  split
  · rfl
  · split
    · split <;> rfl
    · split <;> rfl

theorem State.gateLine_same (s : State) : s.gateLine.cdu = s.cdu ∧ s.gateLine.stc = s.stc ∧ s.gateLine.live = s.live := by
  unfold State.gateLine
  split <;> exact ⟨rfl, rfl, rfl⟩

theorem State.endLine_legal {s : State} (h : s.OffsetLegal) : s.endLine.OffsetLegal := by
  have line : (s.gateLine.putCdu s.cdu.nextLine).OffsetLegal :=
    offsetLegal_of_same (s := s) s.gateLine_same.2.1 s.cdu.nextLine_frame (congrArg SettingsOf.format s.gateLine_same.2.2) h
  unfold State.endLine
  dsimp only
  split
  · exact h
  · split
    · exact line
    · exact line

theorem State.putCdu_legal {s : State} {k : Cdu} (frame : k.frame = s.cdu.frame) (h : s.OffsetLegal) : (s.putCdu k).OffsetLegal :=
  offsetLegal_of_same (s := s) rfl frame rfl h

theorem State.loseReference_legal {s : State} (h : s.OffsetLegal) : s.loseReference.OffsetLegal :=
  offsetLegal_of_same (s := s) rfl rfl rfl h

theorem State.gateLast_same (s : State) : s.gateLast.cdu = s.cdu ∧ s.gateLast.stc = s.stc ∧ s.gateLast.live = s.live := by
  unfold State.gateLast
  split
  · exact ⟨rfl, rfl, rfl⟩
  · exact s.gateLine_same

theorem State.lockedPulse_legal {s : State} (h : s.OffsetLegal) : s.lockedPulse.OffsetLegal := by
  unfold State.lockedPulse
  split
  · exact offsetLegal_of_same (s := s) s.gateLast_same.2.1 rfl (congrArg SettingsOf.format s.gateLast_same.2.2) h
  · exact h

/-! ## Every command -/

/-- R10, R14: the frame that starts has the format of the settings, of whose week the offset is then a residue. -/
theorem State.frameStart_legal (s : State) (tkey : Bool) : (s.frameStart tkey).OffsetLegal := fun _ => .inl (Nat.mod_lt _ (wf_pos _))

theorem State.takeFormat_legal {s : State} (h : s.OffsetLegal) (f : Option Format) : (s.takeFormat f).OffsetLegal := by
  unfold State.takeFormat
  split
  · split
    · exact h
    · next g _ =>
      have made := s.changeFormat_reformatted g
      exact fun set => absurd (congrArg Stc.state made.clock) set
  · exact h

theorem State.cadence_legal {s : State} (h : s.OffsetLegal) (x : CadenceItems) : (s.configureCadenceRequest x).state.OffsetLegal := by
  rw [State.configureCadence_decided]
  split
  · exact h
  · split
    · exact h
    · split
      · exact h
      · split
        · exact h
        · exact offsetLegal_of_same (s := s.takeFormat (formatCarried x)) rfl rfl rfl (State.takeFormat_legal h _)

theorem State.setTime_legal {s : State} (h : s.OffsetLegal) (x : TimeBytes) : (s.setTimeRequest x).state.OffsetLegal := by
  unfold State.setTimeRequest
  split
  · exact h
  · exact h
  all_goals
    split
    · exact fun _ => .inl (Nat.mod_lt _ (wf_pos _))
    · exact h

theorem State.enterHoldover_legal {s : State} (h : s.OffsetLegal) : s.enterHoldover.OffsetLegal := by
  unfold State.enterHoldover
  split
  · next locked => exact fun _ => h (by rw [locked]; decide)
  · exact h

theorem State.feedSilent_legal {s : State} (h : s.OffsetLegal) (p : FeedPort) : (s.feedSilent p).OffsetLegal := by
  have silent : ((s.putWatch p ⟨false, 0⟩).raiseDevice (.feedSilent p)).OffsetLegal := offsetLegal_of_same (s := s) rfl rfl rfl h
  have apart : ∀ q ∈ [Part.clock, .cadence, .settings], q ∉ everyChannel healthParts := by
    simp [everyChannel, healthParts, authorityParts, cueParts, planParts, flagParts]
  unfold State.feedSilent
  dsimp only
  split
  · exact silent
  · exact readsOnly_keeps offsetLegal_reads ((State.clearReports_acts _).only.trans (State.evaluateAll_acts _).only) apart
      (State.enterHoldover_legal silent)

theorem execRefLinePulse_offset {s t : State} (run : execRefLinePulse s = .next t) (h : s.OffsetLegal) : t.OffsetLegal := by
  refine whenRunning_keeps run (fun h => ?_) h
  have pulse : (s.putCdu s.cdu.wakened.linePulse).OffsetLegal := State.putCdu_legal (k := s.cdu.wakened.linePulse) s.cdu.wakened_frame h
  dsimp only
  split
  · exact State.endLine_legal pulse
  · exact pulse

theorem execRefFramePulse_offset {s t : State} (run : execRefFramePulse s = .next t) (h : s.OffsetLegal) : t.OffsetLegal := by
  refine whenRunning_keeps run (fun h => ?_) h
  have pulse : (s.putCdu s.cdu.wakened.framePulse).OffsetLegal := State.putCdu_legal (k := s.cdu.wakened.framePulse) s.cdu.wakened_frame h
  dsimp only
  split
  · exact State.putCdu_legal (Cdu.qualify_frame _ _) pulse
  · exact State.lockedPulse_legal pulse
  · exact State.loseReference_legal pulse
  · exact pulse
  · exact pulse

theorem execLineSilence_offset {s t : State} (run : execLineSilence s = .next t) (h : s.OffsetLegal) : t.OffsetLegal := by
  refine whenRunning_keeps run (fun h => ?_) h
  have silent : (s.putCdu { s.cdu with refLine := none, silentLines := 17 }).OffsetLegal := State.putCdu_legal (s := s) rfl h
  dsimp only
  split
  · exact State.putCdu_legal rfl silent
  · exact State.loseReference_legal silent
  · exact silent

theorem execMissingFramePulse_offset {s t : State} (run : execMissingFramePulse s = .next t) (h : s.OffsetLegal) : t.OffsetLegal := by
  refine whenRunning_keeps run (fun h => ?_) h
  dsimp only
  split
  · exact h
  · next n _ =>
    have missing : (s.putCdu { s.cdu with refLine := some (max n (s.cdu.frame.lines + 8)) }).OffsetLegal := State.putCdu_legal (s := s) rfl h
    split
    · exact State.loseReference_legal missing
    · exact missing

theorem execRePhasing_offset {d : Nat} {s t : State} (run : execRePhasing d s = .next t) (h : s.OffsetLegal) : t.OffsetLegal := by
  refine whenRunning_keeps run (fun h => ?_) h
  have decided : (s.putCdu (s.cdu.rephase d s.quiet)).OffsetLegal := State.putCdu_legal (Cdu.rephase_frame _ _ _) h
  dsimp only
  split
  · split
    · exact decided
    · exact decided
  · exact h

theorem execSwitchWindowEvent_offset {s t : State} (run : execSwitchWindowEvent s = .next t) (h : s.OffsetLegal) : t.OffsetLegal := by
  refine whenRunning_keeps run (fun h => ?_) h
  split
  · exact h
  · exact offsetLegal_of_same (s := s) rfl rfl rfl h

theorem execLocalFrameWrap_offset {s t : State} (run : execLocalFrameWrap s = .next t) (h : s.OffsetLegal) : t.OffsetLegal := by
  refine whenRunning_keeps run (fun h => ?_) h
  split
  · exact fun _ => .inl (Nat.mod_lt _ (wf_pos _))
  · exact h

theorem execTurnRecordExpiry_offset {s t : State} (run : execTurnRecordExpiry s = .next t) (h : s.OffsetLegal) : t.OffsetLegal := by
  refine whenRunning_keeps run (fun h => ?_) h
  split
  · exact h
  · exact h

theorem execHeartbeat_offset {s t : State} (run : execHeartbeat s = .next t) (h : s.OffsetLegal) : t.OffsetLegal := by
  refine takeKind_keeps (k := .heartbeat) (fun s p h => h) (fun s q kind h => ?_) run h
  cases frame : q.frame with
  | heartbeat x =>
    unfold State.handleFrame
    rw [frame]
    exact State.heartbeat_legal h x _
  | replication c seq b =>
    rw [frame] at kind
    cases b with
    | edit op => cases op <;> cases kind
    | _ => cases kind

theorem execFeedWatchExpiry_offset {p : FeedPort} {s t : State} (run : execFeedWatchExpiry p s = .next t) (h : s.OffsetLegal) :
    t.OffsetLegal := by
  refine whenRunning_keeps run (fun h => ?_) h
  split
  · exact State.feedSilent_legal h p
  · exact h

/-! ## Settings other than the format -/

theorem State.configureChannel_offset {s : State} (h : s.OffsetLegal) (c : Channel) (x : ChannelItems) :
    (s.configureChannelRequest c x).state.OffsetLegal := by
  have applied (k : ChannelSettings) : (s.applyChannel c k).OffsetLegal := by
    have only := s.applyChannel_only c k
    have free : Part.clock ∉ Part.settings :: healthParts c ∧ Part.cadence ∉ Part.settings :: healthParts c := by
      simp [healthParts, authorityParts, cueParts, planParts, flagParts]
    exact offsetLegal_of_same (only .clock free.1) (congrArg Cdu.frame (only .cadence free.2))
      (by rw [s.applyChannel_live c k]; rfl) h
  unfold State.configureChannelRequest
  dsimp only
  split
  · exact h
  · split
    · exact h
    · split
      · exact h
      · exact applied _

theorem State.configureScan_offset {s : State} (h : s.OffsetLegal) (x : ScanItems) : (s.configureScanRequest x).state.OffsetLegal := by
  have applied : (s.applyScan x).OffsetLegal := by
    have only := s.applyScan_only x
    have free : Part.clock ∉ settingsParts ∧ Part.cadence ∉ settingsParts := by
      simp [settingsParts, everyChannel, healthParts, authorityParts, cueParts, planParts, flagParts]
    exact offsetLegal_of_same (only .clock free.1) (congrArg Cdu.frame (only .cadence free.2))
      (by rw [s.applyScan_live x]; rfl) h
  unfold State.configureScanRequest
  split
  · exact h
  · split
    · exact h
    · split
      · exact h
      · exact applied

theorem State.configurePorts_offset {s : State} (h : s.OffsetLegal) (x : PortItems) : (s.configurePortsRequest x).state.OffsetLegal := by
  unfold State.configurePortsRequest
  split
  · exact h
  · exact offsetLegal_of_same (s := s) rfl rfl rfl h

theorem State.alarmMask_offset {s : State} (h : s.OffsetLegal) (x : AlarmMaskFields) : (s.alarmMaskRequest x).state.OffsetLegal := by
  unfold State.alarmMaskRequest
  split
  · exact h
  · split
    · exact offsetLegal_of_same (s := s) rfl rfl rfl h
    · exact h

theorem exec_offsetLegal {i : Instr} {s t : State} (run : exec i s = .next t) (h : s.OffsetLegal) : t.OffsetLegal := by
  have taken (s : State) (p : SitePort) (h : s.OffsetLegal) : (s.validFrame p).OffsetLegal := h
  have answer (s : State) (p : SitePort) (x : Answer) (h : s.OffsetLegal) : (s.queueAnswer p x).OffsetLegal := h
  have form {α : Type} {r : Request α} {owner : α → State → Verdict} {s : State} (h : s.OffsetLegal)
      (own : ∀ x, (owner x s).state.OffsetLegal) : (owned r owner s).state.OffsetLegal :=
    owned_ind (P := fun v => v.state.OffsetLegal) r h own
  have reset (nrst : Bool) : (s.heldInReset nrst).OffsetLegal := nofun
  cases i
  case powerOnReset => cases run; exact reset _
  case nrstAccepted => cases run; exact reset _
  case refLinePulse => exact execRefLinePulse_offset run h
  case refFramePulse => exact execRefFramePulse_offset run h
  case lineSilence => exact execLineSilence_offset run h
  case missingFramePulse => exact execMissingFramePulse_offset run h
  case rePhasing => exact execRePhasing_offset run h
  case frameStart tkey => exact whenRunning_keeps (f := fun s => s.frameStart tkey) run (fun _ => s.frameStart_legal tkey) h
  case switchWindowEvent => exact execSwitchWindowEvent_offset run h
  case localFrameWrap => exact execLocalFrameWrap_offset run h
  case turnRecordExpiry => exact execTurnRecordExpiry_offset run h
  case heartbeat => exact execHeartbeat_offset run h
  case feedWatchExpiry => exact execFeedWatchExpiry_offset run h
  case setTime => exact asked_keeps run rfl taken (fun s h => form h fun x => State.setTime_legal h x) answer h
  case configureCadence => exact asked_keeps run rfl taken (fun s h => form h fun x => State.cadence_legal h x) answer h
  case configureChannel =>
    exact asked_keeps run rfl taken (fun s h => form h fun x =>
      State.onChannel_ind (P := fun v => v.state.OffsetLegal) _ h fun c => State.configureChannel_offset h c x.items) answer h
  case configureScan => exact asked_keeps run rfl taken (fun s h => form h fun x => State.configureScan_offset h x) answer h
  case configurePorts => exact asked_keeps run rfl taken (fun s h => form h fun x => State.configurePorts_offset h x) answer h
  case setAlarmMask => exact asked_keeps run rfl taken (fun s h => form h fun x => State.alarmMask_offset h x) answer h
  all_goals
    refine readsOnly_keeps offsetLegal_reads (exec_only run) (fun q hq => ?_) h
    simp only [List.mem_cons, List.not_mem_nil, or_false] at hq
    rcases hq with rfl | rfl | rfl <;>
      simp [Instr.reach, requestParts, everyChannel, deviceFlagParts, flagParts, planParts, cueParts, authorityParts, healthParts]

/-- Settles O9: the settings change by requests that keep them in range, and by resets; the offset is always left as a residue of the
week of one of the two formats. -/
theorem settingsAndOffsetStayLegal : Obligations.SettingsAndOffsetStayLegal := by
  refine ⟨fun s t legal run => step_keeps settingsLegal_reads (fun q hq => by subst hq; decide) (fun s l h => ?_) (fun s h => ?_)
      (fun _ _ _ => exec_settingsLegal) run legal,
    fun s t legal run => step_keeps offsetLegal_reads (fun q hq => ?_) (fun s l h => ?_) (fun s h => ?_) (fun _ _ _ => exec_offsetLegal) run legal⟩
  · exact readsOnly_keeps settingsLegal_reads (s.abandonPartial_only l) (fun q hq => by subst hq; simp [deviceFlagParts]) h
  · exact readsOnly_keeps settingsLegal_reads s.lineTick_only (fun q hq => by subst hq; simp [lineParts]) h
  · simp only [List.mem_cons, List.not_mem_nil, or_false] at hq
    rcases hq with rfl | rfl | rfl <;> decide
  · refine readsOnly_keeps offsetLegal_reads (s.abandonPartial_only l) (fun q hq => ?_) h
    simp only [List.mem_cons, List.not_mem_nil, or_false] at hq
    rcases hq with rfl | rfl | rfl <;> simp [deviceFlagParts]
  · exact State.endLine_legal (s := s.putCdu s.cdu.silentLine) (State.putCdu_legal rfl h)

end Sys2Proof.Machine

namespace Sys2Proof.Machine

/-! # A reply awaited for a frame that the channel does not expect (R142, R151)

The cue queue's law ties a PLAY that is being sent to a clip that the channel expects, and says nothing of the frame of one whose reply is
awaited. A state in which that frame is to come, and the channel expects nothing there, meets the law; an arming can then queue a PLAY for
the same frame and the same player beside it, which the law forbids. No run from a reset comes to such a state: the law is not inductive. -/

/-- A clip event that covers the first thousand frames of the base day. -/
def firstEvent : Event := ⟨1, .hard ⟨0, 0, 0, 0, 0⟩ 0, 1000, .clip [1] 0, .join, false, some ⟨0, 1000, false⟩⟩

/-- A PLAY of channel 0 on player A, for local frame 14; its reply is awaited, and it is not marked withdrawn. -/
def awaitedPlay : Txn := ⟨⟨0, .A, 0, 0, 14, .play [1] 0 1 1⟩, false, .awaiting 1, 1, .play 0 [1] 0 0⟩

/-- The part after a reset, with channel 0 HELD by site port A, that event on its page, the reply awaited, and RELEASE to be taken. -/
def heldAwaiting : State :=
  { State.reset with
    aut := State.reset.aut.put 0 (.held .A ⟨.routed, 0, none, none, none, 0⟩)
    sst := { State.reset.sst with pages := State.reset.sst.pages.put 0 ⟨some ⟨0, 1, [firstEvent], 0, false, false⟩, .empty⟩ }
    cus := { State.reset.cus with txn := some awaitedPlay }
    pending := [.release .A (.formed 0 0)] }

/-- The PLAY that the release queues: it too is for player A and frame 14. -/
def releasePlay : CueEntry := ⟨0, .A, 1, 4, 14, .play [1] 14 1 1⟩

theorem heldAwaiting_queue : heldAwaiting.cus.queue = [] := rfl

theorem heldAwaiting_expects (c : Channel) : heldAwaiting.expects c = [] := by revert c; decide

theorem heldAwaiting_players (c : Channel) (p : Player) : heldAwaiting.playerState c p ≠ .cued := by
  revert c
  cases p <;> decide

theorem heldAwaiting_shape (c : Channel) : heldAwaiting.planShape c := by
  have nothing : (heldAwaiting.cue c).planned = [] := by revert c; decide
  have record : heldAwaiting.authority c = .main ∨ heldAwaiting.authority c = .held .A ⟨.routed, 0, none, none, none, 0⟩ := by
    revert c; decide
  refine ⟨?_, .inl (by rw [nothing]; decide)⟩
  rcases record with main | held
  · rw [main]; exact nothing
  · rw [held]; exact nothing

theorem heldAwaiting_law : heldAwaiting.CueLaw := by
  refine ⟨heldAwaiting_queue ▸ .nil, nofun, fun c => ⟨heldAwaiting_shape c, Nat.zero_le 1, nofun, ?_, ?_, fun p cued => ?_⟩⟩
  · revert c; decide
  · intro k held _ _ _
    cases held
    refine ⟨rfl, nofun, fun e he => ?_⟩
    rw [heldAwaiting_expects] at he
    cases he
  · exact absurd cued (heldAwaiting_players c p)

/-- RELEASE arms the channel, whose first segment is the clip at frame 14, on player A. -/
theorem heldAwaiting_released : ∃ t, step heldAwaiting = .next t ∧ t.cus.queue = [releasePlay] ∧ t.cus.txn = some awaitedPlay ∧ t.now = 0 :=
  ⟨_, rfl, by decide, by decide, by decide⟩

/-- Refutes O10: the release leaves two PLAYs of one player for one frame, one in the queue and one whose reply is awaited. -/
theorem not_cueQueueStaysOrderedAndWithinRoom : ¬ Obligations.CueQueueStaysOrderedAndWithinRoom := by
  rintro ⟨kept, -⟩
  obtain ⟨t, run, queue, txn, now⟩ := heldAwaiting_released
  have near : t.CuesNear := by
    intro x hx
    rw [queue, List.mem_singleton] at hx
    rw [hx, now]
    exact .inl (by decide)
  have law := (kept heldAwaiting t heldAwaiting_law nofun near run).channels 0
  have queued : releasePlay ∈ t.playsOf 0 := by
    rw [State.playsOf, queue]
    decide
  obtain ⟨-, -, apart⟩ := law.playExpected releasePlay queued
  exact apart awaitedPlay txn rfl (by decide) rfl

end Sys2Proof.Machine

namespace Sys2Proof.Machine

/-! # Conditions on plans and notices (R144, R174, R175)

The bound on the plans and the law of the pending pairs are kept for one reason: every command reaches the plans and the pairs through the
replacing of a channel's plan and the setting of flags. What these two keep, every operation above them keeps. -/

/-- The parts that hold the plans, the pending pairs and the notice masks. -/
def roomReads (q : Part) : Prop := q = .notices ∨ q = .sitePorts ∨ ∃ c, q = .plan c

/-- A condition on the planned segments, the pending pairs and the notice masks that the replacing of a plan by one of two segments at
most keeps, and the setting of a flag; it is `unbounded` where a plan of any length will do, and bounds every plan otherwise. -/
structure RoomLaw (unbounded : Prop) (P : State → Prop) : Prop where
  same : ∀ {s t : State}, (∀ c, (t.cue c).planned = (s.cue c).planned) →
    (∀ p, (t.site p).pairs = (s.site p).pairs ∧ (t.site p).mask = (s.site p).mask) → P s → P t
  cue : ∀ {s : State} (c : Channel) (k : CueChannel), (unbounded ∨ k.planned.length ≤ 2) → P s → P (s.putCue c k)
  bound : unbounded ∨ ∀ s, P s → s.PlansFit
  flag : ∀ {s : State} (f : ChannelFlag) (c : Channel) (u : Bool), P s → P (s.raiseClassed f c u)
  device : ∀ {s : State} (f : DeviceFlag), P s → P (s.raiseDevice f)
  reset : ∀ (s : State) (nrst : Bool), P (s.heldInReset nrst)
  fewerPairs : ∀ {s : State} (p : SitePort) (k : SitePortState), k.mask = (s.site p).mask → k.pairs.Sublist (s.site p).pairs → P s →
    P (s.putSite p k)
  masked : ∀ {s : State} (p : SitePort) (m : BitVec 32), P s → P (s.putSite p ((s.site p).withMask m))

theorem foldl_keeps {P : State → Prop} {α : Type} {f : State → α → State} (act : ∀ s x, P s → P (f s x)) (xs : List α) {s : State} (h : P s) :
    P (xs.foldl f s) := by
  induction xs generalizing s with
  | nil => exact h
  | cons x xs ih => exact ih (act s x h)

/-- R146: a bridge is one segment more. -/
theorem Bridged.planned_length {s t : State} {c : Channel} {jl : LocalFrame} (h : Bridged s c jl t) :
    (t.cue c).planned.length ≤ (s.cue c).planned.length + 1 := by
  cases h with
  | ends =>
    rw [State.cue, (s.endAirAt_noted c jl).2.1]
    exact Nat.le_succ _
  | bridge i b x _ _ =>
    rw [State.appendSegment_cue]
    exact (List.length_append ..).le

theorem State.uncue_planned (s : State) (c : Channel) (p : Player) : ((s.uncue c p).cue c).planned = (s.cue c).planned := by
  unfold State.uncue
  split
  · rw [State.setPlayer, State.cue_putCue, if_pos rfl]
    rfl
  · rfl

namespace RoomLaw

variable {unbounded : Prop} {P : State → Prop} (law : RoomLaw unbounded P)
include law

theorem reads : ReadsOnly roomReads P := fun s t same h => by
  refine law.same (fun c => congrArg CueChannel.planned (same (.plan c) (.inr (.inr ⟨c, rfl⟩)))) (fun p => ?_) h
  obtain ⟨pairsA, pairsB⟩ := Prod.mk.inj (same .notices (.inl rfl))
  obtain ⟨portA, portB⟩ := Prod.mk.inj (same .sitePorts (.inr (.inl rfl)))
  cases p
  · exact ⟨pairsA, (SitePortState.mk.inj portA).2.2.2.2.1⟩
  · exact ⟨pairsB, (SitePortState.mk.inj portB).2.2.2.2.1⟩

/-- What leaves the plans and the notices alone. -/
theorem other {ps : List Part} {s t : State} (only : OnlyChanges ps s t) (h : P s)
    (free : (Part.notices ∉ ps ∧ Part.sitePorts ∉ ps) ∧ ∀ c, Part.plan c ∉ ps) : P t :=
  readsOnly_keeps law.reads only (fun q hq => by
    rcases hq with rfl | rfl | ⟨c, rfl⟩
    · exact free.1.1
    · exact free.1.2
    · exact free.2 c) h

/-- What is the same in plans and notices by computation. -/
theorem aside {s t : State} (h : P s) (alike : ∀ c p, (t.cue c).planned = (s.cue c).planned ∧
    (t.site p).pairs = (s.site p).pairs ∧ (t.site p).mask = (s.site p).mask) : P t :=
  law.same (fun c => (alike c .A).1) (fun p => (alike 0 p).2) h

/-- The plan of a channel holds no more than so many segments. -/
theorem room {s : State} (h : P s) (c : Channel) {xs : List Planned} (less : xs.length ≤ (s.cue c).planned.length) {n : Nat}
    (bound : 2 ≤ n) : unbounded ∨ xs.length ≤ n :=
  law.bound.imp_right fun fits => Nat.le_trans less (Nat.le_trans (fits s h c) bound)

/-- What CUS keeps of a channel is replaced, but for its plan. -/
theorem cueAside {s : State} (h : P s) (c : Channel) {k : CueChannel} (same : k.planned = (s.cue c).planned) : P (s.putCue c k) :=
  law.cue c k (law.room h c (by rw [same]) (Nat.le_refl 2)) h

theorem putPlanned {s : State} (h : P s) (c : Channel) {xs : List Planned} (room : unbounded ∨ xs.length ≤ 2) : P (s.putPlanned c xs) :=
  law.cue c _ room h

theorem fewer {s : State} (h : P s) (c : Channel) {xs : List Planned} (less : xs.length ≤ (s.cue c).planned.length) :
    P (s.putPlanned c xs) := law.putPlanned h c (law.room h c less (Nat.le_refl 2))

theorem raise {s : State} (h : P s) (f : ChannelFlag) (c : Channel) : P (s.raise f c) := law.flag f c _ h

theorem raiseIf {s : State} (h : P s) (b : Bool) (f : ChannelFlag) (c : Channel) : P (s.raiseIf b f c) := by
  unfold State.raiseIf
  split
  · exact law.raise h f c
  · exact h

theorem putAuthority {s : State} (h : P s) (c : Channel) (r : Authority) : P (s.putAuthority c r) := law.other (s.putAuthority_only c r) h (by simp)

theorem putQueue {s : State} (h : P s) (q : List CueEntry) : P (s.putQueue q) := law.other (s.putQueue_acts q).only h (by simp)

theorem putTxn {s : State} (h : P s) (x : Option Txn) : P (s.putTxn x) := law.other (s.putTxn_acts x).only h (by simp)

theorem placeOnAir {s : State} (h : P s) (c : Channel) (e : LocalFrame) (x : Nat) : P (s.placeOnAir c e x) :=
  law.other (s.placeOnAir_acts c e x).only h (by simp)

theorem withdrawXp {s : State} (h : P s) (c : Channel) (e : LocalFrame) : P (s.withdrawXp c e) := law.other (s.withdrawXp_acts c e).only h (by simp)

/-! ## Withdrawal (R143) -/

theorem setPlayer {s : State} (h : P s) (c : Channel) (p : Player) (x : PlayerState) : P (s.setPlayer c p x) := law.cueAside h c rfl

theorem uncue {s : State} (h : P s) (c : Channel) (p : Player) : P (s.uncue c p) := by
  unfold State.uncue
  split
  · exact law.setPlayer h c p _
  · exact h

theorem withdrawPlay {s : State} (h : P s) (c : Channel) (p : Player) (e : LocalFrame) : P (s.withdrawPlay c p e) := by
  unfold State.withdrawPlay
  split
  · exact law.putQueue h _
  · split
    · exact law.uncue (law.putTxn h _) c p
    · split
      · exact law.setPlayer (law.putQueue h _) c p _
      · exact h

theorem withdrawSegment {s : State} (h : P s) (c : Channel) (p : Option Player) (e : LocalFrame) : P (s.withdrawSegment c p e) := by
  cases p with
  | none => exact law.withdrawXp h c e
  | some p => exact law.withdrawXp (law.withdrawPlay h c p e) c e

theorem withdrawPlanned {s : State} (h : P s) (c : Channel) (p : Planned → Bool) : P (s.withdrawPlanned c p) := by
  have fewer : P (s.putPlanned c ((s.cue c).planned.filter fun x => !p x)) := law.fewer h c (List.length_filter_le _ _)
  exact foldl_keeps (P := P) (fun _ _ h => law.withdrawSegment h c _ _) _ fewer

theorem withdrawPlan {s : State} (h : P s) (c : Channel) : P (s.withdrawPlan c) := law.withdrawPlanned h c _

theorem cueToMain {s : State} (h : P s) (c : Channel) : P (s.cueToMain c) := law.cue c _ (.inr (Nat.zero_le 2)) h

/-! ## Planning (R144 to R146) -/

/-- R144: a segment is appended to a plan that holds one at most. -/
theorem appendSegment {s : State} (h : P s) (c : Channel) (room : unbounded ∨ (s.cue c).planned.length ≤ 1) (x : PlannedContent)
    (i : EventId) (e : LocalFrame) (stop : Option LocalFrame) (n : Nat) : P (s.appendSegment c x i e stop n) := by
  have put (g : Planned) : P (s.putPlanned c ((s.cue c).planned ++ [g])) :=
    law.putPlanned h c (room.imp_right fun one => by rw [List.length_append]; exact Nat.succ_le_succ one)
  unfold State.appendSegment
  dsimp only
  split
  · exact law.putQueue (put _) _
  all_goals
    split
    · exact law.placeOnAir (put _) c _ _
    · exact put _

theorem noteExhausted {s : State} (h : P s) (c : Channel) (b : Bool) : P (s.noteExhausted c b) :=
  law.raiseIf (law.cueAside h c (k := { s.cue c with exhausted := b }) rfl) b _ c

theorem noteJoin {s : State} (h : P s) (c : Channel) (j : Join) : P (s.noteJoin c j) :=
  law.noteExhausted (law.cueAside h c (k := { s.cue c with anchor := j.anchor }) rfl) c _

theorem planAt {s : State} (h : P s) (c : Channel) (room : unbounded ∨ (s.cue c).planned.length ≤ 1) (e : LocalFrame) (p : Player)
    (n : Nat) : P (s.planAt c e p n) := by
  unfold State.planAt
  split
  · exact h
  · next x _ =>
    refine law.appendSegment (law.noteExhausted h c _) c ?_ _ _ _ _ _
    rw [State.noteExhausted_cue]
    exact room

theorem planNext {s : State} (h : P s) (c : Channel) (room : unbounded ∨ (s.cue c).planned.length ≤ 1) (e : LocalFrame) :
    P (s.planNext c e) := law.planAt h c room e _ 1

theorem amendAir {s : State} (h : P s) (c : Channel) (f : OnAir → OnAir) : P (s.amendAir c f) := by
  unfold State.amendAir
  split
  · exact law.putAuthority h c _
  · exact h

/-- R146: what fills the time up to a fresh join is one segment at most. -/
theorem bridgeTo {s : State} (h : P s) (c : Channel) (room : unbounded ∨ (s.cue c).planned.length ≤ 1) (started : Bool)
    (replaced : Option Planned) (jl : LocalFrame) : P (s.bridgeTo c started replaced jl) := by
  have bridged := s.bridgeTo_bridged c started replaced jl
  generalize s.bridgeTo c started replaced jl = t at bridged
  cases bridged with
  | ends => exact law.amendAir h c _
  | bridge i b x _ _ => exact law.appendSegment h c room x i b _ 1

/-- R146: a fresh join enters an empty plan. -/
theorem planJoin {s : State} (h : P s) (c : Channel) (empty : (s.cue c).planned = []) (started : Bool) (replaced : Option Planned)
    (j : Join) : P (s.planJoin c started replaced j) := by
  have noted : ((s.noteJoin c j).cue c).planned = [] := by rw [State.noteJoin_cue]; exact empty
  rw [State.planJoin_eq]
  refine law.appendSegment (law.bridgeTo (law.noteJoin h c j) c (.inr (by rw [noted]; exact Nat.zero_le 1)) _ _ _) c (.inr ?_) _ _ _ _ _
  have bridged := (s.noteJoin c j).bridgeTo_bridged c started replaced j.plan.start
  refine Nat.le_trans bridged.planned_length ?_
  rw [noted]
  exact Nat.le_refl 1

theorem freshJoin {s : State} (h : P s) (c : Channel) (started : Bool) : P (s.freshJoin c started) :=
  law.planJoin (law.withdrawPlan h c) c (s.withdrawPlan_planned c) started _ _

/-! ## Join plans (R117, R122) -/

theorem queuePlay {s : State} (h : P s) (c : Channel) (p : Player) (x : List Byte) (m : Nat) (e : LocalFrame) (n : Nat) (i : EventId) :
    P (s.queuePlay c p x m e n i) := law.putQueue h _

theorem handOn {s : State} (h : P s) (c : Channel) (p : JoinPlan) (n : Nat) : P (s.handOn c p n) := by
  unfold State.handOn
  split
  · exact law.queuePlay h c _ _ _ _ _ _
  · exact h
  · exact law.placeOnAir h c _ _
  · split
    · exact law.placeOnAir h c _ _
    · exact h

theorem armPlan {s : State} (h : P s) (c : Channel) (o : Origin) (p : Player) (n : Nat) : P (s.armPlan c o p n) :=
  law.handOn (law.noteJoin (law.putAuthority h c _) c _) c _ n

theorem rearmPlan {s : State} (h : P s) (c : Channel) (o : Origin) (old : JoinPlan) (p : Player) (n : Nat) : P (s.rearmPlan c o old p n) :=
  law.armPlan (law.withdrawXp h c _) c o p n

/-! ## The start of a segment, a change of page, an edit (R147 to R150) -/

theorem removeLate {s : State} (h : P s) (c : Channel) (g : Planned) : P (s.removeLate c g) := by
  unfold State.removeLate
  dsimp only
  split
  · exact h
  · next p _ =>
    have removed := law.raise (law.withdrawPlay h c p g.start) .cueLate c
    split
    · split
      · exact removed
      · exact law.placeOnAir removed c _ _
    · exact removed

theorem playersFor {s : State} (h : P s) (c : Channel) (a : OnAir) (b : Bool) : P (s.playersFor c a b) :=
  law.cueAside h c (k := { s.cue c with
    players := playersOnAir a.player (s.cue c).players, lastClip := a.player.or (s.cue c).lastClip, boundary := b }) rfl

theorem planAfterStart {s : State} (h : P s) (c : Channel) (late : Bool) : P (s.planAfterStart c late) := by
  have next (none : (s.cue c).planned = []) (e : LocalFrame) : P (s.planNext c e) :=
    law.planNext h c (.inr (by rw [none]; exact Nat.zero_le 1)) e
  unfold State.planAfterStart
  split
  · split
    · exact law.freshJoin h c true
    · split
      · next none => exact next none _
      · exact h
  · split
    · next none =>
      split
      · exact next none _
      · exact h
    · exact h
  all_goals exact h

theorem startHead {s : State} (h : P s) (c : Channel) (g : Planned) : P (s.startHead c g) := by
  have start {t : State} (h : P t) (a : OnAir) :
      P (State.playersFor ((t.putPlanned c ((t.cue c).planned.drop 1)).amendAir c fun _ => a) c a true) :=
    law.playersFor (law.amendAir (law.fewer h c (by simp)) c _) c a true
  unfold State.startHead
  dsimp only
  split
  · exact start (law.removeLate h c g) _
  · exact start h _

theorem dropAnchor {s : State} (h : P s) (c : Channel) : P (s.dropAnchor c) := law.cueAside h c (k := { s.cue c with anchor := none }) rfl

theorem pageChange {s : State} (h : P s) (c : Channel) : P (s.pageChange c) := by
  have join {t : State} (h : P t) (started : Bool) :
      P (((t.withdrawPlan c).dropAnchor c).planJoin c started none (((t.withdrawPlan c).dropAnchor c).join c)) := by
    refine law.planJoin (law.dropAnchor (law.withdrawPlan h c) c) c ?_ started none _
    rw [State.dropAnchor, State.cue_putCue, if_pos rfl]
    exact t.withdrawPlan_planned c
  unfold State.pageChange
  split
  · dsimp only
    split
    · exact join (law.startHead h c _) _
    · exact join h _
  all_goals exact law.dropAnchor h c

theorem replanLast {s : State} (h : P s) (c : Channel) (g : Planned) : P (s.replanLast c g) := by
  unfold State.replanLast
  split
  · refine law.planNext (law.withdrawXp (law.fewer h c (by simp)) c _) c ?_ _
    refine law.bound.imp_right fun fits => ?_
    have put : (((s.putPlanned c (s.cue c).planned.dropLast).withdrawXp c g.start).cue c).planned = (s.cue c).planned.dropLast :=
      congrArg CueChannel.planned (s.putPlanned_cue c _)
    rw [put, List.length_dropLast]
    have := fits s h c
    omega
  · exact h

theorem rejoinExhausted {s : State} (h : P s) (c : Channel) : P (s.rejoinExhausted c) := by
  unfold State.rejoinExhausted
  dsimp only
  split
  · exact law.noteJoin (law.withdrawPlan h c) c _
  · exact law.planJoin (law.withdrawPlan h c) c (s.withdrawPlan_planned c) true none _

theorem reviewPlan {s : State} (h : P s) (c : Channel) : P (s.reviewPlan c) := by
  unfold State.reviewPlan
  split
  · split
    · exact law.rejoinExhausted h c
    · split
      · exact law.replanLast h c _
      · exact h
  all_goals exact h

/-! ## Late and failed PLAYs (R153 to R156) -/

/-- With one planned segment taken out there is room for what replaces it. -/
theorem roomWithout {s : State} (h : P s) (c : Channel) {g : Planned} (held : g ∈ (s.cue c).planned) :
    unbounded ∨ (((s.putPlanned c ((s.cue c).planned.filter fun y => y.start != g.start)).cue c).planned).length ≤ 1 := by
  refine law.bound.imp_right fun fits => ?_
  rw [s.putPlanned_cue]
  have shorter : ((s.cue c).planned.filter fun y => y.start != g.start).length < (s.cue c).planned.length :=
    List.length_filter_lt_length_iff_exists.mpr ⟨g, held, by simp⟩
  have := fits s h c
  dsimp only
  omega

theorem without {s : State} (h : P s) (c : Channel) (g : Planned) :
    P (s.putPlanned c ((s.cue c).planned.filter fun y => y.start != g.start)) := law.fewer h c (List.length_filter_le _ _)

theorem fillInstead {s : State} (h : P s) (c : Channel) {g : Planned} (held : g ∈ (s.cue c).planned) : P (s.fillInstead c g) :=
  law.appendSegment (law.without h c g) c (law.roomWithout h c held) _ _ _ _ _

theorem latePlay {s : State} (h : P s) (x : CueEntry) : P (s.latePlay x) := by
  have late := law.raise h .cueLate x.channel
  unfold State.latePlay
  dsimp only
  generalize s.raise .cueLate x.channel = t at late ⊢
  split
  · split
    · exact law.rearmPlan late _ _ _ _ _
    · exact late
  · split
    · exact law.freshJoin late _ _
    · exact late
  · split
    · next g for' => exact law.fillInstead late _ (List.mem_of_find?_eq_some for')
    · exact late
  all_goals exact late

theorem failArmed {s : State} (h : P s) (x : CueEntry) (o : Origin) (plan : JoinPlan) : P (s.failArmed x o plan) := by
  have free := law.uncue h x.channel x.player
  unfold State.failArmed
  dsimp only
  split
  · exact law.rearmPlan free _ _ _ _ _
  · exact law.handOn (law.putAuthority (law.raise (law.withdrawXp free _ _) _ _) _ _) _ _ _

theorem failPlanned {s : State} (h : P s) (x : CueEntry) {g : Planned} (held : g ∈ (s.cue x.channel).planned) : P (s.failPlanned x g) := by
  have free := law.withdrawXp (law.uncue h x.channel x.player) x.channel g.start
  have still : g ∈ (((s.uncue x.channel x.player).withdrawXp x.channel g.start).cue x.channel).planned := by
    have same : ((s.uncue x.channel x.player).cue x.channel).planned = (s.cue x.channel).planned := s.uncue_planned _ _
    exact same ▸ held
  unfold State.failPlanned
  dsimp only
  generalize (s.uncue x.channel x.player).withdrawXp x.channel g.start = t at free still ⊢
  split
  · exact law.planAt (law.without free _ g) _ (law.roomWithout free _ still) _ _ _
  · exact law.fillInstead (law.raise free _ _) _ still

theorem failOnAir {s : State} (h : P s) (x : CueEntry) (a : OnAir) : P (s.failOnAir x a) := by
  have filled (f : OnAir → OnAir) := law.amendAir (law.setPlayer h x.channel x.player .idle) x.channel f
  unfold State.failOnAir
  dsimp only
  split
  · split
    · exact filled _
    · exact law.placeOnAir (filled _) _ _ _
  · exact filled _

theorem failStarted {s : State} (h : P s) (x : CueEntry) : P (s.failStarted x) := by
  have failed := law.raise h .cueFailed x.channel
  unfold State.failStarted
  dsimp only
  generalize s.raise .cueFailed x.channel = t at failed ⊢
  split
  · split
    · exact law.failOnAir failed x _
    · exact failed
  · exact failed

theorem failedPlay {s : State} (h : P s) (x : CueEntry) : P (s.failedPlay x) := by
  unfold State.failedPlay
  split
  · split
    · exact law.failArmed h x _ _
    · exact law.failStarted h x
  · next g for' _ => exact law.failPlanned h x (List.mem_of_find?_eq_some for')
  · exact law.failStarted h x

/-! ## Transactions (R151, R152) -/

theorem takeEntry {s : State} (h : P s) (x : CueEntry) (rest : List CueEntry) : P (s.takeEntry x rest) := by
  unfold State.takeEntry
  dsimp only
  split
  · exact law.latePlay (law.putQueue h rest) x
  · exact law.putTxn (law.putQueue h rest) _

theorem playSent {s : State} (h : P s) (x : CueEntry) : P (s.playSent x) := by
  have cued := law.setPlayer h x.channel x.player .cued
  unfold State.playSent
  dsimp only
  split
  · exact cued
  · exact law.fewer (law.placeOnAir cued _ _ _) _ (by simp)

theorem sendEnded {s : State} (h : P s) (k : Txn) : P (s.sendEnded k) := by
  unfold State.sendEnded
  dsimp only
  split
  · exact law.playSent (law.putTxn h _) _
  · exact law.putTxn h _

theorem endTxn {s : State} (h : P s) (k : Txn) (ok : Bool) : P (s.endTxn k ok) := by
  have ended := law.putTxn h none
  unfold State.endTxn
  dsimp only
  split
  · split
    · split
      · exact law.putQueue ended _
      · exact ended
    · split
      · exact ended
      · exact law.failedPlay ended _
  · exact ended

theorem replyTo {s : State} (h : P s) (k : Txn) (ok : Bool) : P (s.replyTo k ok) := by
  unfold State.replyTo
  split
  · exact law.endTxn (law.sendEnded h k) k ok
  · exact law.endTxn h k ok

end RoomLaw

end Sys2Proof.Machine

namespace Sys2Proof.Machine

/-! # Conditions on plans and notices: the Authority Table and the Supervision Unit -/

theorem eachChannel_keeps {P : State → Prop} {f : State → Channel → State} (act : ∀ s c, P s → P (f s c)) {s : State} (h : P s) :
    P (s.eachChannel f) := foldl_keeps (P := P) act _ h

namespace RoomLaw

variable {unbounded : Prop} {P : State → Prop} (law : RoomLaw unbounded P)
include law

/-! ## Changes of authority (R117, R123 to R136) -/

theorem announce {s : State} (h : P s) (c : Channel) : P (s.announce c) :=
  law.aside (s := (s.evalTally c).raise .authorityChange c) (law.raise (law.aside (s := s) h (fun _ _ => by exact ⟨rfl, rfl, rfl⟩)) _ c) (fun _ _ => by exact ⟨rfl, rfl, rfl⟩)

theorem setAuthority {s : State} (h : P s) (c : Channel) (r : Authority) : P (s.setAuthority c r) := law.announce (law.putAuthority h c r) c

theorem arm {s : State} (h : P s) (c : Channel) (o : Origin) : P (s.arm c o) := law.announce (law.armPlan h c o _ 1) c

theorem armOrBlock {s : State} (h : P s) (c : Channel) (o : Origin) : P (s.armOrBlock c o) := by
  unfold State.armOrBlock
  split
  · exact law.arm h c o
  · exact law.raise h _ c

theorem passOver {s : State} (h : P s) (o : Origin) (c : Channel) : P (s.passOver o c) := by
  unfold State.passOver
  split
  · exact law.armOrBlock h c o
  · exact h

theorem keyArming {s : State} (h : P s) : P s.keyArming := eachChannel_keeps (P := P) (fun _ c h => law.passOver h .key c) h

theorem goToAir {s : State} (h : P s) (c : Channel) (p : JoinPlan) : P (s.goToAir c p) := by
  have start {t : State} (h : P t) (a : OnAir) (late : Bool) : P (((t.setAuthority c (.standby a)).playersFor c a false).planAfterStart c late) :=
    law.planAfterStart (law.playersFor (law.setAuthority h c _) c a false) c late
  unfold State.goToAir
  dsimp only
  split
  · exact start (law.removeLate h c _) _ _
  · exact start h _ _

theorem becomeMain {s : State} (h : P s) (c : Channel) : P (s.becomeMain c) :=
  law.setAuthority (law.cueToMain (law.withdrawPlan h c) c) c .main

theorem abort {s : State} (h : P s) (c : Channel) (p : JoinPlan) : P (s.abort c p) := law.becomeMain (law.withdrawSegment h c _ _) c

theorem hold {s : State} (h : P s) (c : Channel) (p : SitePort) (a : OnAir) : P (s.hold c p a) :=
  law.setAuthority (law.withdrawPlan h c) c _

theorem route {s : State} (h : P s) (c : Channel) (p : SitePort) (n : Nat) : P (s.route c p n) :=
  law.cueAside (law.putAuthority (law.placeOnAir h c _ n) c _) c rfl

theorem lapse {s : State} (h : P s) (c : Channel) : P (s.lapse c) := law.arm (law.raise h _ c) c .lapse

theorem lapseHolds {s : State} (h : P s) (p : SitePort) : P (s.lapseHolds p) := by
  refine eachChannel_keeps (P := P) (fun s c h => ?_) h
  split
  · exact law.lapse h c
  · exact h

theorem acceptReturn {s : State} (h : P s) (c : Channel) (p : Prior) (m : ReturnMode) (a : OnAir) : P (s.acceptReturn c p m a) :=
  law.setAuthority (law.placeOnAir (law.withdrawPlanned h c _) c _ _) c _

theorem resumePlan {s : State} (h : P s) (c : Channel) (a : OnAir) : P (s.resumePlan c a) := by
  unfold State.resumePlan
  split
  · split
    · next open_ =>
      rw [Bool.and_eq_true, List.isEmpty_iff] at open_
      exact law.planNext h c (.inr (by rw [open_.2]; exact Nat.zero_le 1)) _
    · exact h
  · exact law.freshJoin h c false

theorem abortReturn {s : State} (h : P s) (c : Channel) (p : Prior) (e : LocalFrame) (a : OnAir) : P (s.abortReturn c p e a) := by
  have dropped : P (s.dropReturn c e) := law.raise (law.withdrawXp h c e) _ c
  unfold State.abortReturn
  dsimp only
  split
  · exact law.resumePlan (law.setAuthority dropped c _) c a
  · have held := law.setAuthority dropped c
    split
    · exact held _
    · exact law.lapse (held _) c

theorem healthReaction {s : State} (h : P s) (c : Channel) (k : Health) : P (s.healthReaction c k) := by
  unfold State.healthReaction
  split
  · split
    · exact law.armOrBlock h c .auto
    · exact h
  · split
    · exact law.abort h c _
    · exact h
  · split
    · exact h
    · exact law.abortReturn h c _ _ _
  all_goals exact h

/-! ## Health (R93, R105 to R110) -/

theorem setHealth {s : State} (h : P s) (c : Channel) (k : Health) : P (s.setHealth c k) := by
  unfold State.setHealth
  split
  · exact h
  · have raised : P ((s.storeHealth c k).raiseHealth c k) := law.flag _ c _ (law.aside (s := s) h (fun _ _ => by exact ⟨rfl, rfl, rfl⟩))
    exact law.healthReaction (law.aside (s := (s.storeHealth c k).raiseHealth c k) raised (fun _ _ => by exact ⟨rfl, rfl, rfl⟩)) c k

theorem evaluate {s : State} (h : P s) (c : Channel) : P (s.evaluate c) := by
  unfold State.evaluate
  split
  · exact law.setHealth h c _
  · exact h

theorem enableChanged {s : State} (h : P s) (c : Channel) : P (s.enableChanged c) := by
  unfold State.enableChanged
  split
  · exact law.evaluate h c
  · exact law.setHealth h c _

theorem unhear {s : State} (h : P s) (c : Channel) : P (s.unhear c) :=
  law.setHealth (s := s.putWatched c { s.watched c with heard := false }) (law.aside h (fun _ _ => by exact ⟨rfl, rfl, rfl⟩)) c _

theorem evaluateAll {s : State} (h : P s) : P s.evaluateAll := eachChannel_keeps (P := P) (fun _ c h => law.evaluate h c) h

theorem clearReports {s : State} (h : P s) : P s.clearReports := eachChannel_keeps (P := P) (fun _ _ h => law.aside h (fun _ _ => by exact ⟨rfl, rfl, rfl⟩)) h

theorem hearItem {s : State} (h : P s) (c : Channel) (x : HeartbeatItem) : P (s.hearItem c x) := by
  have kept (k : SupChannel) : P (s.putWatched c k) := law.aside h (fun _ _ => by exact ⟨rfl, rfl, rfl⟩)
  unfold State.hearItem
  dsimp only
  split
  · exact kept _
  · exact law.evaluate (kept _) c

theorem takeSample {s : State} (h : P s) (c : Channel) (n : Nat) : P (s.takeSample c n) := by
  have kept (k : SupChannel) : P (s.putWatched c k) := law.aside h (fun _ _ => by exact ⟨rfl, rfl, rfl⟩)
  unfold State.takeSample
  dsimp only
  split
  · exact kept _
  · exact law.evaluate (kept _) c

theorem unscan {s : State} (h : P s) (c : Channel) : P (s.unscan c) := by
  have kept (k : SupChannel) : P (s.putWatched c k) := law.aside h (fun _ _ => by exact ⟨rfl, rfl, rfl⟩)
  unfold State.unscan
  dsimp only
  split
  · exact kept _
  · exact law.evaluate (kept _) c

theorem heartbeatSeen {s : State} (h : P s) (p : FeedPort) : P (s.heartbeatSeen p) := by
  have seen : P (s.putWatch p ⟨true, s.live.hbTimeout⟩) := law.aside h (fun _ _ => by exact ⟨rfl, rfl, rfl⟩)
  unfold State.heartbeatSeen
  dsimp only
  split
  · exact seen
  · exact law.evaluateAll seen

theorem enterHoldover {s : State} (h : P s) : P s.enterHoldover := by
  unfold State.enterHoldover
  split
  · exact law.aside h (fun _ _ => by exact ⟨rfl, rfl, rfl⟩)
  · exact h

theorem feedSilent {s : State} (h : P s) (p : FeedPort) : P (s.feedSilent p) := by
  have silent : P ((s.putWatch p ⟨false, 0⟩).raiseDevice (.feedSilent p)) := law.device _ (law.aside h (fun _ _ => by exact ⟨rfl, rfl, rfl⟩))
  unfold State.feedSilent
  dsimp only
  split
  · exact silent
  · exact law.evaluateAll (law.clearReports (law.enterHoldover silent))

theorem sweepEnd {s : State} (h : P s) : P s.sweepEnd := law.device (s := s.putScan _) _ (law.aside h (fun _ _ => by exact ⟨rfl, rfl, rfl⟩))

theorem endWindow {s : State} (h : P s) : P s.endWindow := by
  unfold State.endWindow
  split
  · split
    · exact law.takeSample (s := s.putScan _) (law.aside h (fun _ _ => by exact ⟨rfl, rfl, rfl⟩)) _ _
    · exact law.sweepEnd (law.takeSample h _ _)
  · exact law.sweepEnd (foldl_keeps (P := P) (fun _ c h => law.takeSample h c _) _ h)
  all_goals exact h

/-! ## Frames and edits (R61 to R64, R69 to R80, R82) -/

theorem diverge {s : State} (h : P s) (c : Channel) : P (s.diverge c) := law.raise (s := s.putActive c _) (law.aside h (fun _ _ => by exact ⟨rfl, rfl, rfl⟩)) _ c

theorem completeEdit {s : State} (h : P s) (c : Channel) (op : EditOp) : P (s.completeEdit c op) := by
  unfold State.completeEdit
  split
  · exact law.diverge h c
  · split
    · exact law.diverge h c
    · dsimp only
      split
      · exact law.reviewPlan (s := s.putActive c _) (law.aside h (fun _ _ => by exact ⟨rfl, rfl, rfl⟩)) c
      · unfold State.refuseEdit
        dsimp only
        split
        · exact law.device _ (law.raiseIf (law.diverge h c) _ _ c)
        · exact law.raiseIf (law.diverge h c) _ _ c

theorem setEngine {s : State} (h : P s) (e : Engine) : P (s.setEngine e) := law.other (s.setEngine_acts e).only h (by simp)

theorem takeEditOp {s : State} (h : P s) (c : Channel) (op : EditOp) : P (s.takeEditOp c op) := by
  unfold State.takeEditOp
  dsimp only
  split
  · exact law.completeEdit h c op
  · exact law.setEngine h _

theorem putNext {s : State} (h : P s) (c : Channel) (k : NextPage) : P (s.putNext c k) := law.aside h (fun _ _ => by exact ⟨rfl, rfl, rfl⟩)

theorem discardNext {s : State} (h : P s) (c : Channel) : P (s.discardNext c) :=
  law.raiseIf (law.putNext (law.other (s.leaveQueue_acts c).only h (by simp)) c _) _ _ c

theorem loadEvent {s : State} (h : P s) (c : Channel) (g : LoadPage) (r : EventRecord) : P (s.loadEvent c g r) := by
  unfold State.loadEvent
  split
  · exact law.putNext h c _
  · split
    · split
      · exact law.device _ (law.putNext h c _)
      · exact law.putNext h c _
    · exact law.putNext h c _

theorem storeFrame {s : State} (h : P s) (c : Channel) (b : FeedBody) : P (s.storeFrame c b) := by
  have refused (f : ChannelFlag) : P ((s.discardNext c).raise f c) := law.raise (law.discardNext h c) f c
  cases b with
  | listBegin _ _ _ => exact law.putNext (law.discardNext h c) c _
  | event r =>
    show P (s.takeEventRecord c r)
    unfold State.takeEventRecord
    split
    · split
      · exact h
      · exact law.loadEvent h c _ r
    · exact h
  | listEnd n m =>
    show P (s.endList c n m.toNat)
    unfold State.endList
    split
    · exact h
    · split
      · exact law.other (State.engine_acts (s.putNext c _) _ _ _).only (law.putNext h c _) (by simp)
      · exact refused _
  | listAbort =>
    show P (s.abortList c)
    unfold State.abortList
    split
    · exact law.discardNext h c
    · exact h
  | edit op => exact law.takeEditOp h c op
  | flip x =>
    show P (s.recordFlip c x)
    unfold State.recordFlip
    split
    · exact law.raise h _ c
    · exact law.putNext h c _
    · exact law.raise h _ c

theorem takeReplication {s : State} (h : P s) (c : Channel) (n : SeqNo) (b : FeedBody) : P (s.takeReplication c n b) := by
  have based {t : State} (h : P t) : P ((t.putBaseline c (some n)).storeFrame c b) :=
    law.storeFrame (s := t.putBaseline c (some n)) (law.other (t.putBaseline_acts c _).only h (by simp)) c b
  unfold State.takeReplication
  split
  · exact h
  · refine based ?_
    unfold State.recordGap
    exact law.raise (law.aside h (fun _ _ => by exact ⟨rfl, rfl, rfl⟩)) _ c
  · exact based h
  · exact based h

theorem divergenceCheck {s : State} (h : P s) (c : Channel) (i : EventId) : P (s.divergenceCheck c i) := by
  unfold State.divergenceCheck
  split
  · exact law.raise (s := s.putActive c _) (law.aside h (fun _ _ => by exact ⟨rfl, rfl, rfl⟩)) _ c
  · exact h

theorem putStc {s : State} (h : P s) (k : Stc) : P (s.putStc k) := law.aside h (fun _ _ => by exact ⟨rfl, rfl, rfl⟩)

theorem track {s : State} (h : P s) (m : Nat) : P (s.track m) := by
  have slewed (d : SlewDir) : P (s.slewStep d) := by
    unfold State.slewStep
    dsimp only
    split
    · exact law.device _ (law.putStc h _)
    · exact law.putStc h _
  unfold State.track
  dsimp only
  split
  · unfold State.candidate
    dsimp only
    split
    · exact law.device _ (law.putStc h _)
    · exact law.putStc h _
  · split
    · exact slewed .up
    · split
      · exact slewed .down
      · exact law.putStc h _

theorem takeStamp {s : State} (h : P s) (x : Nat) (n : LocalFrame) : P (s.takeStamp x n) := by
  unfold State.takeStamp
  dsimp only
  split
  · exact law.putStc h _
  · exact law.putStc h _
  · exact law.track (law.putStc h _) _
  · exact law.track h _

theorem takeHeartbeatFrame {s : State} (h : P s) (x : Heartbeat) (n : LocalFrame) : P (s.takeHeartbeatFrame x n) := by
  unfold State.takeHeartbeatFrame
  split
  · refine eachChannel_keeps (P := P) (fun _ c h => law.divergenceCheck h c _) (eachChannel_keeps (P := P) (fun _ c h => ?_) (law.takeStamp h _ n))
    exact law.hearItem h c _
  · exact law.device _ h

theorem handleFrame {s : State} (h : P s) (q : QueuedFrame) : P (s.handleFrame q) := by
  unfold State.handleFrame
  split
  · exact law.takeReplication h _ _ _
  · exact law.takeHeartbeatFrame h _ _

theorem completeFrame {s : State} (h : P s) (p : FeedPort) (x : Option FeedFrame) : P (s.completeFrame p x) := by
  unfold State.completeFrame
  split
  · exact law.device _ h
  · next x =>
    have offered : P (s.offerFrame p x) := by
      unfold State.offerFrame
      dsimp only
      split
      · exact law.aside h (fun _ _ => by exact ⟨rfl, rfl, rfl⟩)
      · exact law.device _ h
    cases x with
    | replication _ _ _ => exact offered
    | heartbeat _ => exact law.heartbeatSeen offered p

end RoomLaw

end Sys2Proof.Machine

namespace Sys2Proof.Machine

/-! # Conditions on plans and notices: every command -/

/-- R166: a frame start counts down the silence timers alone. -/
theorem SitePortState.tick_notices (k : SitePortState) : k.tick.pairs = k.pairs ∧ k.tick.mask = k.mask := by
  unfold SitePortState.tick
  split <;> exact ⟨rfl, rfl⟩

theorem State.site_frameStart (s : State) (k : Bool) (p : SitePort) : (s.frameStart k).site p = (s.site p).tick := by
  cases p <;> rfl

theorem State.clearBoundaries_planned (s : State) (c : Channel) : (s.clearBoundaries.cue c).planned = (s.cue c).planned := by
  have channel : s.clearBoundaries.cue c = (fun k : CueChannel => { k with boundary := false }) (s.cue c) := PerChannel.get_mapAll _ _ c
  rw [channel]

namespace RoomLaw

variable {unbounded : Prop} {P : State → Prop} (law : RoomLaw unbounded P)
include law

/-! ## The site ports (R164 to R168) -/

/-- A site port replaced, its notices kept. -/
theorem putSite {s : State} (h : P s) (p : SitePort) {k : SitePortState} (mask : k.mask = (s.site p).mask)
    (pairs : k.pairs = (s.site p).pairs) : P (s.putSite p k) := law.fewerPairs p k mask (by rw [pairs]) h

theorem validFrame {s : State} (h : P s) (p : SitePort) : P (s.validFrame p) :=
  law.other (State.rxWait_acts (s.putSite p { s.site p with live := true, timer := s.live.siteTimeout }) (siteLine p)).only
    (law.putSite h p rfl rfl) (by simp)

theorem queueAnswer {s : State} (h : P s) (p : SitePort) (a : Answer) : P (s.queueAnswer p a) := law.putSite h p rfl rfl

theorem siteSilent {s : State} (h : P s) (p : SitePort) : P (s.siteSilent p) :=
  law.lapseHolds (law.device _ (law.putSite (k := { s.site p with live := false, timer := 0 }) h p rfl rfl)) p

theorem asked {i : Instr} {p : SitePort} {code : Byte} {tag : Tag} {ps : List Part} {owner : State → Verdict} {s t : State}
    (run : exec i s = .next t) (ask : askingOf i = some ⟨p, code, tag, ps, owner⟩) (decided : ∀ s, P s → P (owner s).state) (h : P s) :
    P t :=
  asked_keeps run ask (fun _ p h => law.validFrame h p) decided (fun _ p a h => law.queueAnswer h p a) h

/-- A request whose owner leaves the plans and the notices alone. -/
theorem askedAside {i : Instr} {p : SitePort} {code : Byte} {tag : Tag} {ps : List Part} {owner : State → Verdict} {s t : State}
    (run : exec i s = .next t) (ask : askingOf i = some ⟨p, code, tag, ps, owner⟩) (h : P s)
    (free : (Part.notices ∉ ps ∧ Part.sitePorts ∉ ps) ∧ ∀ c, Part.plan c ∉ ps) : P t :=
  law.asked run ask (fun s h => law.other (asking_only ask s) h free) h

/-! ## The owners of the requests -/

theorem takeOne {s : State} (h : P s) (p : SitePort) (c : Channel) : P (s.takeOne p c).state := by
  unfold State.takeOne
  split
  · split
    · exact h
    · exact h
    · exact law.arm h c _
  · exact h

theorem takeNext {p : SitePort} {x : State × List Channel} (h : P x.1) (c : Channel) : P (takeNext p x c).1 := by
  unfold Machine.takeNext
  split
  · exact law.arm h c _
  · exact law.passOver h _ c

theorem takeEvery {s : State} (h : P s) (p : SitePort) : P (s.takeEvery p).state := by
  have pass (cs : List Channel) (x : State × List Channel) (h : P x.1) : P (cs.foldl (Machine.takeNext p) x).1 := by
    induction cs generalizing x with
    | nil => exact h
    | cons c cs ih => exact ih _ (law.takeNext h c)
  have all := pass channels (s, []) h
  unfold State.takeEvery
  generalize channels.foldl (Machine.takeNext p) (s, []) = x at all
  dsimp only
  split
  · exact all
  · exact all

theorem cancelArming {s : State} (h : P s) (c : Channel) : P (s.cancelArming c).state := by
  unfold State.cancelArming
  split
  · exact law.abort h c _
  all_goals exact h

theorem holdRequest {s : State} (h : P s) (p : SitePort) (c : Channel) : P (s.holdRequest p c).state := by
  unfold State.holdRequest
  split
  case h_5 a _ => exact law.hold h c p a
  all_goals exact h

theorem releaseRequest {s : State} (h : P s) (c : Channel) : P (s.releaseRequest c).state := by
  unfold State.releaseRequest
  split
  case h_1 => exact law.arm h c .lapse
  all_goals exact h

theorem returnRequest {s : State} (h : P s) (c : Channel) (mode : Byte) : P (s.returnRequest c mode).state := by
  have returned (pr : Prior) (m : ReturnMode) (a : OnAir) : P (s.returnFrom c pr m a).state := by
    unfold State.returnFrom
    split
    · exact law.acceptReturn h c pr m a
    · exact h
  unfold State.returnRequest
  split
  · exact h
  · split
    case h_4 => exact returned _ _ _
    case h_5 => exact returned _ _ _
    all_goals exact h

theorem routeRequest {s : State} (h : P s) (c : Channel) (source : Nat) : P (s.routeRequest c source).state := by
  unfold State.routeRequest
  split
  case h_5 p _ _ =>
    split
    · exact h
    · exact law.route h c p source
  all_goals exact h

theorem applyChannel {s : State} (h : P s) (c : Channel) (k : ChannelSettings) : P (s.applyChannel c k) := by
  have put : P (s.putCfg c k) := law.aside h (fun _ _ => by exact ⟨rfl, rfl, rfl⟩)
  unfold State.applyChannel
  split
  · exact put
  · exact law.enableChanged put c

theorem configureChannel {s : State} (h : P s) (c : Channel) (x : ChannelItems) : P (s.configureChannelRequest c x).state := by
  unfold State.configureChannelRequest
  dsimp only
  split
  · exact h
  · split
    · exact h
    · split
      · exact h
      · exact law.applyChannel h c _

theorem configureScan {s : State} (h : P s) (x : ScanItems) : P (s.configureScanRequest x).state := by
  have applied : P (s.applyScan x) := by
    refine eachChannel_keeps (P := P) (fun t c h => ?_) (s := s.putScanItems x) (law.aside h (fun _ _ => by exact ⟨rfl, rfl, rfl⟩))
    split
    · exact law.unscan h c
    · exact h
  unfold State.configureScanRequest
  split
  · exact h
  · split
    · exact h
    · split
      · exact h
      · exact applied

theorem clearChannel {s : State} (h : P s) (c : Channel) : P (s.clearChannel c) :=
  law.unhear (law.other ((State.emptyPages_acts (s.putBaseline c none) c).only) (law.aside h (fun _ _ => by exact ⟨rfl, rfl, rfl⟩)) (by simp)) c

/-! ## The commands -/

theorem execGoToAir {c : Channel} {s t : State} (run : execGoToAir c s = .next t) (h : P s) : P t := by
  refine whenRunning_keeps run (fun h => ?_) h
  split
  case h_1 =>
    split
    · exact law.goToAir h c _
    · exact h
  all_goals exact h

theorem execReturnComplete {c : Channel} {s t : State} (run : execReturnComplete c s = .next t) (h : P s) : P t := by
  refine whenRunning_keeps run (fun h => ?_) h
  split
  · split
    · exact law.becomeMain h c
    · exact h
  all_goals exact h

theorem execSegmentStart {c : Channel} {s t : State} (run : execSegmentStart c s = .next t) (h : P s) : P t := by
  refine whenRunning_keeps run (fun h => ?_) h
  split
  · split
    · exact law.planAfterStart (law.startHead h c _) c _
    · exact h
  · exact h

theorem execCueTake {s t : State} (run : execCueTake s = .next t) (h : P s) : P t := by
  refine whenRunning_keeps run (fun h => ?_) h
  split
  · exact law.takeEntry h _ _
  · exact h

theorem execCueSendEnd {s t : State} (run : execCueSendEnd s = .next t) (h : P s) : P t := by
  refine whenRunning_keeps run (fun h => ?_) h
  split
  · split
    · exact law.sendEnded h _
    · exact h
  · exact h

theorem execCueReply {a r : Byte} {s t : State} (run : execCueReply a r s = .next t) (h : P s) : P t := by
  refine whenRunning_keeps run (fun h => ?_) h
  split
  · split
    · exact law.replyTo h _ _
    · exact h
  · exact h

theorem execCueReplyTimeout {s t : State} (run : execCueReplyTimeout s = .next t) (h : P s) : P t := by
  refine whenRunning_keeps run (fun h => ?_) h
  split
  · split
    · exact law.endTxn h _ _
    · exact h
  · exact h

theorem execEditComplete {s t : State} (run : execEditComplete s = .next t) (h : P s) : P t := by
  refine whenRunning_keeps run (fun h => ?_) h
  split
  · exact law.setEngine (law.completeEdit h _ _) _
  all_goals exact h

theorem performFlip {s : State} (h : P s) (c : Channel) (p : ReadyPage) : P (s.performFlip c p) := by
  have first : P (s.airFirst c) := by
    unfold State.airFirst
    split
    · split
      · exact law.goToAir h c _
      · exact h
    all_goals exact h
  have swapped : P (((s.airFirst c).putPages c ⟨some p.activated, .empty⟩).abandonEdit c) :=
    law.other (State.abandonEdit_acts _ c).only (law.aside first (fun _ _ => by exact ⟨rfl, rfl, rfl⟩)) (by simp)
  unfold State.performFlip
  dsimp only
  split
  · exact swapped
  · exact law.pageChange swapped c

theorem execFlipPerform {c : Channel} {s t : State} (run : execFlipPerform c s = .next t) (h : P s) : P t := by
  refine whenRunning_keeps run (fun h => ?_) h
  split
  · split
    · exact law.performFlip h c _
    · exact h
  · exact h

theorem execCommitEnd {s t : State} (run : execCommitEnd s = .next t) (h : P s) : P t := by
  refine whenRunning_keeps run (fun h => ?_) h
  split
  · split
    · refine law.setEngine ?_ _
      unfold State.finishCommit
      dsimp only
      split
      · exact law.putNext h _ _
      · exact law.raise (law.discardNext h _) _ _
    all_goals exact law.setEngine h _
  all_goals exact h

theorem execFeedFrameCompletion {p : FeedPort} {y : Byte} {bs : List Byte} {k : BitVec 16} {s t : State}
    (run : execFeedFrameCompletion p y bs k s = .next t) (h : P s) : P t := by
  refine whenRunning_keeps run (fun h => ?_) h
  have wait : P (s.rxWait (feedLine p)) := law.other (s.rxWait_acts _).only h (by simp)
  dsimp only
  split
  · exact law.completeFrame wait p _
  · exact wait

theorem execKeyLevelAccepted {s t : State} (run : execKeyLevelAccepted s = .next t) (h : P s) : P t := by
  refine whenRunning_keeps run (fun h => ?_) h
  have key (k : KeyFilter) : P (s.putKey k) := law.aside h (fun _ _ => by exact ⟨rfl, rfl, rfl⟩)
  dsimp only
  split
  · split
    · exact law.keyArming (law.device _ (key _))
    · exact key _
  · exact h

theorem loseReference {s : State} (h : P s) : P s.loseReference := law.device (s := s.putCdu _) _ (law.aside h (fun _ _ => by exact ⟨rfl, rfl, rfl⟩))

theorem putCdu {s : State} (h : P s) (k : Cdu) : P (s.putCdu k) := law.aside h (fun _ _ => by exact ⟨rfl, rfl, rfl⟩)

theorem lockedPulse {s : State} (h : P s) : P s.lockedPulse := by
  have gated : P s.gateLast := by
    unfold State.gateLast
    split
    · exact h
    · exact law.other s.gateLine_only h (by simp)
  unfold State.lockedPulse
  split
  · exact law.putCdu gated _
  · exact h

theorem execRefFramePulse {s t : State} (run : execRefFramePulse s = .next t) (h : P s) : P t := by
  refine whenRunning_keeps run (fun h => ?_) h
  have pulse (k : Cdu) : P (s.putCdu k) := law.putCdu h k
  dsimp only
  split
  · exact law.putCdu (pulse _) _
  · exact law.lockedPulse (pulse _)
  · exact law.loseReference (pulse _)
  · exact pulse _
  · exact pulse _

theorem execLineSilence {s t : State} (run : execLineSilence s = .next t) (h : P s) : P t := by
  refine whenRunning_keeps run (fun h => ?_) h
  have pulse (k : Cdu) : P (s.putCdu k) := law.putCdu h k
  dsimp only
  split
  · exact law.putCdu (pulse _) _
  · exact law.loseReference (pulse _)
  · exact pulse _

theorem execMissingFramePulse {s t : State} (run : execMissingFramePulse s = .next t) (h : P s) : P t := by
  refine whenRunning_keeps run (fun h => ?_) h
  have missing (k : Cdu) : P (s.putCdu k) := law.putCdu h k
  dsimp only
  split
  · exact h
  · split
    · exact law.loseReference (missing _)
    · exact missing _

theorem execCrosspointAck {d n r : Byte} {s t : State} (run : execCrosspointAck d n r s = .next t) (h : P s) : P t := by
  refine whenRunning_keeps run (fun h => ?_) h
  split
  · exact h
  · next x rest _ =>
    have taken : P (s.putAwaiting rest) := law.aside h (fun _ _ => by exact ⟨rfl, rfl, rfl⟩)
    split
    · exact law.other (State.acknowledge_acts _ x.destination x.source).only taken (by simp [acknowledgeParts, everyChannel])
    · exact law.raise taken _ _

theorem execCrosspointAckTimeout {d : Fin 64} {s t : State} (run : execCrosspointAckTimeout d s = .next t) (h : P s) : P t := by
  refine whenRunning_keeps run (fun h => ?_) h
  split
  · exact h
  · exact law.raise (s := s.putAwaiting _) (law.aside h (fun _ _ => by exact ⟨rfl, rfl, rfl⟩)) _ _

theorem abandonPartial {s : State} (h : P s) (l : LineId) : P (s.abandonPartial l) := by
  have wait : P (s.rxWait l) := law.other (s.rxWait_acts l).only h (by simp)
  unfold State.abandonPartial
  dsimp only
  split
  · split
    · exact law.device _ wait
    · exact wait
  · split
    · exact law.device _ wait
    · exact wait
  all_goals exact wait

theorem execAnswerTransmitBegin {p : SitePort} {s t : State} (run : execAnswerTransmitBegin p s = .next t) (h : P s) : P t := by
  refine whenRunning_keeps run (fun h => ?_) h
  dsimp only
  split
  · exact law.putSite h p rfl rfl
  · exact h

theorem execNoticeTransmitBegin {p : SitePort} {s t : State} (run : execNoticeTransmitBegin p s = .next t) (h : P s) : P t := by
  refine whenRunning_keeps run (fun h => ?_) h
  dsimp only
  split
  · split
    · exact law.fewerPairs p _ rfl List.filter_sublist h
    · exact h
  · exact h

theorem execSwitchWindowEvent {s t : State} (run : execSwitchWindowEvent s = .next t) (h : P s) : P t := by
  refine whenRunning_keeps run (fun h => ?_) h
  split
  · exact h
  · refine law.same (s := s) (fun c => ?_) (fun _ => ⟨rfl, rfl⟩) h
    exact (s.putCdu s.cdu.openWindow).clearBoundaries_planned c

theorem takeKind {k : FeedKind} {s t : State} (run : whenRunning s (fun s => s.takeKind k) = .next t) (h : P s) : P t :=
  takeKind_keeps (k := k) (fun s p h => law.other (s.dropHead_acts p).only h (by simp)) (fun _ q _ h => law.handleFrame h q) run h

theorem exec {i : Instr} {s t : State} (run : exec i s = .next t) (h : P s) : P t := by
  have form {α : Type} {r : Request α} {owner : α → State → Verdict} {s : State} (h : P s) (own : ∀ x, P (owner x s).state) :
      P (owned r owner s).state := owned_ind (P := fun v => P v.state) r h own
  have held {s : State} {p : SitePort} {c : Channel} {v : Verdict} (h : P s) (own : P v.state) : P (s.asHolder p c v).state :=
    State.asHolder_ind (P := fun v => P v.state) p c h own
  have named {s : State} {b : Byte} {owner : Channel → Verdict} (h : P s) (own : ∀ c, P (owner c).state) : P (s.onChannel b owner).state :=
    State.onChannel_ind (P := fun v => P v.state) b h own
  cases i
  case powerOnReset => cases run; exact law.reset _ _
  case nrstAccepted => cases run; exact law.reset _ _
  case refFramePulse => exact law.execRefFramePulse run h
  case lineSilence => exact law.execLineSilence run h
  case missingFramePulse => exact law.execMissingFramePulse run h
  case frameStart k =>
    refine whenRunning_keeps (f := fun s => s.frameStart k) run (fun h => law.same (s := s) (fun _ => rfl) (fun p => ?_) h) h
    rw [State.site_frameStart]
    exact SitePortState.tick_notices _
  case switchWindowEvent => exact law.execSwitchWindowEvent run h
  case feedFrameCompletion => exact law.execFeedFrameCompletion run h
  case partialFrameAbandon l =>
    refine whenRunning_keeps run (fun h => ?_) h
    split
    · exact law.abandonPartial h l
    · exact h
  case listBegin => exact law.takeKind (k := .listBegin) run h
  case event => exact law.takeKind (k := .event) run h
  case listEnd => exact law.takeKind (k := .listEnd) run h
  case listAbort => exact law.takeKind (k := .listAbort) run h
  case insertAfter => exact law.takeKind (k := .insertAfter) run h
  case replace => exact law.takeKind (k := .replace) run h
  case delete => exact law.takeKind (k := .delete) run h
  case flip => exact law.takeKind (k := .flip) run h
  case heartbeat => exact law.takeKind (k := .heartbeat) run h
  case commitEnd => exact law.execCommitEnd run h
  case editComplete => exact law.execEditComplete run h
  case flipPerform => exact law.execFlipPerform run h
  case feedWatchExpiry p =>
    refine whenRunning_keeps run (fun h => ?_) h
    split
    · exact law.feedSilent h p
    · exact h
  case windowEnd => exact whenRunning_keeps run law.endWindow h
  case confirmExpiry c =>
    refine whenRunning_keeps run (fun h => ?_) h
    split
    · exact law.setHealth h c _
    · exact h
  case keyLevelAccepted => exact law.execKeyLevelAccepted run h
  case goToAir => exact law.execGoToAir run h
  case returnComplete => exact law.execReturnComplete run h
  case segmentStart => exact law.execSegmentStart run h
  case cueTake => exact law.execCueTake run h
  case cueSendEnd => exact law.execCueSendEnd run h
  case cueReply => exact law.execCueReply run h
  case cueReplyTimeout => exact law.execCueReplyTimeout run h
  case crosspointAck => exact law.execCrosspointAck run h
  case crosspointAckTimeout => exact law.execCrosspointAckTimeout run h
  case siteSilenceExpiry p =>
    refine whenRunning_keeps run (fun h => ?_) h
    split
    · exact law.siteSilent h p
    · exact h
  case answerTransmitBegin => exact law.execAnswerTransmitBegin run h
  case noticeTransmitBegin => exact law.execNoticeTransmitBegin run h
  case siteTransmitEnd p =>
    exact whenRunning_keeps (f := fun s => s.putSite p { s.site p with sending := none }) run (fun h => law.putSite h p rfl rfl) h
  case unknownRequest => exact law.askedAside run rfl h (by simp)
  case status => exact law.askedAside run rfl h (by simp)
  case channel => exact law.askedAside run rfl h (by simp)
  case eventRead => exact law.askedAside run rfl h (by simp)
  case clock => exact law.askedAside run rfl h (by simp)
  case flags => exact law.askedAside run rfl h (by simp)
  case setTime => exact law.askedAside run rfl h (by simp)
  case configureCadence => exact law.askedAside run rfl h (by simp [formatParts, everyChannel])
  case configurePorts => exact law.askedAside run rfl h (by simp)
  case scanStart => exact law.askedAside run rfl h (by simp)
  case scanStop => exact law.askedAside run rfl h (by simp)
  case clearFlags => exact law.askedAside run rfl h (by simp [clearedParts, everyChannel])
  case setAlarmMask => exact law.askedAside run rfl h (by simp)
  case save => exact law.askedAside run rfl h (by simp)
  case keepalive => exact law.askedAside run rfl h (by simp)
  case feedEnable => exact law.askedAside run rfl h (by simp)
  case take p r =>
    refine law.asked run rfl (fun s h => form h fun b => ?_) h
    split
    · exact law.takeEvery h p
    · exact named h fun c => law.takeOne h p c
  case takeAll p tag => exact law.asked run rfl (fun s h => law.takeEvery h p) h
  case cancel => exact law.asked run rfl (fun s h => form h fun _ => named h fun c => law.cancelArming h c) h
  case hold p r => exact law.asked run rfl (fun s h => form h fun _ => named h fun c => held h (law.holdRequest h p c)) h
  case release => exact law.asked run rfl (fun s h => form h fun _ => named h fun c => held h (law.releaseRequest h c)) h
  case returnToMain => exact law.asked run rfl (fun s h => form h fun _ => named h fun c => held h (law.returnRequest h c _)) h
  case route => exact law.asked run rfl (fun s h => form h fun _ => named h fun c => held h (law.routeRequest h c _)) h
  case configureChannel => exact law.asked run rfl (fun s h => form h fun x => named h fun c => law.configureChannel h c x.items) h
  case configureScan => exact law.asked run rfl (fun s h => form h fun x => law.configureScan h x) h
  case clearChannel =>
    refine law.asked run rfl (fun s h => form h fun _ => named h fun c => ?_) h
    split
    · exact law.clearChannel h c
    · exact h
  case setNoticeMask p r =>
    refine law.asked run rfl (fun s h => form h fun m => ?_) h
    split
    · exact law.masked p m h
    · exact h
  all_goals exact law.other (exec_only run) h (by simp [Instr.reach])

/-- A step keeps what every command keeps. -/
theorem step {s t : State} (run : step s = .next t) (h : P s) : P t := by
  refine step_keeps law.reads (fun q hq => ?_) (fun _ l h => law.abandonPartial h l)
    (fun s h => law.other s.lineTick_only h (by simp [lineParts])) (fun _ _ _ run => law.exec run) run h
  rcases hq with rfl | rfl | ⟨c, rfl⟩ <;> simp

end RoomLaw

end Sys2Proof.Machine

namespace Sys2Proof.Machine

/-! # The plans hold two segments at most (R144) -/

theorem State.plansFit_putCue {s : State} (h : s.PlansFit) (c : Channel) {k : CueChannel} (two : k.planned.length ≤ 2) :
    (s.putCue c k).PlansFit := fun d => by
  rw [State.cue_putCue]
  split
  · exact two
  · exact h d

theorem plansFit_law : RoomLaw False State.PlansFit where
  same plans _ h c := by rw [plans c]; exact h c
  cue c _ room h := State.plansFit_putCue h c (room.resolve_left id)
  bound := .inr fun _ h => h
  flag _ _ _ h := h
  device _ h := h
  reset s nrst c := by
    have channel : (s.heldInReset nrst).cue c = CueChannel.reset := PerChannel.get_same _ c
    rw [channel]
    exact Nat.zero_le 2
  fewerPairs _ _ _ _ h := h
  masked _ _ h := h

/-! # The pending pairs stand in their order (R174, R175, R177) -/

/-- The pending pairs of one port: in the order of rank, and each of a kind that the mask holds. -/
def SitePortState.Ranked (k : SitePortState) : Prop :=
  k.pairs.Pairwise (fun x y => x.rank < y.rank) ∧ ∀ x ∈ k.pairs, k.mask.getLsbD x.kind = true

theorem pairsRanked_iff {s : State} : s.PairsRanked ↔ ∀ p, (s.site p).Ranked := Iff.rfl

/-- Pairs of one rank name the same flag. -/
theorem PendingPair.sameFlag_of_rank {x y : PendingPair} (same : x.rank = y.rank) : x.sameFlag y = true := by
  obtain ⟨k, c, u⟩ := x
  obtain ⟨l, d, v⟩ := y
  simp only [PendingPair.rank, PendingPair.sameFlag, Bool.and_eq_true, beq_iff_eq] at same ⊢
  cases c with
  | none =>
    cases d with
    | none => exact ⟨by omega, rfl⟩
    | some d => have := d.isLt; dsimp only at same; omega
  | some c =>
    cases d with
    | none => have := c.isLt; dsimp only at same; omega
    | some d =>
      have hc := c.isLt
      have hd := d.isLt
      dsimp only at same
      exact ⟨by omega, congrArg some (Fin.ext (by omega))⟩

/-- R177: a pair joins at its rank. -/
theorem insertPair_ranked {q : PendingPair} {xs : List PendingPair} (ranked : xs.Pairwise fun x y => x.rank < y.rank)
    (fresh : ∀ x ∈ xs, q.rank ≠ x.rank) : (insertPair q xs).Pairwise fun x y => x.rank < y.rank := by
  induction xs with
  | nil => exact List.pairwise_singleton _ _
  | cons x xs ih =>
    obtain ⟨first, rest⟩ := List.pairwise_cons.mp ranked
    unfold insertPair
    split
    · next ahead => exact List.pairwise_cons.mpr ⟨fun y hy => (List.mem_cons.mp hy).elim (fun is => is ▸ ahead)
        fun later => Nat.lt_trans ahead (first y later), ranked⟩
    · next behind =>
      refine List.pairwise_cons.mpr ⟨fun y hy => ?_, ih rest fun y hy => fresh y (List.mem_cons_of_mem _ hy)⟩
      rcases mem_insertPair.mp hy with rfl | later
      · have := fresh x (List.mem_cons_self ..)
        omega
      · exact first y later

/-- R175, R176: what one setting of a flag does at a port keeps the order. -/
theorem SitePortState.offer_ranked {k : SitePortState} (h : k.Ranked) (q : PendingPair) (rising : Bool) : (k.offer q rising).Ranked := by
  obtain ⟨order, masked⟩ := h
  unfold SitePortState.offer
  split
  · split
    · have rank (x : PendingPair) : (if q.sameFlag x then { x with urgent := true } else x).rank = x.rank := by split <;> rfl
      have kind (x : PendingPair) : (if q.sameFlag x then { x with urgent := true } else x).kind = x.kind := by split <;> rfl
      refine ⟨List.pairwise_map.mpr (order.imp fun {x y} less => by rw [rank, rank]; exact less), fun x hx => ?_⟩
      obtain ⟨y, hy, rfl⟩ := List.mem_map.mp hx
      rw [kind]
      exact masked y hy
    · exact ⟨order, masked⟩
  · next fresh =>
    split
    · next joins =>
      refine ⟨insertPair_ranked order fun x hx same => fresh (List.any_eq_true.mpr ⟨x, hx, PendingPair.sameFlag_of_rank same⟩), fun x hx => ?_⟩
      rcases mem_insertPair.mp hx with rfl | held
      · exact (Bool.and_eq_true_iff.mp joins).2
      · exact masked x held
    · exact ⟨order, masked⟩

theorem State.pairsRanked_putSite {s : State} (h : s.PairsRanked) (p : SitePort) {k : SitePortState} (ranked : k.Ranked) :
    (s.putSite p k).PairsRanked := pairsRanked_iff.mpr fun q => by
  rw [State.site_putSite]
  split
  · exact ranked
  · exact h q

theorem SitePortState.ranked_sublist {k l : SitePortState} (h : k.Ranked) (mask : l.mask = k.mask) (fewer : l.pairs.Sublist k.pairs) :
    l.Ranked := ⟨h.1.sublist fewer, fun x hx => by rw [mask]; exact h.2 x (fewer.subset hx)⟩

theorem SitePortState.withMask_ranked {k : SitePortState} (h : k.Ranked) (m : BitVec 32) : (k.withMask m).Ranked :=
  ⟨h.1.sublist List.filter_sublist, fun _ hx => (List.mem_filter.mp hx).2⟩

theorem pairsRanked_law : RoomLaw True State.PairsRanked where
  same _ ports h := pairsRanked_iff.mpr fun p => SitePortState.ranked_sublist (h p) (ports p).2 (by rw [(ports p).1])
  cue _ _ _ h := h
  bound := .inl trivial
  flag f c u h := pairsRanked_iff.mpr fun p => by
    rw [State.site_raiseClassed]
    exact SitePortState.offer_ranked (h p) _ _
  device f h := pairsRanked_iff.mpr fun p => by
    rw [State.site_raiseDevice]
    exact SitePortState.offer_ranked (h p) _ _
  reset s nrst := pairsRanked_iff.mpr fun p => by
    cases p <;> exact ⟨List.Pairwise.nil, nofun⟩
  fewerPairs p _ mask fewer h := State.pairsRanked_putSite h p (SitePortState.ranked_sublist (h p) mask fewer)
  masked p m h := State.pairsRanked_putSite h p (SitePortState.withMask_ranked (h p) m)

/-! # The receive queues (R70) -/

/-- No receive queue holds more than two frames. -/
def State.FeedsFit (s : State) : Prop := ∀ p : FeedPort, (s.feed p).queue.length ≤ 2

theorem feedsFit_reads : ReadsOnly (· = .intake) State.FeedsFit := fun s t same h p => by
  obtain ⟨a, b, -⟩ := Prod.mk.inj (same .intake rfl) |>.imp_right Prod.mk.inj
  have queue : (t.feed p).queue = (s.feed p).queue := by
    cases p
    · exact (Prod.mk.inj a).1
    · exact (Prod.mk.inj b).1
  rw [queue]
  exact h p

theorem feedsFit_other {ps : List Part} {s t : State} (only : OnlyChanges ps s t) (h : s.FeedsFit)
    (free : Part.intake ∉ ps) : t.FeedsFit := readsOnly_keeps feedsFit_reads only (fun _ hq => hq ▸ free) h

theorem State.feedsFit_putFeed {s : State} (h : s.FeedsFit) (p : FeedPort) {k : FeedPortState} (two : k.queue.length ≤ 2) :
    (s.putFeed p k).FeedsFit := fun q => by
  rw [State.feed_putFeed]
  split
  · exact two
  · exact h q

theorem State.dropHead_fits {s : State} (h : s.FeedsFit) (p : FeedPort) : (s.dropHead p).FeedsFit :=
  State.feedsFit_putFeed (k := { s.feed p with queue := (s.feed p).queue.drop 1 }) h p
    (by
    rw [List.length_drop]
    exact Nat.le_trans (Nat.sub_le ..) (h p))

theorem State.handleFrame_fits {s : State} (h : s.FeedsFit) (q : QueuedFrame) : (s.handleFrame q).FeedsFit := by
  unfold State.handleFrame
  split
  · next c n b _ =>
    refine feedsFit_other (s.takeReplication_acts c n b).only h ?_
    cases b <;>
      simp [replicationParts, frameParts, listParts, loadParts, editParts, deviceFlagParts, cueParts, planParts, flagParts]
  · refine feedsFit_other (s.takeHeartbeatFrame_acts _ _).only h ?_
    simp [heartbeatParts, everyChannel, deviceFlagParts, healthParts, authorityParts, cueParts, planParts, flagParts]

/-- R70: a frame that comes while two are queued is discarded. -/
theorem State.completeFrame_fits {s : State} (h : s.FeedsFit) (p : FeedPort) (x : Option FeedFrame) : (s.completeFrame p x).FeedsFit := by
  have flag (k : DeviceFlag) : (s.raiseDevice k).FeedsFit := h
  unfold State.completeFrame
  split
  · exact flag _
  · next x =>
    have offered : (s.offerFrame p x).FeedsFit := by
      unfold State.offerFrame
      dsimp only
      split
      · next room => exact State.feedsFit_putFeed h p (by rw [List.length_append]; exact room)
      · exact flag _
    cases x with
    | replication _ _ _ => exact offered
    | heartbeat _ =>
      refine feedsFit_other (State.heartbeatSeen_acts _ p).only offered ?_
      simp [seenParts, everyChannel, healthParts, authorityParts, cueParts, planParts, flagParts]

theorem execFeedFrameCompletion_feeds {p : FeedPort} {y : Byte} {bs : List Byte} {k : BitVec 16} {s t : State}
    (run : execFeedFrameCompletion p y bs k s = .next t) (h : s.FeedsFit) : t.FeedsFit := by
  refine whenRunning_keeps run (fun h => ?_) h
  have wait : (s.rxWait (feedLine p)).FeedsFit := feedsFit_other (s.rxWait_acts _).only h (by simp)
  dsimp only
  split
  · exact State.completeFrame_fits wait p _
  · exact wait

theorem State.setFeedEnabled_fits {s : State} (h : s.FeedsFit) (p : FeedPort) (on : Bool) : (s.setFeedEnabled p on).FeedsFit := fun q => by
  by_cases same : q = p
  · rw [same, State.setFeedEnabled_feed]
    exact h p
  · have other : q = p.other := by cases p <;> cases q <;> first | rfl | exact absurd rfl same
    rw [other, State.setFeedEnabled_other]
    exact h _

theorem exec_feedsFit {i : Instr} {s t : State} (run : exec i s = .next t) (h : s.FeedsFit) : t.FeedsFit := by
  have taking {k : FeedKind} (run : whenRunning s (fun s => s.takeKind k) = .next t) : t.FeedsFit :=
    takeKind_keeps (k := k) (P := State.FeedsFit) (fun _ p h => State.dropHead_fits h p) (fun _ q _ h => State.handleFrame_fits h q) run h
  have reset (nrst : Bool) : (s.heldInReset nrst).FeedsFit := fun p => by cases p <;> exact Nat.zero_le 2
  cases i
  case powerOnReset => cases run; exact reset _
  case nrstAccepted => cases run; exact reset _
  case feedFrameCompletion => exact execFeedFrameCompletion_feeds run h
  case listBegin => exact taking (k := .listBegin) run
  case event => exact taking (k := .event) run
  case listEnd => exact taking (k := .listEnd) run
  case listAbort => exact taking (k := .listAbort) run
  case insertAfter => exact taking (k := .insertAfter) run
  case replace => exact taking (k := .replace) run
  case delete => exact taking (k := .delete) run
  case flip => exact taking (k := .flip) run
  case heartbeat => exact taking (k := .heartbeat) run
  case feedEnable p r =>
    refine asked_keeps run rfl (fun _ _ h => h) (fun s h => ?_) (fun _ _ _ h => h) h
    refine owned_ind (P := fun v => v.state.FeedsFit) r h fun x => ?_
    unfold State.feedEnableRequest
    split
    · split
      · exact State.setFeedEnabled_fits h _ _
      · exact h
    · exact h
  all_goals
    refine feedsFit_other (exec_only run) h ?_
    simp [Instr.reach, requestParts, everyChannel, deviceFlagParts, flagParts, planParts, cueParts, authorityParts, healthParts]

/-! # The answer queues (R165) -/

/-- No answer queue holds more than four answers. -/
def State.AnswersFit (s : State) : Prop := ∀ p : SitePort, (s.site p).answers.length ≤ 4

theorem answers_of_withoutPairs {k l : SitePortState} (same : l.withoutPairs = k.withoutPairs) : l.answers = k.answers :=
  (SitePortState.mk.inj same).2.2.1

theorem answersFit_reads : ReadsOnly (· = .sitePorts) State.AnswersFit := fun s t same h p => by
  obtain ⟨a, b⟩ := Prod.mk.inj (same .sitePorts rfl)
  have answers : (t.site p).answers = (s.site p).answers := by
    cases p
    · exact answers_of_withoutPairs a
    · exact answers_of_withoutPairs b
  rw [answers]
  exact h p

theorem answersFit_other {ps : List Part} {s t : State} (only : OnlyChanges ps s t) (h : s.AnswersFit)
    (free : Part.sitePorts ∉ ps) : t.AnswersFit := readsOnly_keeps answersFit_reads only (fun _ hq => hq ▸ free) h

theorem State.answersFit_putSite {s : State} (h : s.AnswersFit) (p : SitePort) {k : SitePortState} (four : k.answers.length ≤ 4) :
    (s.putSite p k).AnswersFit := fun q => by
  rw [State.site_putSite]
  split
  · exact four
  · exact h q

theorem State.validFrame_answersFit {s : State} (h : s.AnswersFit) (p : SitePort) : (s.validFrame p).AnswersFit := fun q => by
  rw [State.site_validFrame]
  split
  · exact h p
  · exact h q

/-- R164, R165: a request is taken only where fewer than four answers are queued, and its owner queues none. -/
theorem asked_answersFit {i : Instr} {p : SitePort} {code : Byte} {tag : Tag} {ps : List Part} {owner : State → Verdict} {s t : State}
    (run : exec i s = .next t) (ask : askingOf i = some ⟨p, code, tag, ps, owner⟩)
    (owned : ∀ u : State, ∀ q, ((owner u).state.site q).answers = (u.site q).answers) (h : s.AnswersFit) : t.AnswersFit := by
  rw [exec_asking ask] at run
  refine whenRunning_keeps run (fun h => ?_) h
  have taken := State.validFrame_answersFit h p
  unfold Asking.result State.answerBy
  dsimp only
  split
  · next room =>
    have decided : (owner (s.validFrame p)).state.AnswersFit := fun q => by rw [owned]; exact taken q
    refine State.answersFit_putSite decided p ?_
    rw [List.length_append, owned]
    exact of_decide_eq_true room
  · exact taken

/-- A request whose owner leaves the site ports alone. -/
theorem askedAside_answersFit {i : Instr} {p : SitePort} {code : Byte} {tag : Tag} {ps : List Part} {owner : State → Verdict}
    {s t : State} (run : exec i s = .next t) (ask : askingOf i = some ⟨p, code, tag, ps, owner⟩) (h : s.AnswersFit)
    (free : Part.sitePorts ∉ ps) : t.AnswersFit :=
  asked_answersFit run ask (fun u q => answers_of_withoutPairs (State.site_withoutPairs (asking_only ask u) free q)) h

theorem execSetNoticeMask_answers {p : SitePort} {r : Request (BitVec 32)} {s t : State} (run : exec (.setNoticeMask p r) s = .next t)
    (h : s.AnswersFit) : t.AnswersFit := by
  refine asked_answersFit run rfl (fun u q => ?_) h
  refine owned_ind (P := fun v => (v.state.site q).answers = (u.site q).answers) r rfl fun m => ?_
  split
  · show ((u.putSite p ((u.site p).withMask m)).site q).answers = _
    rw [State.site_putSite]
    split
    · next same => rw [same]; rfl
    · rfl
  · rfl

theorem execAnswerTransmitBegin_answers {p : SitePort} {s t : State} (run : execAnswerTransmitBegin p s = .next t) (h : s.AnswersFit) :
    t.AnswersFit := by
  refine whenRunning_keeps run (fun h => ?_) h
  dsimp only
  split
  · next a rest _ held =>
    have four := h p
    rw [held] at four
    exact State.answersFit_putSite h p (Nat.le_of_succ_le four)
  · exact h

theorem execNoticeTransmitBegin_answers {p : SitePort} {s t : State} (run : execNoticeTransmitBegin p s = .next t) (h : s.AnswersFit) :
    t.AnswersFit := by
  refine whenRunning_keeps run (fun h => ?_) h
  dsimp only
  split
  · split
    · exact State.answersFit_putSite h p (h p)
    · exact h
  · exact h

theorem State.siteSilent_answers {s : State} (h : s.AnswersFit) (p : SitePort) : (s.siteSilent p).AnswersFit := by
  have silent : (s.putSite p { s.site p with live := false, timer := 0 }).AnswersFit := State.answersFit_putSite h p (h p)
  refine answersFit_other (State.lapseHolds_acts _ p).only (answersFit_other (State.raiseDevice_acts _ _).only silent ?_) ?_
  · simp [deviceFlagParts]
  · simp [everyChannel, authorityParts, cueParts, planParts, flagParts]

theorem SitePortState.tick_answers (k : SitePortState) : k.tick.answers = k.answers := by
  unfold SitePortState.tick
  split <;> rfl

theorem exec_answersFit {i : Instr} {s t : State} (run : exec i s = .next t) (h : s.AnswersFit) : t.AnswersFit := by
  have reset (nrst : Bool) : (s.heldInReset nrst).AnswersFit := fun p => by cases p <;> exact Nat.zero_le 4
  have channels {f : Channel → List Part} (free : ∀ c, Part.sitePorts ∉ f c) : Part.sitePorts ∉ everyChannel f := not_mem_everyChannel free
  have authority (c : Channel) : Part.sitePorts ∉ authorityParts c := by simp [authorityParts, cueParts, planParts, flagParts]
  have health (c : Channel) : Part.sitePorts ∉ healthParts c := by simp [healthParts, authority c]
  cases i
  case powerOnReset => cases run; exact reset _
  case nrstAccepted => cases run; exact reset _
  case frameStart k =>
    refine whenRunning_keeps (f := fun s => s.frameStart k) run (fun h p => ?_) h
    rw [State.site_frameStart, SitePortState.tick_answers]
    exact h p
  case siteSilenceExpiry p =>
    refine whenRunning_keeps run (fun h => ?_) h
    split
    · exact State.siteSilent_answers h p
    · exact h
  case answerTransmitBegin => exact execAnswerTransmitBegin_answers run h
  case noticeTransmitBegin => exact execNoticeTransmitBegin_answers run h
  case siteTransmitEnd p =>
    exact whenRunning_keeps (f := fun s => s.putSite p { s.site p with sending := none }) run
      (fun h => State.answersFit_putSite h p (h p)) h
  case setNoticeMask => exact execSetNoticeMask_answers run h
  case unknownRequest => exact askedAside_answersFit run rfl h (by simp)
  case status => exact askedAside_answersFit run rfl h (by simp)
  case channel => exact askedAside_answersFit run rfl h (by simp)
  case eventRead => exact askedAside_answersFit run rfl h (by simp)
  case clock => exact askedAside_answersFit run rfl h (by simp)
  case flags => exact askedAside_answersFit run rfl h (by simp)
  case take => exact askedAside_answersFit run rfl h (channels authority)
  case takeAll => exact askedAside_answersFit run rfl h (channels authority)
  case cancel => exact askedAside_answersFit run rfl h (channels authority)
  case hold => exact askedAside_answersFit run rfl h (channels authority)
  case release => exact askedAside_answersFit run rfl h (channels authority)
  case returnToMain => exact askedAside_answersFit run rfl h (channels authority)
  case route => exact askedAside_answersFit run rfl h (channels (by simp))
  case setTime => exact askedAside_answersFit run rfl h (by simp)
  case configureChannel => exact askedAside_answersFit run rfl h (by simp [settingsParts, channels health])
  case configureCadence => exact askedAside_answersFit run rfl h (by simp [formatParts, everyChannel])
  case configurePorts => exact askedAside_answersFit run rfl h (by simp)
  case configureScan => exact askedAside_answersFit run rfl h (by simp [settingsParts, channels health])
  case scanStart => exact askedAside_answersFit run rfl h (by simp)
  case scanStop => exact askedAside_answersFit run rfl h (by simp)
  case clearChannel =>
    exact askedAside_answersFit run rfl h (by simp [clearingParts, everyChannel, healthParts, authorityParts, cueParts, planParts, flagParts])
  case clearFlags => exact askedAside_answersFit run rfl h (by simp [clearedParts, everyChannel])
  case setAlarmMask => exact askedAside_answersFit run rfl h (by simp)
  case save => exact askedAside_answersFit run rfl h (by simp)
  case keepalive => exact askedAside_answersFit run rfl h (by simp)
  case feedEnable => exact askedAside_answersFit run rfl h (by simp)
  all_goals
    refine answersFit_other (exec_only run) h ?_
    simp [Instr.reach, everyChannel, deviceFlagParts, flagParts, planParts, cueParts, authorityParts, healthParts]

/-! # Every step -/

theorem step_queuesFit {s t : State} (run : step s = .next t) (h : s.QueuesFit) : t.QueuesFit := by
  obtain ⟨feeds, answers⟩ := h
  constructor
  · refine step_keeps feedsFit_reads (fun q hq => by subst hq; decide) (fun s l h => ?_) (fun s h => ?_) (fun _ _ _ => exec_feedsFit) run feeds
    · exact feedsFit_other (s.abandonPartial_only l) h (by simp [deviceFlagParts])
    · exact feedsFit_other s.lineTick_only h (by simp [lineParts])
  · refine step_keeps answersFit_reads (fun q hq => by subst hq; decide) (fun s l h => ?_) (fun s h => ?_) (fun _ _ _ => exec_answersFit) run
      answers
    · exact answersFit_other (s.abandonPartial_only l) h (by simp [deviceFlagParts])
    · exact answersFit_other s.lineTick_only h (by simp [lineParts])

/-- Settles O7: the queues by the commands that lengthen them, the plans and the pairs by the two laws of what every command does to them. -/
theorem queuesStayWithinRoom : Obligations.QueuesStayWithinRoom :=
  ⟨fun _ _ h run => step_queuesFit run h, fun _ _ h run => plansFit_law.step run h, fun _ _ h run => pairsRanked_law.step run h⟩

end Sys2Proof.Machine

namespace Sys2Proof.Machine

/-! # Lists that stay in order (R46, R50, R55, R61) -/

/-! ## HARD starts that do not fall -/

theorem firstHard_mem {es : List Event} {l : Nat} (first : firstHard es = some l) : ∃ e ∈ es, e.hardRel = some l :=
  List.exists_of_findSome?_eq_some first

theorem firstHard_of_mem {es : List Event} {e : Event} (held : e ∈ es) {b : Nat} (hard : e.hardRel = some b) : ∃ l, firstHard es = some l := by
  cases first : firstHard es with
  | some l => exact ⟨l, rfl⟩
  | none =>
    rw [firstHard_eq_none.mp first e held] at hard
    cases hard

/-- R62: HARD starts that do not fall from one to the next do not fall from any to a later one. -/
theorem hardsInOrder_iff {es : List Event} :
    hardsInOrder es = true ↔ es.Pairwise fun e e' => ∀ a b, e.hardRel = some a → e'.hardRel = some b → a ≤ b := by
  induction es with
  | nil => simp [hardsInOrder]
  | cons e es ih =>
    constructor
    · intro ordered
      have tail := ih.mp (hardsInOrder_tail ordered)
      refine List.pairwise_cons.mpr ⟨fun e' held a b hard hard' => ?_, tail⟩
      obtain ⟨pre, post, rfl⟩ := List.append_of_mem held
      cases first : firstHard pre with
      | none =>
        have next : firstHard (pre ++ e' :: post) = some b := firstHard_split (firstHard_eq_none.mp first) hard'
        exact hardsInOrder_head ordered hard next
      | some l =>
        obtain ⟨x, hx, is⟩ := firstHard_mem first
        have next : firstHard (pre ++ e' :: post) = some l := by rw [firstHard, List.findSome?_append, ← firstHard, first, Option.some_or]
        exact (hardsInOrder_head ordered hard next).trans ((List.pairwise_append.mp tail).2.2 x hx e' (List.mem_cons_self ..) l b is hard')
    · intro ordered
      obtain ⟨head, tail⟩ := List.pairwise_cons.mp ordered
      rw [hardsInOrder, ih.mpr tail, Bool.and_true]
      split
      · next a b hard next =>
        obtain ⟨x, hx, is⟩ := firstHard_mem next
        exact decide_eq_true (head x hx a b hard is)
      · rfl

theorem hardsInOrder_sublist {xs ys : List Event} (sub : xs.Sublist ys) (ordered : hardsInOrder ys = true) : hardsInOrder xs = true :=
  hardsInOrder_iff.mpr ((hardsInOrder_iff.mp ordered).sublist sub)

/-- R50 check 3: an event joins behind the latest HARD record. -/
theorem hardsInOrder_append {es : List Event} {e : Event} (ordered : hardsInOrder es = true)
    (latest : ∀ x, e.hardRel = some x → ∀ e' y, (es.filter Event.isHard).getLast? = some e' → e'.hardRel = some y → y ≤ x) :
    hardsInOrder (es ++ [e]) = true := by
  have pairs := hardsInOrder_iff.mp ordered
  refine hardsInOrder_iff.mpr (List.pairwise_append.mpr ⟨pairs, List.pairwise_singleton _ _, fun e' held e'' last a b hard hard' => ?_⟩)
  rw [List.mem_singleton] at last
  subst last
  have inFilter : e' ∈ es.filter Event.isHard := List.mem_filter.mpr ⟨held, by rw [Event.isHard, hard]; rfl⟩
  cases final : (es.filter Event.isHard).getLast? with
  | none =>
    rw [List.getLast?_eq_none_iff.mp final] at inFilter
    cases inFilter
  | some z =>
    obtain ⟨front, split⟩ := List.getLast?_eq_some_iff.mp final
    have zHard : z.isHard = true := (List.mem_filter.mp (split ▸ List.mem_append_right front (List.mem_singleton_self z))).2
    obtain ⟨y, is⟩ := Option.isSome_iff_exists.mp zHard
    have upTo := latest b hard' z y final is
    have sorted := pairs.sublist (List.filter_sublist (p := Event.isHard))
    rw [split] at sorted inFilter
    rcases List.mem_append.mp inFilter with early | same
    · exact ((List.pairwise_append.mp sorted).2.2 e' early z (List.mem_singleton_self z) a y hard is).trans upTo
    · rw [List.mem_singleton] at same
      subst same
      cases hard.symm.trans is
      exact upTo

/-! ## Resolution of a list with a HARD head -/

/-- A HARD event starts at its own start, wherever the walk stands. -/
theorem resolveFrom_hard {e : Event} {a : Nat} (hard : e.hardRel = some a) (es : List Event) (before after : Nat) :
    resolveFrom before (e :: es) = resolveFrom after (e :: es) := by simp only [resolveFrom, hard, Option.getD_some]

/-- An event that is cut to nothing at a limit starts at it. -/
theorem limitedTo_nothing {l start dur : Nat} (some : 1 ≤ dur) (le : start ≤ l) (empty : (limitedTo (Option.some l) start dur).1 = 0) :
    l = start := by
  rcases lt_or_ge l (start + dur) with cut | fits
  · rw [limitedTo_cut cut] at empty
    dsimp only at empty
    omega
  · rw [limitedTo_fits fits] at empty
    dsimp only at empty
    omega

/-- Where the walk stands at the next HARD start, what it removes before the first event that remains is cut by a HARD event at that
start: the first that remains is HARD. -/
theorem resolveFrom_head {es : List Event} {before : Nat} (ordered : hardsInOrder es = true) (durations : ∀ e ∈ es, 1 ≤ e.duration)
    (here : firstHard es = some before) {x : Event} (head : (resolveFrom before es).1.head? = some x) : x.isHard = true := by
  induction es with
  | nil => cases here
  | cons e es ih =>
    have tail := hardsInOrder_tail ordered
    have some := durations e (List.mem_cons_self ..)
    have rest := fun e' held => durations e' (List.mem_cons_of_mem _ held)
    have start : e.hardRel.getD before = before := by
      cases hard : e.hardRel with
      | none => rfl
      | some a =>
        rw [firstHard_cons_hard hard] at here
        cases here
        rfl
    by_cases empty : (limitedTo (firstHard es) (e.hardRel.getD before) e.duration).1 = 0
    · rw [resolveFrom_removed empty, start] at head
      rw [start] at empty
      have next : firstHard es = Option.some before := by
        cases next : firstHard es with
        | none =>
          rw [next, limitedTo_none] at empty
          dsimp only at empty
          omega
        | some l =>
          have le : before ≤ l := by
            cases hard : e.hardRel with
            | none =>
              rw [firstHard_cons_follow hard, next] at here
              cases here
              exact le_rfl
            | some a =>
              rw [firstHard_cons_hard hard] at here
              cases here
              exact hardsInOrder_head ordered hard next
          rw [next] at empty
          rw [limitedTo_nothing some le empty]
      exact ih tail rest next head
    · rw [resolveFrom_kept rfl empty] at head
      cases head
      cases hard : e.hardRel with
      | some a => exact Option.isSome_of_eq_some hard
      | none =>
        rw [firstHard_cons_follow hard] at here
        rw [here, start] at empty
        exact absurd (by rw [limitedTo_cut (by omega)]; exact Nat.sub_self before) empty

/-- What remains are events of the list, with all but their resolution as it was. -/
theorem mem_resolveFrom {before : Nat} {es : List Event} {e : Event} (held : e ∈ (resolveFrom before es).1) :
    ∃ e' ∈ es, e.unresolved = e'.unresolved := by
  obtain ⟨e', held', same⟩ := List.mem_map.mp ((resolveFrom_sublist before es).subset (List.mem_map_of_mem held))
  exact ⟨e', held', same.symm⟩

theorem resolveFrom_ids (before : Nat) (es : List Event) : ((resolveFrom before es).1.map Event.id).Sublist (es.map Event.id) := by
  have sub := (resolveFrom_sublist before es).map Event.id
  rwa [List.map_map, List.map_map] at sub

/-! ## Resolved and loaded lists -/

theorem resolvedWell_nil (f : Format) : resolvedWell f [] :=
  ⟨Nat.zero_le _, List.nodup_nil, nofun, List.Pairwise.nil, nofun⟩

theorem resolvedWell_prefix {f : Format} {pre post : List Event} (well : resolvedWell f (pre ++ post)) : resolvedWell f pre := by
  obtain ⟨short, ids, each, apart, head⟩ := well
  rw [List.length_append] at short
  rw [List.map_append] at ids
  refine ⟨by omega, (List.nodup_append.mp ids).1, fun e held => each e (List.mem_append_left _ held), (List.pairwise_append.mp apart).1,
    fun e first => head e ?_⟩
  rw [List.head?_append, first, Option.some_or]

/-- A list that is resolved up to a HARD event and walked from it on is resolved. -/
theorem resolvedWell_walk {f : Format} {pre suf : List Event} (short : (pre ++ suf).length ≤ 1024) (ids : ((pre ++ suf).map Event.id).Nodup)
    (ordered : hardsInOrder suf = true) (durations : ∀ e ∈ suf, 1 ≤ e.duration ∧ e.duration ≤ fpd f)
    (span : ∀ e ∈ (resolveFrom 0 suf).1, ∀ r, e.res = some r → r.start < 3 * fpd f) (head : ∀ e, suf.head? = some e → e.isHard = true)
    (well : resolvedWell f pre) (ends : ∀ a, firstHard suf = some a → ∀ e ∈ pre, ∀ r, e.res = some r → r.start + r.dur ≤ a) :
    resolvedWell f (pre ++ (resolveFrom 0 suf).1) := by
  obtain ⟨-, preIds, preEach, preApart, preHead⟩ := well
  have count := resolveFrom_count 0 suf
  have fromHead : suf = [] ∨ ∃ a, firstHard suf = some a ∧ resolveFrom 0 suf = resolveFrom a suf := by
    cases suf with
    | nil => exact .inl rfl
    | cons e es =>
      obtain ⟨a, hard⟩ := Option.isSome_iff_exists.mp (head e rfl)
      exact .inr ⟨a, firstHard_cons_hard hard es, resolveFrom_hard hard es 0 a⟩
  obtain ⟨each, apart⟩ := resolveFrom_events ordered (reaches_zero suf)
  refine ⟨?_, ?_, fun e held => ?_, List.pairwise_append.mpr ⟨preApart, apart, fun e held e' held' r r' res res' => ?_⟩, fun e first => ?_⟩
  · rw [List.length_append] at short ⊢
    omega
  · rw [List.map_append] at ids ⊢
    exact ids.sublist ((List.Sublist.refl _).append (resolveFrom_ids 0 suf))
  · rcases List.mem_append.mp held with old | walked
    · exact preEach e old
    · obtain ⟨e', held', same⟩ := mem_resolveFrom walked
      obtain ⟨r, res, -, long, within, -, own⟩ := each e walked
      have duration : e.duration = e'.duration := (Event.mk.inj same).2.2.1
      exact ⟨duration ▸ (durations e' held').2, r, res, long, within, span e walked r res, own⟩
  · rcases fromHead with rfl | ⟨a, first, same⟩
    · cases held'
    · rw [same] at held'
      obtain ⟨x, resX, after, -⟩ := (resolveFrom_events ordered (fun l next => by rw [first] at next; cases next; exact le_rfl)).1 e' held'
      cases res'.symm.trans resX
      exact (ends a first e held r res).trans after
  · rcases fromHead with rfl | ⟨a, start, same⟩
    · rw [resolveFrom_nil, List.append_nil] at first
      exact preHead e first
    · cases pre with
      | nil =>
        rw [List.nil_append, same] at first
        exact resolveFrom_head ordered (fun e held => (durations e held).1) start first
      | cons x xs =>
        exact preHead e first

/-- R53, R55, R56: a loaded page that begins HARD resolves well where it holds the span. -/
theorem resolvedWell_commit {f : Format} {es : List Event} (loaded : loadedWell f es) (head : ∀ e, es.head? = some e → e.isHard = true)
    (span : ∀ e ∈ (resolveFrom 0 es).1, ∀ r, e.res = some r → r.start < 3 * fpd f) : resolvedWell f (resolveFrom 0 es).1 := by
  obtain ⟨short, ids, ordered, each⟩ := loaded
  exact resolvedWell_walk (pre := []) short ids ordered (fun e held => ⟨(each e held).1, (each e held).2.1⟩) span head (resolvedWell_nil f)
    (fun _ _ _ held => nomatch held)

theorem loadedWell_nil (f : Format) : loadedWell f [] := ⟨Nat.zero_le _, List.nodup_nil, rfl, nofun⟩

theorem formEvent_duration {f : Format} {day : Nat} {r : EventRecord} {e : Event} (formed : formEvent f day r = some e) :
    1 ≤ e.duration ∧ e.duration ≤ fpd f := by
  rw [formEvent_eq, Option.ite_none_right_eq_some] at formed
  obtain ⟨m, -, rfl⟩ := Option.map_eq_some_iff.mp formed.2
  exact durationInRange_iff.mp formed.1.2

/-- R50: an event that passes its checks joins a loaded page. -/
theorem loadedWell_append {f : Format} {es : List Event} {day : Nat} {r : EventRecord} {e : Event} (loaded : loadedWell f es)
    (formed : formEvent f day r = some e) (good : loadable f es e = true) : loadedWell f (es ++ [e]) := by
  obtain ⟨short, ids, ordered, each⟩ := loaded
  obtain ⟨hard, fresh, room⟩ := loadable_iff.mp good
  refine ⟨by rw [List.length_append]; exact room, ?_, hardsInOrder_append ordered fun x hx => (hard x hx).2, fun e' held => ?_⟩
  · rw [List.map_append, List.map_singleton]
    refine List.nodup_append.mpr ⟨ids, List.nodup_singleton _, fun i hi j hj same => ?_⟩
    obtain ⟨e', held, rfl⟩ := List.mem_map.mp hi
    rw [List.mem_singleton] at hj
    exact fresh e' held (same.trans hj)
  · rcases List.mem_append.mp held with old | new
    · exact each e' old
    · rw [List.mem_singleton] at new
      subst new
      obtain ⟨low, high⟩ := formEvent_duration formed
      exact ⟨low, high, fun x hx => (hard x hx).1⟩

end Sys2Proof.Machine

namespace Sys2Proof.Machine

/-! # Edited lists (R61, R62) -/

theorem placeOf_lt {es : List Event} {id : EventId} {i : Nat} (place : placeOf es id = some i) : i < es.length := by
  rw [placeOf, Option.ite_none_right_eq_some] at place
  obtain ⟨held, same⟩ := place
  cases same
  obtain ⟨e, he, is⟩ := List.any_eq_true.mp held
  refine Nat.lt_of_le_of_ne ((List.takeWhile_sublist _).length_le) fun all => ?_
  have whole := List.takeWhile_prefix (l := es) (fun e : Event => e.id != id) |>.eq_of_length all
  rw [← whole] at he
  exact absurd (List.mem_takeWhile_imp he) (by simpa using is)

/-- What an edit makes of a list: before the edit point it is as it was, a record that it brings is well formed, and an insertion makes it
longer by one. -/
structure EditedFrom (f : Format) (es : List Event) (op : EditOp) (x : Edited) : Prop where
  before : x.events.take x.point = es.take x.point
  events : ∀ e ∈ x.events, e ∈ es ∨ ∃ day r, formEvent f day r = some e
  length : x.events.length ≤ es.length + if op.takesSlot then 1 else 0

theorem mem_spliced {es : List Event} {i j : Nat} {e x : Event} (held : x ∈ es.take i ++ e :: es.drop j) : x ∈ es ∨ x = e := by
  rcases List.mem_append.mp held with early | rest
  · exact .inl (List.mem_of_mem_take early)
  · rcases List.mem_cons.mp rest with same | late
    · exact .inr same
    · exact .inl (List.mem_of_mem_drop late)

theorem take_spliced {es : List Event} {i : Nat} (le : i ≤ es.length) (rest : List Event) : (es.take i ++ rest).take i = es.take i := by
  rw [List.take_append_of_le_length (by rw [List.length_take]; omega), List.take_take, Nat.min_self]

theorem formEdited_from {f : Format} {page : Page} {op : EditOp} {x : Edited} (formed : formEdited f page op = some x) :
    EditedFrom f page.events op x := by
  cases op with
  | insertAfter ref r =>
    unfold formEdited at formed
    dsimp only at formed
    split at formed
    · next e i record place =>
      cases formed
      have le : i ≤ page.events.length := by
        split at place
        · cases place
          exact Nat.zero_le _
        · obtain ⟨j, at_, rfl⟩ := Option.map_eq_some_iff.mp place
          exact placeOf_lt at_
      refine ⟨take_spliced le _, fun x held => (mem_spliced held).imp_right fun same => ⟨_, r, same ▸ record⟩, ?_⟩
      simp only [List.length_append, List.length_cons, List.length_take, List.length_drop, EditOp.takesSlot, if_true]
      omega
    · cases formed
  | replace id r =>
    unfold formEdited at formed
    dsimp only at formed
    split at formed
    · next e i record place =>
      cases formed
      have lt := placeOf_lt place
      refine ⟨take_spliced (Nat.le_of_lt lt) _, fun x held => (mem_spliced held).imp_right fun same => ⟨_, r, same ▸ record⟩, ?_⟩
      simp only [List.length_append, List.length_cons, List.length_take, List.length_drop]
      omega
    · cases formed
  | delete id =>
    obtain ⟨i, place, rfl⟩ := Option.map_eq_some_iff.mp formed
    refine ⟨?_, fun x held => .inl (List.mem_of_mem_eraseIdx held), Nat.le_add_right_of_le (List.length_eraseIdx_le ..)⟩
    dsimp only
    rw [List.eraseIdx_eq_take_drop_succ]
    exact take_spliced (Nat.le_of_lt (placeOf_lt place)) _

/-- R61: the walk begins at the head, or at the last HARD event before the edit point. -/
theorem Edited.walkFrom_cases (x : Edited) : x.walkFrom = 0 ∨
    ∃ pre h mid, x.events.take x.point = pre ++ h :: mid ∧ h.isHard = true ∧ x.walkFrom = pre.length := by
  have split := List.takeWhile_append_dropWhile (p := fun e : Event => !e.isHard) (l := (x.events.take x.point).reverse)
  unfold Edited.walkFrom
  generalize (x.events.take x.point) = t at split ⊢
  cases rest : t.reverse.dropWhile fun e => !e.isHard with
  | nil =>
    rw [rest, List.append_nil] at split
    rw [split, List.length_reverse]
    exact .inl (by omega)
  | cons h pre =>
    have hard : h.isHard = true := by
      have stops := List.head?_dropWhile_not (fun e : Event => !e.isHard) t.reverse
      rw [rest] at stops
      simpa using stops
    have whole := congrArg List.reverse split
    rw [rest, List.reverse_append, List.reverse_cons, List.reverse_reverse, List.append_assoc, List.singleton_append] at whole
    refine .inr ⟨pre.reverse, h, _, whole.symm, hard, ?_⟩
    have len := congrArg List.length whole
    simp only [List.length_append, List.length_reverse, List.length_cons] at len
    rw [List.length_reverse]
    omega

theorem idsDistinct_nodup {es : List Event} (distinct : idsDistinct es = true) : (es.map Event.id).Nodup := by
  induction es with
  | nil => exact List.nodup_nil
  | cons e es ih =>
    rw [idsDistinct, Bool.and_eq_true, Bool.not_eq_true', List.any_eq_false] at distinct
    refine List.nodup_cons.mpr ⟨fun held => ?_, ih distinct.2⟩
    obtain ⟨e', he, same⟩ := List.mem_map.mp held
    exact distinct.1 e' he (beq_iff_eq.mpr same)

/-- What R62 asks of an edited list. -/
structure Standing (f : Format) (x : Edited) : Prop where
  ids : (x.events.map Event.id).Nodup
  order : hardsInOrder x.events = true
  head : ∀ e, x.events.head? = some e → e.isHard = true
  span : ∀ e ∈ x.resolved.1, ∀ r, e.res = some r → r.start < 3 * fpd f
  short : x.events.length ≤ 1024

theorem Edited.stands_standing {f : Format} {x : Edited} (stands : x.stands f = true) : Standing f x := by
  simp only [Edited.stands, Bool.and_eq_true, decide_eq_true_eq] at stands
  obtain ⟨⟨⟨⟨ids, order⟩, head⟩, span⟩, short⟩ := stands
  refine ⟨idsDistinct_nodup ids, order, fun e first => ?_, spanHolds_iff.mp span, short⟩
  cases list : x.events with
  | nil => rw [list] at first; cases first
  | cons y ys =>
    rw [list] at first head
    cases first
    exact head

theorem Edited.resolved_length (x : Edited) : x.resolved.1.length ≤ x.events.length := by
  have count := resolveFrom_count 0 (x.events.drop x.walkFrom)
  rw [List.length_drop] at count
  unfold Edited.resolved
  dsimp only
  rw [List.length_append, List.length_take]
  omega

/-- R61, R62: an edit of a resolved page that can stand leaves it resolved. -/
theorem resolvedWell_edit {f : Format} {es : List Event} {op : EditOp} {x : Edited} (well : resolvedWell f es)
    (edited : EditedFrom f es op x) (standing : Standing f x) : resolvedWell f x.resolved.1 := by
  have durations : ∀ e ∈ x.events, 1 ≤ e.duration ∧ e.duration ≤ fpd f := fun e held => by
    rcases edited.events e held with old | ⟨day, r, formed⟩
    · obtain ⟨long, r, -, some, within, -⟩ := well.2.2.1 e old
      exact ⟨some.trans within, long⟩
    · exact formEvent_duration formed
  have whole := List.take_append_drop x.walkFrom x.events
  have walk (head : ∀ e, (x.events.drop x.walkFrom).head? = some e → e.isHard = true) (pre : resolvedWell f (x.events.take x.walkFrom))
      (ends : ∀ a, firstHard (x.events.drop x.walkFrom) = some a → ∀ e ∈ x.events.take x.walkFrom, ∀ r, e.res = some r → r.start + r.dur ≤ a) :
      resolvedWell f x.resolved.1 :=
    resolvedWell_walk (by rw [whole]; exact standing.short) (by rw [whole]; exact standing.ids)
      (hardsInOrder_sublist (List.drop_sublist ..) standing.order) (fun e held => durations e (List.mem_of_mem_drop held))
      (fun e held => standing.span e (List.mem_append_right _ held)) head pre ends
  rcases x.walkFrom_cases with start | ⟨pre, h, mid, split, hard, start⟩
  · refine walk ?_ ?_ ?_
    · rw [start]
      exact standing.head
    · rw [start]
      exact resolvedWell_nil f
    · rw [start]
      exact fun _ _ _ held => nomatch held
  · have list : x.events = pre ++ h :: (mid ++ x.events.drop x.point) := by
      rw [← List.cons_append, ← List.append_assoc, ← split, List.take_append_drop]
    have old : es = pre ++ h :: (mid ++ es.drop x.point) := by
      rw [← List.cons_append, ← List.append_assoc, ← split, edited.before, List.take_append_drop]
    have front : x.events.take x.walkFrom = pre := by
      rw [start, list]
      exact List.take_left
    have back : x.events.drop x.walkFrom = h :: (mid ++ x.events.drop x.point) := by
      rw [start]
      conv_lhs => rw [list]
      exact List.drop_left
    rw [old] at well
    refine walk ?_ ?_ ?_
    · rw [back]
      intro e first
      cases first
      exact hard
    · rw [front]
      exact resolvedWell_prefix well
    · rw [back, front]
      intro a first e held r res
      obtain ⟨b, own⟩ := Option.isSome_iff_exists.mp hard
      rw [firstHard_cons_hard own] at first
      obtain ⟨-, rh, resH, -, -, -, at_⟩ := well.2.2.1 h (List.mem_append_right _ (List.mem_cons_self ..))
      rw [← Option.some.inj first, ← at_ b own]
      exact resolvedWell_before well resH held res

end Sys2Proof.Machine

namespace Sys2Proof.Machine

/-! # Conditions on the pages (R45, R46, R47)

Every command reaches the pages through the replacing of one channel's pages, by pages that are as sound, as short, and as few slots in all,
or by one event more while a slot is free; or it empties every page. -/

/-- What R46, R47 and R50 ask of a next page. -/
def nextWell (f : Format) : NextPage → Prop
  | .empty => True
  | .loading g => loadedWell f g.events
  | .committing g => loadedWell f g.events ∧ ∀ e, g.events.head? = some e → e.isHard = true
  | .ready g => resolvedWell f g.events

/-- What they ask of a channel's pages. -/
def pagesWell (f : Format) (k : Pages) : Prop := resolvedWell f (activeEvents k.active) ∧ nextWell f k.next

/-- R46: neither page is longer than 1024 events. -/
def pagesFit (k : Pages) : Prop := (activeEvents k.active).length ≤ 1024 ∧ k.next.events.length ≤ 1024

theorem activeWell_iff {f : Format} {p : Option Page} : (∀ g, p = some g → resolvedWell f g.events) ↔ resolvedWell f (activeEvents p) := by
  cases p with
  | none => exact ⟨fun _ => resolvedWell_nil f, fun _ => nofun⟩
  | some g => exact ⟨fun h => h g rfl, fun h g' same => by cases same; exact h⟩

theorem pagesSound_iff {s : State} : s.PagesSound ↔ ∀ c, pagesWell s.live.format (s.pages c) := by
  refine forall_congr' fun c => and_congr activeWell_iff ?_
  cases (s.pages c).next <;> exact Iff.rfl

theorem eventsFit_iff {s : State} : s.EventsFit ↔ s.slotsUsed ≤ 6144 ∧ ∀ c, pagesFit (s.pages c) := Iff.rfl

/-- A channel's pages may become these: what was sound stays sound, what fitted fits, and they take no more slots, or one while one is
free. -/
structure PageMove (s : State) (c : Channel) (k : Pages) : Prop where
  well : pagesWell s.live.format (s.pages c) → pagesWell s.live.format k
  fit : pagesFit (s.pages c) → pagesFit k
  slots : k.slots ≤ (s.pages c).slots ∨ s.slotsUsed < 6144 ∧ k.slots ≤ (s.pages c).slots + 1

section
variable {s : State} {c : Channel} {k : Pages}

/-- The active page keeps its events and the next page does not grow. -/
theorem PageMove.next (active : activeEvents k.active = activeEvents (s.pages c).active)
    (well : nextWell s.live.format (s.pages c).next → nextWell s.live.format k.next)
    (shorter : k.next.events.length ≤ (s.pages c).next.events.length) : PageMove s c k := by
  refine ⟨fun h => ⟨active ▸ h.1, well h.2⟩, fun h => ⟨active ▸ h.1, shorter.trans h.2⟩, .inl ?_⟩
  rw [Pages.slots, Pages.slots, active]
  exact Nat.add_le_add_left shorter _

theorem PageMove.discard (active : activeEvents k.active = activeEvents (s.pages c).active) (next : k.next.events = [])
    (well : nextWell s.live.format k.next) : PageMove s c k := .next active (fun _ => well) (by rw [next]; exact Nat.zero_le _)

theorem PageMove.same (active : activeEvents k.active = activeEvents (s.pages c).active) (next : k.next = (s.pages c).next) : PageMove s c k :=
  .next active (fun h => next ▸ h) (by rw [next])

end

/-! ## Slots (R45) -/

theorem sum_map_set {α : Type} (f : α → Nat) (xs : List α) {i : Nat} (lt : i < xs.length) (x : α) :
    ((xs.set i x).map f).sum + f xs[i] = (xs.map f).sum + f x := by
  induction xs generalizing i with
  | nil => cases lt
  | cons y ys ih =>
    cases i with
    | zero =>
      simp only [List.set_cons_zero, List.map_cons, List.sum_cons, List.getElem_cons_zero]
      omega
    | succ i =>
      have := ih (i := i) (Nat.lt_of_succ_lt_succ lt)
      simp only [List.set_cons_succ, List.map_cons, List.sum_cons, List.getElem_cons_succ]
      omega

theorem State.slotsUsed_putPages (s : State) (c : Channel) (k : Pages) :
    (s.putPages c k).slotsUsed + (s.pages c).slots = s.slotsUsed + k.slots := by
  have lt : c.val < (PerChannel.list s.sst.pages).length := by simp [PerChannel.list]
  have list : PerChannel.list (PerChannel.put s.sst.pages c k) = (PerChannel.list s.sst.pages).set c.val k := by
    simp [PerChannel.list, PerChannel.put, Vector.set]
  have here : (PerChannel.list s.sst.pages)[c.val] = s.pages c := by simp [PerChannel.list, State.pages]
  have sum := sum_map_set Pages.slots (PerChannel.list s.sst.pages) lt k
  rw [here] at sum
  unfold State.slotsUsed State.putPages
  dsimp only
  rw [list]
  exact sum

theorem State.slotsUsed_of_pages {s t : State} (same : ∀ c, t.pages c = s.pages c) : t.slotsUsed = s.slotsUsed := by
  have pages : t.sst.pages = s.sst.pages := PerChannel.ext same
  rw [State.slotsUsed, pages]
  rfl

theorem State.slotsUsed_emptied {s : State} (empty : ∀ c, s.pages c = ⟨none, .empty⟩) : s.slotsUsed = 0 := by
  have pages : s.sst.pages = PerChannel.same ⟨none, .empty⟩ := PerChannel.ext fun c => (empty c).trans (PerChannel.get_same _ c).symm
  rw [State.slotsUsed, pages]
  rfl

/-! ## Conditions that every move of pages keeps -/

/-- A condition on the pages and the format of the settings that every move keeps, and that empty pages meet. -/
structure PageLaw (P : State → Prop) : Prop where
  same : ∀ {s t : State}, (∀ c, t.pages c = s.pages c) → t.live.format = s.live.format → P s → P t
  put : ∀ {s : State} (c : Channel) (k : Pages), PageMove s c k → P s → P (s.putPages c k)
  emptied : ∀ {s : State}, (∀ c, s.pages c = ⟨none, .empty⟩) → P s

theorem pagesSound_law : PageLaw State.PagesSound where
  same pages format h := pagesSound_iff.mpr fun c => by
    rw [pages c, format]
    exact pagesSound_iff.mp h c
  put {s} c k move h := pagesSound_iff.mpr fun d => by
    have old := pagesSound_iff.mp h
    rw [State.pages_putPages]
    split
    · exact move.well (old c)
    · exact old d
  emptied empty := pagesSound_iff.mpr fun c => by
    rw [empty c]
    exact ⟨resolvedWell_nil _, trivial⟩

theorem eventsFit_law : PageLaw State.EventsFit where
  same pages _ h := eventsFit_iff.mpr ⟨by rw [State.slotsUsed_of_pages pages]; exact h.1, fun c => by rw [pages c]; exact h.2 c⟩
  put {s} c k move h := by
    obtain ⟨slots, fit⟩ := h
    refine eventsFit_iff.mpr ⟨?_, fun d => ?_⟩
    · have sum := s.slotsUsed_putPages c k
      rcases move.slots with fewer | ⟨free, one⟩
      · omega
      · omega
    · rw [State.pages_putPages]
      split
      · exact move.fit (fit c)
      · exact fit d
  emptied empty := eventsFit_iff.mpr ⟨by rw [State.slotsUsed_emptied empty]; exact Nat.zero_le _, fun c => by
    rw [empty c]
    exact ⟨Nat.zero_le _, Nat.zero_le _⟩⟩

end Sys2Proof.Machine

namespace Sys2Proof.Machine

/-! # Conditions on the pages: every command -/

theorem marked_events (p : Option Page) (m : Page → Page) (same : ∀ g, (m g).events = g.events) : activeEvents (p.map m) = activeEvents p := by
  cases p with
  | none => rfl
  | some g => exact same g

namespace PageLaw

variable {P : State → Prop} (law : PageLaw P)
include law

/-- The parts that hold the pages and the format of the settings. -/
theorem reads : ReadsOnly (fun q => q = .settings ∨ ∃ c, q = .pages c) P := fun _ _ same h =>
  law.same (fun c => same (.pages c) (.inr ⟨c, rfl⟩)) (congrArg SettingsOf.format (same .settings (.inl rfl))) h

theorem other {ps : List Part} {s t : State} (only : OnlyChanges ps s t) (h : P s)
    (free : Part.settings ∉ ps ∧ ∀ c, Part.pages c ∉ ps) : P t :=
  readsOnly_keeps law.reads only (fun q hq => by
    rcases hq with rfl | ⟨c, rfl⟩
    · exact free.1
    · exact free.2 c) h

theorem aside {s t : State} (h : P s) (pages : ∀ c, t.pages c = s.pages c)
    (format : t.live.format = s.live.format) : P t := law.same pages format h

theorem raise {s : State} (h : P s) (f : ChannelFlag) (c : Channel) : P (s.raise f c) := law.aside h (fun _ => rfl) rfl

theorem raiseIf {s : State} (h : P s) (b : Bool) (f : ChannelFlag) (c : Channel) : P (s.raiseIf b f c) := by
  unfold State.raiseIf
  split
  · exact law.raise h f c
  · exact h

theorem device {s : State} (h : P s) (f : DeviceFlag) : P (s.raiseDevice f) := law.aside h (fun _ => rfl) rfl

theorem setEngine {s : State} (h : P s) (e : Engine) : P (s.setEngine e) := law.other (s.setEngine_acts e).only h (by simp)

/-- The next page is replaced by one that is as sound and no longer. -/
theorem putNext {s : State} (h : P s) (c : Channel) (k : NextPage) (well : nextWell s.live.format (s.pages c).next → nextWell s.live.format k)
    (shorter : k.events.length ≤ (s.pages c).next.events.length) : P (s.putNext c k) :=
  law.put c { s.pages c with next := k } (.next rfl well shorter) h

/-! ## Loading and commits (R49 to R57, R59) -/

theorem discardNext {s : State} (h : P s) (c : Channel) : P (s.discardNext c) := by
  have left : P (s.leaveQueue c) := law.other (s.leaveQueue_acts c).only h (by simp)
  exact law.raiseIf (law.putNext left c .empty (fun _ => trivial) (Nat.zero_le _)) _ _ c

theorem beginList {s : State} (h : P s) (c : Channel) (n : BitVec 16) (a b : Nat) : P (s.beginList c n a b) :=
  law.putNext (law.discardNext h c) c (.loading ⟨a, n, b, [], 6 < a || b == 0 || 1024 < b, none⟩) (fun _ => loadedWell_nil _) (Nat.zero_le _)

theorem loadEvent {s : State} (h : P s) {c : Channel} {g : LoadPage} (page : (s.pages c).next = .loading g) (r : EventRecord) :
    P (s.loadEvent c g r) := by
  have broken : P (s.breakPage c g) :=
    law.putNext h c (.loading { g with broken := true }) (by rw [page]; exact id) (by rw [page]; exact Nat.le_refl _)
  unfold State.loadEvent
  split
  · exact broken
  · next e formed =>
    split
    · next good =>
      split
      · exact law.device broken _
      · next free =>
        have free : s.slotsUsed < 6144 := Nat.lt_of_not_le fun full => free (s.poolFull_iff.mpr full)
        have room := (loadable_iff.mp good).2.2
        refine law.put c _ ⟨fun well => ⟨well.1, ?_⟩, fun fit => ⟨fit.1, ?_⟩, .inr ⟨free, ?_⟩⟩ h
        · obtain ⟨-, well⟩ := well
          rw [page] at well
          exact loadedWell_append well formed good
        · show (g.events ++ [e]).length ≤ 1024
          rw [List.length_append]
          exact room
        · simp only [Pages.slots, page, NextPage.events, List.length_append, List.length_singleton]
          omega
    · exact broken

theorem takeEventRecord {s : State} (h : P s) (c : Channel) (r : EventRecord) : P (s.takeEventRecord c r) := by
  unfold State.takeEventRecord State.loadingPage
  cases page : (s.pages c).next with
  | loading g =>
    dsimp only
    split
    · exact h
    · exact law.loadEvent h page r
  | _ => exact h

/-- R52: a page that is accepted at its LIST END begins with a HARD event. -/
theorem endList {s : State} (h : P s) (c : Channel) (n : BitVec 16) (m : Nat) : P (s.endList c n m) := by
  unfold State.endList State.loadingPage
  cases page : (s.pages c).next with
  | loading g =>
    dsimp only
    split
    · next accepted =>
      have head : ∀ e, g.events.head? = some e → e.isHard = true := fun e first => by
        rw [listAccepted, Bool.and_eq_true] at accepted
        obtain ⟨-, hard⟩ := accepted
        cases list : g.events with
        | nil => rw [list] at first; cases first
        | cons x xs =>
          rw [list] at first hard
          cases first
          exact hard
      have committing : P (s.putNext c (.committing g)) :=
        law.putNext h c (.committing g) (by rw [page]; exact fun well => ⟨well, head⟩) (by rw [page]; exact Nat.le_refl _)
      exact law.aside committing (fun _ => rfl) rfl
    · exact law.raise (law.discardNext h c) _ c
  | _ => exact h

theorem abortList {s : State} (h : P s) (c : Channel) : P (s.abortList c) := by
  unfold State.abortList
  split
  · exact law.discardNext h c
  · exact h

theorem recordFlip {s : State} (h : P s) (c : Channel) (x : TimeBytes) : P (s.recordFlip c x) := by
  unfold State.recordFlip
  split
  · exact law.raise h _ c
  · refine law.putNext h c _ ?_ ?_
    · cases (s.pages c).next <;> exact id
    · cases (s.pages c).next <;> exact Nat.le_refl _
  · exact law.raise h _ c

/-- R55, R56: a page that a commit makes READY is resolved. -/
theorem finishCommit {s : State} (h : P s) {c : Channel} {g : LoadPage} (page : (s.pages c).next = .committing g) :
    P (s.finishCommit c g) := by
  unfold State.finishCommit
  dsimp only
  split
  · next span =>
    refine law.putNext h c _ ?_ ?_
    · rw [page]
      exact fun well => resolvedWell_commit well.1 well.2 (spanHolds_iff.mp span)
    · rw [page]
      exact Nat.le_of_add_right_le (resolveFrom_count 0 g.events).le
  · exact law.raise (law.discardNext h c) _ c

/-! ## Edits and flips (R58 to R64) -/

theorem putMarked {s : State} (h : P s) (c : Channel) (m : Page → Page) (same : ∀ g, (m g).events = g.events) :
    P (s.putActive c ((s.pages c).active.map m)) := law.put c _ (.same (marked_events _ m same) rfl) h

theorem diverge {s : State} (h : P s) (c : Channel) : P (s.diverge c) := law.raise (law.putMarked h c (fun p => { p with diverged := true }) fun _ => rfl) _ c

theorem refuseEdit {s : State} (h : P s) (c : Channel) (full locked : Bool) : P (s.refuseEdit c full locked) := by
  have diverged := law.raiseIf (law.diverge h c) locked .editLocked c
  unfold State.refuseEdit
  dsimp only
  split
  · exact law.device diverged _
  · exact diverged

/-- R61: an edit that is accepted can stand, and an insertion has a slot. -/
theorem acceptEdit {s : State} (h : P s) {c : Channel} {page : Page} {op : EditOp} {x : Edited} (active : (s.pages c).active = some page)
    (formed : formEdited s.live.format page op = some x) (fits : fitsIn s op x) : P (s.acceptEdit c page x.resolved) := by
  obtain ⟨stands, free⟩ := fits
  have edited := formEdited_from formed
  have standing := Edited.stands_standing stands
  have shorter := x.resolved_length
  have put : P (s.putActive c (some { page with events := x.resolved.1, dropped := addDropped page.dropped x.resolved.2 })) := by
    refine law.put c _ ⟨fun well => ⟨?_, well.2⟩, fun fit => ⟨shorter.trans standing.short, fit.2⟩, ?_⟩ h
    · obtain ⟨well, -⟩ := well
      rw [active] at well
      exact resolvedWell_edit well edited standing
    · have long := edited.length
      simp only [Pages.slots, active, activeEvents]
      cases takes : op.takesSlot with
      | true =>
        rw [takes, if_pos rfl] at long
        exact .inr ⟨free takes, by omega⟩
      | false =>
        rw [takes, if_neg (by decide)] at long
        exact .inl (by omega)
  exact law.other (State.reviewPlan_acts _ c).only put (by simp [cueParts, planParts, flagParts])

theorem completeEdit {s : State} (h : P s) (c : Channel) (op : EditOp) : P (s.completeEdit c op) := by
  unfold State.completeEdit
  split
  · exact law.diverge h c
  · next page active =>
    split
    · exact law.diverge h c
    · next x formed =>
      dsimp only
      split
      · next ok =>
        simp only [Bool.and_eq_true, Bool.not_eq_true'] at ok
        exact law.acceptEdit h active formed (fitsIn_iff.mpr ok.1)
      · exact law.refuseEdit h c _ _

theorem takeEditOp {s : State} (h : P s) (c : Channel) (op : EditOp) : P (s.takeEditOp c op) := by
  unfold State.takeEditOp
  dsimp only
  split
  · exact law.completeEdit h c op
  · exact law.setEngine h _

/-- R58: a flip makes the READY page the active one. -/
theorem performFlip {s : State} (h : P s) {c : Channel} {g : ReadyPage} (ready : (s.pages c).next = .ready g) : P (s.performFlip c g) := by
  have first := (s.airFirst_acts c).only
  have free : Part.settings ∉ authorityParts c ∧ ∀ d, Part.pages d ∉ authorityParts c := by
    simp [authorityParts, cueParts, planParts, flagParts]
  have still : ((s.airFirst c).pages c).next = .ready g := by
    have pages : (s.airFirst c).pages c = s.pages c := first (.pages c) (free.2 c)
    rw [pages, ready]
  have put : P ((s.airFirst c).putPages c ⟨some g.activated, .empty⟩) := by
    refine law.put c _ ⟨fun well => ⟨?_, trivial⟩, fun fit => ⟨?_, Nat.zero_le _⟩, .inl ?_⟩ (law.other first h free)
    · obtain ⟨-, well⟩ := well
      rw [still] at well
      exact well
    · obtain ⟨-, fit⟩ := fit
      rw [still] at fit
      exact fit
    · rw [Pages.slots, Pages.slots, still]
      exact Nat.le_add_left _ _
  have swapped := law.other (State.abandonEdit_acts ((s.airFirst c).putPages c ⟨some g.activated, .empty⟩) c).only put (by simp)
  unfold State.performFlip
  dsimp only
  split
  · exact swapped
  · exact law.other (State.pageChange_acts _ c).only swapped (by simp [cueParts, planParts, flagParts])

theorem emptyPages {s : State} (h : P s) (c : Channel) : P (s.emptyPages c) := by
  have left : P (s.leaveQueue c) := law.other (s.leaveQueue_acts c).only h (by simp)
  have put : P ((s.leaveQueue c).putPages c ⟨none, .empty⟩) :=
    law.put c _ ⟨fun _ => ⟨resolvedWell_nil _, trivial⟩, fun _ => ⟨Nat.zero_le _, Nat.zero_le _⟩, .inl (Nat.zero_le _)⟩ left
  exact law.other (State.abandonOn_acts _ c).only put (by simp)

/-! ## Frames (R77 to R85) -/

theorem storeFrame {s : State} (h : P s) (c : Channel) (b : FeedBody) : P (s.storeFrame c b) := by
  cases b with
  | listBegin n a m => exact law.beginList h c n _ _
  | event r => exact law.takeEventRecord h c r
  | listEnd n m => exact law.endList h c n _
  | listAbort => exact law.abortList h c
  | edit op => exact law.takeEditOp h c op
  | flip x => exact law.recordFlip h c x

theorem recordGap {s : State} (h : P s) (c : Channel) : P (s.recordGap c) := by
  have broken (k : NextPage) : (nextWell s.live.format k → nextWell s.live.format k.broken) ∧ k.broken.events.length ≤ k.events.length := by
    cases k <;> exact ⟨id, Nat.le_refl _⟩
  obtain ⟨well, shorter⟩ := broken (s.pages c).next
  exact law.raise (law.put c _ (.next (marked_events _ (fun a => { a with behind := true }) fun _ => rfl) well shorter) h) _ c

theorem takeReplication {s : State} (h : P s) (c : Channel) (n : SeqNo) (b : FeedBody) : P (s.takeReplication c n b) := by
  have based {t : State} (h : P t) : P ((t.putBaseline c (some n)).storeFrame c b) :=
    law.storeFrame (law.other (t.putBaseline_acts c (some n)).only h (by simp)) c b
  unfold State.takeReplication
  split
  · exact h
  · exact based (law.recordGap h c)
  · exact based h
  · exact based h

theorem takeHeartbeatFrame {s : State} (h : P s) (x : Heartbeat) (n : LocalFrame) : P (s.takeHeartbeatFrame x n) := by
  unfold State.takeHeartbeatFrame
  split
  · have heard : P ((s.takeStamp x.stamp.toNat n).hearHeartbeat x) := by
      refine law.other (State.hearHeartbeat_acts _ x).only (law.other (s.takeStamp_acts _ n).only h ?_) ?_
      · simp [trackParts, deviceFlagParts]
      · simp [everyChannel, healthParts, authorityParts, cueParts, planParts, flagParts]
    refine eachChannel_keeps (P := P) (fun s c h => ?_) heard
    unfold State.divergenceCheck
    split
    · exact law.diverge h c
    · exact h
  · exact law.device h _

theorem handleFrame {s : State} (h : P s) (q : QueuedFrame) : P (s.handleFrame q) := by
  unfold State.handleFrame
  split
  · exact law.takeReplication h _ _ _
  · exact law.takeHeartbeatFrame h _ _

end PageLaw

end Sys2Proof.Machine

namespace Sys2Proof.Machine

/-! # The pages at every step (R45, R46) -/

theorem flipDue_ready {s : State} {c : Channel} {g : ReadyPage} (due : s.flipDue c = some g) : (s.pages c).next = .ready g := by
  unfold State.flipDue at due
  split at due
  · next page =>
    split at due
    · split at due
      · cases due
        exact page
      · cases due
    · cases due
  all_goals cases due

namespace PageLaw

variable {P : State → Prop} (law : PageLaw P)
include law

/-! ## Settings and clearing -/

theorem configureChannel {s : State} (h : P s) (c : Channel) (x : ChannelItems) : P (s.configureChannelRequest c x).state := by
  have applied (k : ChannelSettings) : P (s.applyChannel c k) := by
    have only := s.applyChannel_only c k
    refine law.aside h (fun d => only (.pages d) ?_) (by rw [s.applyChannel_live c k]; rfl)
    simp [healthParts, authorityParts, cueParts, planParts, flagParts]
  unfold State.configureChannelRequest
  dsimp only
  split
  · exact h
  · split
    · exact h
    · split
      · exact h
      · exact applied _

theorem configureScan {s : State} (h : P s) (x : ScanItems) : P (s.configureScanRequest x).state := by
  have applied : P (s.applyScan x) := by
    have only := s.applyScan_only x
    refine law.aside h (fun d => only (.pages d) ?_) (by rw [s.applyScan_live x]; rfl)
    simp [settingsParts, everyChannel, healthParts, authorityParts, cueParts, planParts, flagParts]
  unfold State.configureScanRequest
  split
  · exact h
  · split
    · exact h
    · split
      · exact h
      · exact applied

theorem configurePorts {s : State} (h : P s) (x : PortItems) : P (s.configurePortsRequest x).state := by
  unfold State.configurePortsRequest
  split
  · exact h
  · exact law.aside h (fun _ => rfl) rfl

theorem alarmMask {s : State} (h : P s) (x : AlarmMaskFields) : P (s.alarmMaskRequest x).state := by
  unfold State.alarmMaskRequest
  split
  · exact h
  · split
    · exact law.aside h (fun _ => rfl) rfl
    · exact h

/-- R12: a change of format empties every page. -/
theorem takeFormat {s : State} (h : P s) (f : Option Format) : P (s.takeFormat f) := by
  unfold State.takeFormat
  split
  · split
    · exact h
    · next g _ => exact law.emptied (s.changeFormat_reformatted g).pages
  · exact h

theorem configureCadence {s : State} (h : P s) (x : CadenceItems) : P (s.configureCadenceRequest x).state := by
  rw [State.configureCadence_decided]
  split
  · exact h
  · split
    · exact h
    · split
      · exact h
      · split
        · exact h
        · exact law.aside (s := s.takeFormat (formatCarried x)) (law.takeFormat h _) (fun _ => rfl) rfl

theorem clearChannel {s : State} (h : P s) (c : Channel) : P (s.clearChannel c) := by
  have based : P (s.putBaseline c none) := law.other (s.putBaseline_acts c none).only h (by simp)
  refine law.other (State.unhear_acts _ c).only (law.emptyPages based c) ?_
  simp [healthParts, authorityParts, cueParts, planParts, flagParts]

/-! ## The commands -/

theorem asked {i : Instr} {p : SitePort} {code : Byte} {tag : Tag} {ps : List Part} {owner : State → Verdict} {s t : State}
    (run : Machine.exec i s = .next t) (ask : askingOf i = some ⟨p, code, tag, ps, owner⟩) (decided : ∀ s, P s → P (owner s).state)
    (h : P s) : P t :=
  asked_keeps run ask (fun s p h => law.other (s.validFrame_acts p).only h (by simp [takingParts])) decided
    (fun s p a h => law.other (s.queueAnswer_acts p a).only h (by simp)) h

theorem execCommitEnd {s t : State} (run : execCommitEnd s = .next t) (h : P s) : P t := by
  refine whenRunning_keeps run (fun h => ?_) h
  split
  · split
    · next page => exact law.setEngine (law.finishCommit h page) _
    all_goals exact law.setEngine h _
  all_goals exact h

theorem execEditComplete {s t : State} (run : execEditComplete s = .next t) (h : P s) : P t := by
  refine whenRunning_keeps run (fun h => ?_) h
  split
  · exact law.setEngine (law.completeEdit h _ _) _
  all_goals exact h

theorem execFlipPerform {c : Channel} {s t : State} (run : execFlipPerform c s = .next t) (h : P s) : P t := by
  refine whenRunning_keeps run (fun h => ?_) h
  split
  · next g due =>
    split
    · exact law.performFlip h (flipDue_ready due)
    · exact h
  · exact h

theorem takeKind {k : FeedKind} {s t : State} (run : whenRunning s (fun s => s.takeKind k) = .next t) (h : P s) : P t :=
  takeKind_keeps (k := k) (P := P) (fun s p h => law.other (s.dropHead_acts p).only h (by simp)) (fun _ q _ h => law.handleFrame h q) run h

theorem exec {i : Instr} {s t : State} (run : exec i s = .next t) (h : P s) : P t := by
  have form {α : Type} {r : Request α} {owner : α → State → Verdict} {s : State} (h : P s) (own : ∀ x, P (owner x s).state) :
      P (owned r owner s).state := owned_ind (P := fun v => P v.state) r h own
  have named {s : State} {b : Byte} {owner : Channel → Verdict} (h : P s) (own : ∀ c, P (owner c).state) : P (s.onChannel b owner).state :=
    State.onChannel_ind (P := fun v => P v.state) b h own
  have reset (nrst : Bool) : P (s.heldInReset nrst) := law.emptied fun c => PerChannel.get_same _ c
  cases i
  case powerOnReset => cases run; exact reset _
  case nrstAccepted => cases run; exact reset _
  case listBegin => exact law.takeKind (k := .listBegin) run h
  case event => exact law.takeKind (k := .event) run h
  case listEnd => exact law.takeKind (k := .listEnd) run h
  case listAbort => exact law.takeKind (k := .listAbort) run h
  case insertAfter => exact law.takeKind (k := .insertAfter) run h
  case replace => exact law.takeKind (k := .replace) run h
  case delete => exact law.takeKind (k := .delete) run h
  case flip => exact law.takeKind (k := .flip) run h
  case heartbeat => exact law.takeKind (k := .heartbeat) run h
  case commitEnd => exact law.execCommitEnd run h
  case editComplete => exact law.execEditComplete run h
  case flipPerform => exact law.execFlipPerform run h
  case configureChannel => exact law.asked run rfl (fun s h => form h fun x => named h fun c => law.configureChannel h c x.items) h
  case configureCadence => exact law.asked run rfl (fun s h => form h fun x => law.configureCadence h x) h
  case configurePorts => exact law.asked run rfl (fun s h => form h fun x => law.configurePorts h x) h
  case configureScan => exact law.asked run rfl (fun s h => form h fun x => law.configureScan h x) h
  case setAlarmMask => exact law.asked run rfl (fun s h => form h fun x => law.alarmMask h x) h
  case clearChannel =>
    refine law.asked run rfl (fun s h => form h fun _ => named h fun c => ?_) h
    split
    · exact law.clearChannel h c
    · exact h
  all_goals
    refine law.other (exec_only run) h ?_
    simp [Instr.reach, requestParts, everyChannel, deviceFlagParts, flagParts, planParts, cueParts, authorityParts, healthParts]

theorem step {s t : State} (run : step s = .next t) (h : P s) : P t := by
  refine step_keeps law.reads (fun q hq => ?_) (fun s l h => law.other (s.abandonPartial_only l) h (by simp [deviceFlagParts]))
    (fun s h => law.other s.lineTick_only h (by simp [lineParts])) (fun _ _ _ run => law.exec run) run h
  rcases hq with rfl | ⟨c, rfl⟩ <;> simp

end PageLaw

/-- Settles O8: every move of the pages keeps them sound and within their room, and every command moves them so. -/
theorem pagesStayOrderedAndWithinRoom : Obligations.PagesStayOrderedAndWithinRoom :=
  ⟨fun _ _ h run => eventsFit_law.step run h, fun _ _ h run => pagesSound_law.step run h⟩

end Sys2Proof.Machine
